-- ==== Sys2Proof/Word.lean ====
section
/-!
DEFINITION. The word types of the YQ48 (R5) and their plainest arithmetic.
-/
namespace Sys2Proof

/-- R5: byte. -/
abbrev Byte := BitVec 8
/-- R5: word, the width of a vector lane and of a g register. -/
abbrev Word := BitVec 32
/-- R5: double. -/
abbrev Dword := BitVec 64
/-- R72: a buffer record, 128 bits. -/
abbrev BufRec := BitVec 128
/-- R25: a mask over the 1,024 possible lanes of a team; bit l is lane l. -/
abbrev LaneMask := BitVec 1024
/-- R14: the bytes of one 64-byte line; byte i is bits [8i+7:8i]. -/
abbrev LineBits := BitVec 512

end Sys2Proof
end

