-- ==== Sys2Proof/Config.lean ====
section
/-!
DEFINITION. What the spec leaves open: free values (opaque constants, nothing can be proved of them), and the
functions of outside standards the spec names without giving them (digests, signatures).
-/
namespace Sys2Proof.Config

/-- R40 rule 4, R43: whether an unmarked read of a register element with an outstanding write (the nonce names the
issue, the second number the element) yields the new value. A free value: log 6. -/
opaque hazardNew : Nat → Nat → Bool

/-- R42: whether a write that has not been waited for is still outstanding when an instruction issues under
MODE.HCHK. A free value: log 6. -/
opaque stillOutstanding : Nat → Bool

/-- A value that a rule leaves unstated: which one, and the count that makes it fresh. A free value: log 8. -/
opaque openValue : Nat → Nat → Nat

/-- R97: the set that a line falls into: which cache (0 the L1, 1 the L2, 2 the SLC), and the line. The spec gives the ways
and not the index. A free value: log 14. -/
opaque cacheSet : Nat → Nat → Nat

/-- R391, R392: SHA-256 of a byte string; the standard's function, left uninterpreted (log 7). -/
opaque sha256 : List Byte → BitVec 256

/-- R391: RSASSA-PSS verification (modulus, signature, digest), left uninterpreted (log 7). -/
opaque pssVerify : List Byte → List Byte → BitVec 256 → Bool

/-- R391: the fused vendor key hash, left uninterpreted (log 7). -/
opaque fusedKeyHash : BitVec 256

/-- R392: the digest the boot ROM measures to, left uninterpreted (log 7). -/
opaque romDigest : BitVec 256

/-- R392: the RSA-3072 signature of a measurement, left uninterpreted (log 7). -/
opaque signMeasurement : List Nat → List Byte

end Sys2Proof.Config
end

