-- ==== Sys2Proof/Machine/Sparse.lean ====
section
/-!
DEFINITION. Sparse maps from numbers in one canonical form: keys strictly rising, no entry equal to the default an
unlisted key reads as. Memory, register files, scratchpads and tables of the state are held this way.
-/
namespace Sys2Proof.Machine

/-- The value at key `i`, the default `d` where none is listed. -/
def sget {α : Type} (d : α) : List (Nat × α) → Nat → α
  | [], _ => d
  | (k, x) :: t, i => if i = k then x else sget d t i

/-- Put an entry at its place among rising keys. -/
def sins {α : Type} : List (Nat × α) → Nat → α → List (Nat × α)
  | [], i, y => [(i, y)]
  | (k, x) :: t, i, y => if i < k then (i, y) :: (k, x) :: t else (k, x) :: sins t i y

/-- Write key `i`, keeping the canonical form: writing the default removes the entry. -/
def sset {α : Type} [DecidableEq α] (d : α) (m : List (Nat × α)) (i : Nat) (y : α) : List (Nat × α) :=
  let rest := m.filter fun p => p.1 ≠ i
  if y = d then rest else sins rest i y

/-- The canonical form: every key above `lo` (when given), strictly rising, no default listed. -/
def swfFrom {α : Type} [DecidableEq α] (d : α) : Option Nat → List (Nat × α) → Bool
  | _, [] => true
  | lo, (k, x) :: t => (match lo with | none => true | some l => decide (l < k)) && decide (x ≠ d) && swfFrom d (some k) t

/-- The canonical form of a sparse map. -/
def swf {α : Type} [DecidableEq α] (d : α) (m : List (Nat × α)) : Bool := swfFrom d none m

/-- Write a list of (key, value) pairs, first to last: a later pair overwrites an earlier one. -/
def ssets {α : Type} [DecidableEq α] (d : α) (m : List (Nat × α)) (l : List (Nat × α)) : List (Nat × α) :=
  l.foldl (fun m p => sset d m p.1 p.2) m

/-- Drop every key in [lo, hi). -/
def sdrop {α : Type} (m : List (Nat × α)) (lo hi : Nat) : List (Nat × α) :=
  m.filter fun p => !(decide (lo ≤ p.1) && decide (p.1 < hi))

/-- The entry of a list at an index, replaced by a function of itself; an index past the end changes nothing. -/
def lmod {α : Type} (l : List α) (i : Nat) (f : α → α) : List α := l.modify i f

/-- The numbers of the set bits of `m` below `n`, ascending. -/
def bitsBelow {w : Nat} (m : BitVec w) (n : Nat) : List Nat := (List.range n).filter m.getLsbD

/-- The mask whose set bits are the numbers of a list. -/
def maskOf (w : Nat) (l : List Nat) : BitVec w :=
  l.foldl (fun m i => m ||| BitVec.ofNat w (2 ^ i)) 0

/-- R4: the number whose little-endian bytes stand at addresses a, a+1, ... of a byte reader. -/
def leNat (rd : Nat → Byte) (a : Nat) : Nat → Nat
  | 0 => 0
  | n + 1 => (rd a).toNat + 256 * leNat rd (a + 1) n

/-- R4: byte `i` of a number. -/
def byteOf (x i : Nat) : Byte := BitVec.ofNat 8 (x / 256 ^ i)

end Sys2Proof.Machine
end

