-- ==== Sys2Proof/Syntax.lean ====
section
/-!
DEFINITION. The syntax: the operand formats of R37, the operands of the device's events, and Instr, one constructor
per row of spec/opcode_table.json (206 instruction rows, then 104 event rows).
-/
namespace Sys2Proof

/-- R39: an EXT word in front of an I- or K-format word: its marker bit and IMM24. -/
structure ExtWord where
  marked : Bool
  imm : BitVec 24
  deriving DecidableEq, Repr

/-- R44: instructions whose bits [23:0] are 0; only the marker M is an operand. -/
structure FN where
  m : Bool
  deriving DecidableEq, Repr

/-- R37: R format. The fields name registers as R28 and R29 say, or hold values where the entry says so. -/
structure FR where
  m : Bool
  d : Byte
  a : Byte
  b : Byte
  deriving DecidableEq, Repr

/-- R37: R format whose B is a function value (IUN, FUN): the function is the constructor. -/
structure FF where
  m : Bool
  d : Byte
  a : Byte
  deriving DecidableEq, Repr

/-- R37: I format, with the EXT word that may stand in front of it. -/
structure FI where
  m : Bool
  ext : Option ExtWord
  d : Byte
  a : Byte
  i : Byte
  deriving DecidableEq, Repr

/-- R37: I format whose I8 is a function value (VOTE): the function is the constructor. -/
structure FIF where
  m : Bool
  ext : Option ExtWord
  d : Byte
  a : Byte
  deriving DecidableEq, Repr

/-- R37: K format. -/
structure FK where
  m : Bool
  ext : Option ExtWord
  d : Byte
  k : BitVec 16
  deriving DecidableEq, Repr

/-- R37: J format. -/
structure FJ where
  m : Bool
  j : BitVec 24
  deriving DecidableEq, Repr

/-- R37: JC format. -/
structure FJC where
  m : Bool
  a : Byte
  off : BitVec 16
  deriving DecidableEq, Repr

/-- R37: JM format. -/
structure FJM where
  m : Bool
  mask : BitVec 4
  off : BitVec 20
  deriving DecidableEq, Repr

/-- R37: MEM format; w is the width code of R38, or ATOM's operation (R144). -/
structure FMem where
  m : Bool
  d : Byte
  a : Byte
  r : BitVec 5
  w : BitVec 3
  deriving DecidableEq, Repr

/-- R37: L format; LATOM (R149) reads s as operation [4:2] and level [1:0]. -/
structure FL where
  m : Bool
  d : Byte
  a : Byte
  s : BitVec 5
  w : BitVec 3
  deriving DecidableEq, Repr

/-- R37: E format; the function F is the constructor. -/
structure FE where
  m : Bool
  d : Byte
  a : Byte
  gs : BitVec 4
  deriving DecidableEq, Repr

/-- R154: FENCE, I format; the kind I8[4:3] is the constructor, z is I8[7:5]. -/
structure FFence where
  m : Bool
  ext : Option ExtWord
  d : Byte
  a : Byte
  z : BitVec 3
  scope : BitVec 3
  deriving DecidableEq, Repr

/-- R39: an EXT word followed by a word that is not of I or K format. -/
structure FExt where
  marked : Bool
  imm : BitVec 24
  second : Word
  deriving DecidableEq, Repr

/-! Operands of the events: which access, team, group, core, context or message the event is about. Teams, groups,
nodes and splits are named by the model's identifiers. -/

structure EvFlight where
  flight : Nat
  deriving DecidableEq, Repr
structure EvFlightLine where
  flight : Nat
  line : Nat
  deriving DecidableEq, Repr
structure EvCoreLine where
  core : Nat
  line : Nat
  deriving DecidableEq, Repr
structure EvSplit where
  team : Nat
  split : Nat
  deriving DecidableEq, Repr
structure EvWalk where
  core : Nat
  asid : Nat
  va : Nat
  deriving DecidableEq, Repr
/-- A reply of the host (R387): ticket, status, value words; carried marks the second value word (R388). -/
structure EvReply where
  ticket : Nat
  status : Nat
  value0 : Word
  value1 : Word
  carried : Bool
  deriving DecidableEq, Repr
/-- R93: what a translation invalidation names. -/
inductive InvKind where
  | range (asid va len : Nat)
  | asid (asid : Nat)
  | global
  | all
  deriving DecidableEq, Repr
structure EvInv where
  kind : InvKind
  deriving DecidableEq, Repr
/-- R383, R393: a host MEM read of n bytes at pa; binding is the TDI whose binding the link carries, agent the host core
or I/O master that asks (R273), plat the flag PLAT, ide whether the message came under IDE protection (R393). -/
structure EvHostRead where
  pa : Nat
  n : Nat
  binding : Option Nat
  agent : Nat := 0
  plat : Bool := false
  ide : Bool := true
  deriving DecidableEq, Repr
structure EvHostWrite where
  pa : Nat
  data : List Byte
  binding : Option Nat
  agent : Nat := 0
  plat : Bool := false
  ide : Bool := true
  deriving DecidableEq, Repr
/-- R383: a host atomic; op coded as ATOM (R144), width in bytes 4 or 8. -/
structure EvHostAtomic where
  pa : Nat
  op : Nat
  width : Nat
  operand : Nat
  compare : Nat
  binding : Option Nat
  agent : Nat := 0
  plat : Bool := false
  ide : Bool := true
  deriving DecidableEq, Repr
/-- R100, R383: the host's answer to a snoop of a line, with the sectors that were dirty. -/
structure EvSnoop where
  line : Nat
  dirty : List (Nat × BitVec 128)
  deriving DecidableEq, Repr
structure EvFrames where
  frames : List Nat
  deriving DecidableEq, Repr
structure EvBank where
  bank : Nat
  deriving DecidableEq, Repr
structure EvBankAccess where
  bank : Nat
  row : Nat
  write : Bool
  deriving DecidableEq, Repr
/-- An engine context: its group and its selector of R133. -/
structure EvEngine where
  group : Nat
  sel : Nat
  deriving DecidableEq, Repr
structure EvEngineCmd where
  group : Nat
  sel : Nat
  n : Nat
  deriving DecidableEq, Repr
structure EvYard where
  asid : Nat
  key : Nat
  deriving DecidableEq, Repr
structure EvGroup where
  group : Nat
  deriving DecidableEq, Repr
structure EvGroupCore where
  group : Nat
  core : Nat
  deriving DecidableEq, Repr
structure EvTeam where
  team : Nat
  deriving DecidableEq, Repr
structure EvRay where
  group : Nat
  n : Nat
  lane : Nat
  deriving DecidableEq, Repr
structure EvQuad where
  core : Nat
  quad : Nat
  deriving DecidableEq, Repr
structure EvBay where
  core : Nat
  bay : Nat
  deriving DecidableEq, Repr
structure EvCore where
  core : Nat
  deriving DecidableEq, Repr
/-- R316: a write to the spawn window. -/
structure EvSpawn where
  asid : Nat
  offset : Nat
  payload : List Word
  deriving DecidableEq, Repr
structure EvNode where
  node : Nat
  deriving DecidableEq, Repr
/-- R343: the rail of a core stands `mv` millivolts below its set point. -/
structure EvDroop where
  core : Nat
  mv : Nat
  deriving DecidableEq, Repr
/-- R346: a skin-temperature reading in thousandths of a degree, none when it is missing. -/
structure EvSkin where
  reading : Option Int
  deriving DecidableEq, Repr
/-- R349: the levers the governor chooses after an estimate. -/
structure EvGovernor where
  threshold : Nat
  pool : Nat
  ceiling : Nat
  deriving DecidableEq, Repr
/-- R365: an uncorrectable error of the register file poisons the words (register file, key) given, then the split
reads them. -/
structure EvPoison where
  team : Nat
  split : Nat
  words : List Nat
  deriving DecidableEq, Repr
/-- R371: who asks for a stop. -/
inductive StopWhy where
  | evict | group | level | partition | debug
  deriving DecidableEq, Repr
structure EvStop where
  team : Nat
  why : StopWhy
  deriving DecidableEq, Repr
structure EvCtx where
  asid : Nat
  deriving DecidableEq, Repr
/-- R385: the fields of CTX.CREATE and CTX.SET. -/
structure EvCtxCfg where
  asid : Nat
  root : Nat
  mask : BitVec 16
  defaultReq : Nat
  ceiling : Nat
  loftBase : Nat
  loftSize : Nat
  evictBase : Nat
  evictSize : Nat
  shadow : Nat
  tdi : Option Nat
  /-- R393: the frames a trusted context owns from this request on -/
  frames : List Nat := []
  deriving DecidableEq, Repr
/-- R389, R390, R382: what the fuses and the link training give at power-on. -/
structure EvPower where
  retired : BitVec 16
  minSvn : Nat
  modules : BitVec 4
  deriving DecidableEq, Repr
structure EvTraining where
  ok : Bool
  channel : Nat
  rows : Nat
  deriving DecidableEq, Repr
structure EvRegValue where
  value : Nat
  deriving DecidableEq, Repr
structure EvIndex where
  index : Nat
  deriving DecidableEq, Repr
/-- Where a host or firmware register write goes: the firmware window (R390), the debug window (R396), a register only
verified firmware writes, or the configuration of a TDI (R394). -/
inductive RegWindow where
  | firmware | debug | trusted
  | interface (tdi : Nat)
  deriving DecidableEq, Repr
structure EvRegWrite where
  window : RegWindow
  off : Nat
  value : Nat
  deriving DecidableEq, Repr

/-- The opcode table: one constructor per row. -/
inductive Instr where
  | nop (o : FN)
  | add (o : FR)
  | sub (o : FR)
  | mul (o : FR)
  | mulh (o : FR)
  | mad (o : FR)
  | min (o : FR)
  | max (o : FR)
  | absd (o : FR)
  | and (o : FR)
  | or (o : FR)
  | xor (o : FR)
  | andn (o : FR)
  | shl (o : FR)
  | shr (o : FR)
  | sar (o : FR)
  | rot (o : FR)
  | bfx (o : FR)
  | bfi (o : FR)
  | popc (o : FF)
  | clz (o : FF)
  | ctz (o : FF)
  | brev (o : FF)
  | not (o : FF)
  | neg (o : FF)
  | iabs (o : FF)
  | sext8 (o : FF)
  | sext16 (o : FF)
  | zext8 (o : FF)
  | zext16 (o : FF)
  | addi (o : FI)
  | muli (o : FI)
  | andi (o : FI)
  | ori (o : FI)
  | xori (o : FI)
  | shli (o : FI)
  | shri (o : FI)
  | sari (o : FI)
  | movk (o : FK)
  | movkh (o : FK)
  | mov (o : FR)
  | movf (o : FR)
  | ceq (o : FR)
  | cne (o : FR)
  | clt (o : FR)
  | cle (o : FR)
  | cun (o : FR)
  | ceqi (o : FI)
  | clti (o : FI)
  | clei (o : FI)
  | fadd (o : FR)
  | fsub (o : FR)
  | fmul (o : FR)
  | fma (o : FR)
  | fnma (o : FR)
  | fmin (o : FR)
  | fmax (o : FR)
  | frcp (o : FF)
  | frsq (o : FF)
  | fsqrt (o : FF)
  | fexp2 (o : FF)
  | flog2 (o : FF)
  | fsinpi (o : FF)
  | fcospi (o : FF)
  | ftanh (o : FF)
  | ffloor (o : FF)
  | fceil (o : FF)
  | ftrunc (o : FF)
  | frint (o : FF)
  | fabs (o : FF)
  | fneg (o : FF)
  | fclass (o : FF)
  | fdot2 (o : FR)
  | idot4 (o : FR)
  | fscale (o : FR)
  | cvt (o : FI)
  | pack (o : FR)
  | unpk (o : FI)
  | mxscl (o : FR)
  | shfl (o : FR)
  | shflx (o : FR)
  | perm (o : FR)
  | voteAny (o : FIF)
  | voteAll (o : FIF)
  | voteBallot (o : FIF)
  | tred (o : FI)
  | tscan (o : FI)
  | wid (o : FI)
  | setmode (o : FK)
  | mand (o : FR)
  | mor (o : FR)
  | mxor (o : FR)
  | mandn (o : FR)
  | mcnt (o : FR)
  | mfind (o : FR)
  | mget (o : FR)
  | mset (o : FR)
  | mexec (o : FR)
  | msts (o : FL)
  | mlds (o : FL)
  | setmodeh (o : FK)
  | mloop (o : FR)
  | mxv (o : FR)
  | trace (o : FR)
  | rbox (o : FR)
  | bra (o : FJ)
  | brnz (o : FJC)
  | brz (o : FJC)
  | brany (o : FJM)
  | brnone (o : FJM)
  | jset (o : FJ)
  | brm (o : FJM)
  | jmpi (o : FR)
  | join (o : FN)
  | call (o : FJ)
  | calli (o : FR)
  | ret (o : FN)
  | land (o : FN)
  | exit (o : FN)
  | bar (o : FI)
  | yield (o : FN)
  | ld (o : FMem)
  | st (o : FMem)
  | lda (o : FMem)
  | str (o : FMem)
  | ldk (o : FMem)
  | lds (o : FL)
  | sts (o : FL)
  | ldy (o : FL)
  | sty (o : FL)
  | ldl (o : FL)
  | stl (o : FL)
  | ldp (o : FL)
  | stp (o : FL)
  | atom (o : FMem)
  | atagg (o : FMem)
  | latom (o : FL)
  | arm (o : FMem)
  | waitmon (o : FI)
  | fenceFull (o : FFence)
  | fenceAcq (o : FFence)
  | fenceRel (o : FFence)
  | fenceStrict (o : FFence)
  | cmaint (o : FI)
  | icinv (o : FR)
  | promote (o : FR)
  | demote (o : FR)
  | bset (o : FR)
  | bget (o : FR)
  | bnar (o : FR)
  | bld (o : FMem)
  | tpload (o : FE)
  | rres (o : FE)
  | rpoll (o : FE)
  | boxu (o : FE)
  | sah (o : FE)
  | npack (o : FE)
  | rast (o : FE)
  | atlnext (o : FE)
  | atldone (o : FE)
  | visrd (o : FE)
  | vrsl (o : FE)
  | samp (o : FE)
  | grid (o : FE)
  | ungrid (o : FE)
  | mzero (o : FE)
  | mlda (o : FE)
  | msta (o : FE)
  | mrd (o : FE)
  | mwr (o : FE)
  | mstat (o : FE)
  | mwait (o : FE)
  | macc (o : FE)
  | copy (o : FE)
  | copy2d (o : FE)
  | gather (o : FE)
  | scatter (o : FE)
  | coll (o : FE)
  | waitp (o : FE)
  | waitt (o : FE)
  | tlget (o : FE)
  | gres (o : FE)
  | binit (o : FE)
  | barv (o : FE)
  | bwait (o : FE)
  | bstat (o : FE)
  | yjoin (o : FE)
  | yleave (o : FE)
  | qres (o : FE)
  | sread (o : FE)
  | swrite (o : FE)
  | trap (o : FE)
  | tret (o : FE)
  | region (o : FE)
  | rpc (o : FE)
  | rpcwait (o : FE)
  | claim (o : FE)
  | release (o : FE)
  | setperf (o : FE)
  | node (o : FE)
  | emit (o : FE)
  | bkpt (o : FE)
  | tmark (o : FE)
  | jcadd (o : FE)
  | halt (o : FE)
  | ext (o : FExt)
  | loadDataReturn (e : EvFlight)
  | storePerformed (e : EvFlight)
  | slcRequest (e : EvFlightLine)
  | monitorRegistration (e : EvFlight)
  | l1Invalidation (e : EvCoreLine)
  | fenceComplete (e : EvSplit)
  | waitmonTimeout (e : EvSplit)
  | pageWalkComplete (e : EvWalk)
  | faultReply (e : EvReply)
  | parkedReplay (e : EvSplit)
  | translationInvalidation (e : EvInv)
  | invalidationAck
  | hostReadShared (e : EvHostRead)
  | hostReadForOwnership (e : EvHostRead)
  | hostWrite (e : EvHostWrite)
  | hostAtomic (e : EvHostAtomic)
  | snoopResponse (e : EvSnoop)
  | frameClean (e : EvFrames)
  | frameCleanComplete
  | cmaintComplete (e : EvFlight)
  | icinvComplete (e : EvSplit)
  | bankAccess (e : EvBankAccess)
  | perBankRefresh (e : EvBank)
  | bankSegmentRequest (e : EvBank)
  | segmentWritebackDone (e : EvBank)
  | segmentCopyDone (e : EvBank)
  | engineCommandStart (e : EvEngine)
  | engineTransfer (e : EvEngineCmd)
  | engineCommandComplete (e : EvEngineCmd)
  | yjoinComplete (e : EvYard)
  | yleaveComplete (e : EvGroup)
  | gridTake (e : EvTeam)
  | ungridComplete (e : EvTeam)
  | tokenGrant
  | tokenIdleRelease (e : EvTeam)
  | matrixCommandStart (e : EvEngine)
  | mloopStep (e : EvEngineCmd)
  | matrixCommandFinish (e : EvEngineCmd)
  | mxvFinish (e : EvSplit)
  | rboxFinish (e : EvSplit)
  | tploadSlotLoad (e : EvGroup)
  | rayStart (e : EvGroup)
  | rayMicroOpStep (e : EvRay)
  | rastCommandStart (e : EvGroup)
  | rastTriangle (e : EvGroup)
  | requestPassStart (e : EvGroup)
  | requestPassSample (e : EvGroup)
  | vrslLatch (e : EvGroup)
  | claimGrant (e : EvQuad)
  | splitRotation (e : EvTeam)
  | splitReload (e : EvTeam)
  | teamGranuleReturn (e : EvTeam)
  | groupEnd (e : EvGroup)
  | spawnWrite (e : EvSpawn)
  | nodeDispatch (e : EvNode)
  | tileStaging (e : EvNode)
  | groupPlacement (e : EvNode)
  | nodeComplete (e : EvNode)
  | levelMove (e : EvCore)
  | levelMoveComplete (e : EvCore)
  | droopTrigger (e : EvDroop)
  | droopStretchEnd (e : EvCore)
  | droopHalvingEnd (e : EvCore)
  | bayPowerGate (e : EvBay)
  | bayWakeComplete (e : EvQuad)
  | corePowerGate (e : EvCore)
  | coreWakeComplete (e : EvCore)
  | skinTemperatureInterval (e : EvSkin)
  | governorEstimate (e : EvGovernor)
  | rtimerExpiry (e : EvTeam)
  | wallDeadlineExpiry (e : EvTeam)
  | asyncTrapEntry (e : EvTeam)
  | poisonedRegisterRead (e : EvPoison)
  | teamStop (e : EvStop)
  | teamRestore (e : EvTeam)
  | groupEviction (e : EvGroup)
  | groupRestore (e : EvGroupCore)
  | partitionHalt (e : EvCtx)
  | partitionSwap (e : EvCtx)
  | ctxCreate (e : EvCtxCfg)
  | ctxSet (e : EvCtxCfg)
  | ctxDestroy (e : EvCtx)
  | rpcReply (e : EvReply)
  | coreRetirement (e : EvCore)
  | powerOnReset (e : EvPower)
  | memoryTrainingComplete (e : EvTraining)
  | fwgo (e : EvRegValue)
  | firmwareVerification
  | corePowerUp (e : EvCore)
  | getMeasurements (e : EvIndex)
  | ideKmKeySet (e : EvIndex)
  | lockInterfaceRequest (e : EvIndex)
  | getDeviceInterfaceReport (e : EvIndex)
  | startInterfaceRequest (e : EvIndex)
  | stopInterfaceRequest (e : EvIndex)
  | frozenConfigurationWrite (e : EvIndex)
  | ideIntegrityFailure (e : EvIndex)
  | stopreqSet
  | stopreqClear
  | haltdbgClear
  | dropsClear (e : EvRegValue)
  | registerWrite (e : EvRegWrite)
  | chargeWindowAging (e : EvCore)
  | idleBayCycle (e : EvBay)
  deriving DecidableEq, Repr

end Sys2Proof
end

