-- ==== Sys2Proof/Machine/State.lean ====
section
/-!
DEFINITION. The machine's state as plain data, its faults and refusals, and the state after reset.
Sparse lists hold registers and memory in the canonical form of Machine/Sparse.lean.
-/
namespace Sys2Proof.Machine

/-- Why the machine stops. -/
inductive Fault where
  /-- Raised by every instruction's meaning when State.cur names no live split: exec was asked to run an instruction
  that no split issues. The step function always names one. Safe. -/
  | noIssuer
  deriving DecidableEq, Repr

/-- Why an instruction has no meaning. -/
inductive Refusal where
  /-- Raised by a dispatch arm that has no meaning yet. Safe. -/
  | notModelled (mnemonic : String)
  deriving DecidableEq, Repr

/-! ### Splits (R293, R294) -/

/-- R294: the state of a split. -/
inductive SState where
  | ready | parked | joinWait | barWait | monWait | blocked
  deriving DecidableEq, Repr

/-- R150: the monitor of a split. -/
inductive Mon where
  | disarmed | armed | fired
  deriving DecidableEq, Repr

/-- R107, R4: the address spaces bytes live in: global memory, a group's window, a team's private area, the loft. -/
inductive Space where
  | glob
  | win (group : Nat)
  | priv (team : Nat)
  | loft
  deriving DecidableEq, Repr

/-- R155, R284: an incomplete fence of a split: kind, scope, its address, the first identifier that is not earlier than
it, the lines its speculative loads have read, and the trap of a held store that its release has met: code, detail, lanes,
the store's PC. -/
structure FenceSt where
  kind : Nat
  scope : Nat
  pc : Word
  before : Nat
  readSet : List (Space × Nat) := []
  trap : Option (Nat × Nat × LaneMask × Word) := none
  deriving DecidableEq, Repr

/-- R89, R92: what a parked split waits for: a fetch, the unfinished lanes of an access, or an instruction that replays
whole (MXV, RBOX, BLD and other uniform forms). -/
inductive ParkKind where
  | fetch
  | access (flight : Nat)
  | whole
  deriving DecidableEq, Repr

/-- R89, R387: a parked split: what for, the virtual address reported, and whether the host has answered. -/
structure Park where
  kind : ParkKind
  va : Nat
  path : Nat
  write : Bool
  resumed : Bool := false
  refused : Bool := false
  /-- R95: a held store has parked at its release, so the split does not stand at it -/
  late : Bool := false
  deriving DecidableEq, Repr

/-- R153: a waiting WAITMON: its destination g register, its deadline in TIME, the reason that ended it. -/
structure MonWait where
  dst : Nat
  deadline : Option Nat
  reason : Option Nat := none
  deriving DecidableEq, Repr

/-- R22: the register files. -/
inductive RFile where
  | v | g | m | b
  deriving DecidableEq, Repr

/-- R257, R286: bytes that an engine has read ahead of the step that uses them: n bytes, little-endian. -/
structure Ahead where
  space : Space
  addr : Nat
  n : Nat
  value : Nat
  deriving DecidableEq, Repr

/-- R293: a split-table slot, with the latches of R48, the fence of R155 and the counts of R297 and R331. -/
structure Split where
  uid : Nat
  slot : Nat := 0
  pc : Word := 0
  own : LaneMask := 0
  exec : LaneMask := 0
  mode : Word := 0
  st : SState := .ready
  barid : Nat := 0
  jlink : Option Nat := none
  pj : Option Word := none
  mon : Mon := .disarmed
  monLine : Nat := 0
  first : Bool := false
  age : Nat := 0
  res : Nat := 0
  latCycle : Option Word := none
  latTime : Option Word := none
  latPsig : Option Word := none
  park : Option Park := none
  monWait : Option MonWait := none
  fence : Option FenceSt := none
  restarts : Nat := 0
  restartPc : Word := 0
  landCheck : Bool := false
  icinv : Option (Nat × Nat) := none
  reload : Nat := 0
  lost : List (Nat × Nat) := []
  psig : Dword := 0
  /-- R400: the first instruction after a TRET is exempt from breakpoints and watchpoints -/
  exempt : Bool := false
  /-- R43, R275: the splits whose instructions precede all of this one's (parents of divergences, arrivals of merges) -/
  anc : List Nat := []
  /-- the instruction that the split is BLOCKED in (R294), or the MXV or RBOX that is running (R236, R260), with the
  register values read at issue -/
  busy : Option (Instr × List Nat) := none
  /-- R90: what an instruction that parked whole had read: file, register, lanes -/
  caps : List (RFile × Nat × List (Nat × Nat)) := []
  /-- what the MXV or RBOX that is running has read -/
  ahead : List Ahead := []
  /-- R339: the clocks of the MXV or RBOX that is running have begun -/
  clocked : Bool := false
  deriving DecidableEq, Repr

/-- R300: a join record. -/
structure JoinRec where
  jpc : Word
  parent : Option Nat
  smode : Word
  members : Nat
  /-- HOST, named by its split -/
  host : Option Nat := none
  /-- R398: the lowest lane and the signature of each arrival -/
  sigs : List (Nat × Dword) := []
  deriving DecidableEq, Repr

/-- R353, R356: the depth-1 set saved at a nested entry. -/
structure SavedSet where
  cause : Word
  epc : Word
  lo : Word
  hi : Word
  m15 : LaneMask
  deriving DecidableEq, Repr

/-- R40: the values a register's lanes held before a write of a split that nothing has waited for yet; `ew` is the
element width in bits of the write. A mask has one old value, at lane 0, and `bits` says which of its bits the write sets
(R205). -/
structure Unset where
  owner : Nat
  file : RFile
  reg : Nat
  ew : Nat
  olds : List (Nat × Nat)
  /-- its owner has waited for it (a marker); other splits of the team still read old or new (R43) -/
  settled : Bool := false
  bits : LaneMask := 0
  /-- the results owed to the same register when it was written: they arrive beneath this write (R40 rule 5) -/
  above : List Nat := []
  /-- R126: the path and the identifier of the access whose result this write is -/
  path : Option (Nat × Nat) := none
  deriving DecidableEq, Repr

/-- R40: a register result that an event writes later (a load, a bank request, an engine answer): its owner and the
registers it will write. -/
structure Await where
  tok : Nat
  owner : Nat
  file : RFile
  reg : Nat
  count : Nat
  lanes : LaneMask
  deriving DecidableEq, Repr

/-- R364, R365: the region of a team. -/
structure Region where
  own : LaneMask
  exec : LaneMask
  mode : Word
  written : List (RFile × Nat) := []
  restarts : Nat := 0
  psig : Dword := 0
  /-- the last start of this region execution was a restart, so its REGION keeps the count (R365) -/
  again : Bool := false
  deriving DecidableEq, Repr

/-- R371 to R375, R308: where a team is. -/
inductive Residence where
  | resident
  /-- stopped with its registers in place (forced transition, partition halt) -/
  | stopped
  /-- stopped for the debugger -/
  | debugStopped
  /-- its image lies in the eviction area; the order of eviction -/
  | evicted (order : Nat)
  /-- its group's image lies in the loft -/
  | saved
  /-- ended, its granules not yet returned -/
  | ended
  deriving DecidableEq, Repr

/-- R211, R213, R228: the grid a team holds. -/
structure GridSt where
  shape : Nat
  quads : List Nat
  tokens : Nat := 0
  idle : Nat := 0
  /-- released by a stop and still to be taken again (R233) -/
  retake : Bool := false
  deriving DecidableEq, Repr

/-- R12, R97: an instruction in a team's loop buffer: its ASID and virtual address, its word, and the second word of a
prefixed pair. -/
structure LoopEnt where
  asid : Nat
  va : Nat
  w0 : Word
  w1 : Option Word
  bad : Bool := false
  glob : Bool := false
  /-- the physical lines that its words came from -/
  lines : List Nat := []
  deriving DecidableEq, Repr

/-- R20, R22, R46: a team. -/
structure Team where
  id : Nat
  group : Nat
  role : Nat := 0
  index : Nat := 0
  serial : Nat := 0
  size : Nat := 32
  gran : Nat := 1
  slot : Nat := 0
  quad : Nat := 0
  core : Nat := 0
  trapv : Word := 0
  entry : Word := 0
  present : LaneMask := 0
  v : List (Nat × Word) := []
  g : List (Nat × Word) := []
  m : List (Nat × LaneMask) := []
  b : List (Nat × BufRec) := []
  splits : List Split := []
  deferred : List Split := []
  joins : List (Nat × JoinRec) := []
  handler : Option Split := none
  cause : Word := 0
  epc : Word := 0
  sstatLo : Word := 0
  sstatHi : Word := 0
  /-- R352: the split F of the trap that began the handler -/
  trapped : Option Nat := none
  saved1 : Option SavedSet := none
  m15save : LaneMask := 0
  cycle : Nat := 0
  rtimer : Word := 0
  wdl : Nat := 0
  wdlLo : Word := 0
  rcount : Word := 0
  regpc : Word := 0
  psig : Dword := 0
  sticky : Word := 0
  stoch : Word := 1
  perf : Nat := 0
  region : Option Region := none
  poison : List (RFile × Nat × Nat) := []
  async : List Nat := []
  loop : List LoopEnt := []
  grid : Option GridSt := none
  residence : Residence := .resident
  arrived : Option Nat := none
  rotCount : Nat := 0
  /-- R297: rotations that are due -/
  rotDue : Nat := 0
  unset : List Unset := []
  awaits : List Await := []
  priv : List (Nat × Byte) := []
  placedAt : Nat := 0
  /-- R47, R169, R337, R352: in the present cycle of its core, the slot that has issued last and the STICKY flags that events
  have set -/
  lastSlot : Option Nat := none
  raised : Word := 0
  /-- R401: a trap that stopped the team for the debugger: split, code, detail, lanes, SKIP, EPC -/
  stopTrap : Option (Nat × Nat × Nat × LaneMask × Bool × Word) := none
  deriving DecidableEq, Repr

/-! ### Accesses in flight (R125, R78) -/

/-- One lane of a line request: its byte offset in the line, what it writes or combines, what came back. -/
structure LaneAcc where
  lane : Nat
  off : Nat
  data : Nat := 0
  cmp : Nat := 0
  result : Nat := 0
  poison : Bool := false
  deriving DecidableEq, Repr

/-- R273: an agent of the memory model: a split by its core, group, team and number, the engines of a group by their core,
another agent of the device, and what asks over the link, by its number and its flag PLAT (R383). -/
inductive Agent where
  | split (core group team split : Nat)
  | engine (core group : Nat)
  | device
  | host (id : Nat) (plat : Bool)
  deriving DecidableEq, Repr

/-- Where a line request stands: its translation is missing, it waits to be performed, its store stands in the issuing
core's L1 copy and not yet at the SLC (R281, R282), it has been performed. -/
inductive ReqSt where
  | parked | ready | seen | done
  deriving DecidableEq, Repr

/-- R78: one request for one line. For a global line `va` is the virtual line, `line` the physical one, `pte` the leaf
whose D bit it sets; `gen` the translation generation it carries (R93). -/
structure LineReq where
  space : Space
  va : Nat := 0
  line : Nat
  cc : Nat := 0
  lanes : List LaneAcc
  st : ReqSt := .ready
  pte : Option Nat := none
  gen : Nat := 0
  /-- R274, R277: it has been performed ahead of an acquire that has not been -/
  early : Bool := false
  /-- the agents that may know of a write that it has missed since: the writers, and who has acquired from them -/
  heard : List Agent := []
  /-- R276: the order in which the core's L1 copies took the stores that the SLC has not performed -/
  mark : Nat := 0
  deriving DecidableEq, Repr

/-- What an access does. The atomic operation and ETYPE are coded as R144 codes them; the load's second field is R38's
W; an ARM registers its line (R150); CMAINT keeps its operation, extent and scope (R104). -/
inductive AccKind where
  | load (w : Nat)
  | loadMask
  | loadRec
  | store
  | atomic (op etype : Nat)
  | atagg (etype : Nat)
  | arm
  | cmaint (opn extent scope : Nat)
  /-- R319: a 64-bit add to the node's join counter -/
  | jcadd (value : Nat)
  /-- R272: SAMP's texels -/
  | samp
  deriving DecidableEq, Repr

/-- R125: an access that has issued and not returned, in issue order. `dst` is the register written at return. -/
structure Flight where
  id : Nat
  team : Nat
  split : Nat
  /-- the core that issued it, and the team's group -/
  core : Nat := 0
  group : Nat := 0
  path : Nat
  kind : AccKind
  n : Nat
  order : Nat := 0
  scope : Nat := 0
  dst : Option (RFile × Nat) := none
  zero : List Nat := []
  /-- per lane, what the result needs beside memory: ATAGG's contributions, SAMP's pixels -/
  contrib : List (Nat × Nat) := []
  aux : List Word := []
  lanes : LaneMask := 0
  reqs : List LineReq := []
  held : Bool := false
  returned : Bool := false
  pc : Word := 0
  /-- R359: the REC field; R138: the access is uniform -/
  recNo : Nat := 0
  uniform : Bool := false
  /-- R279: the loads whose results the issuing split has read before they returned -/
  after : List Nat := []
  deriving DecidableEq, Repr

/-! ### Caches and translation (R84, R88, R97, R99, R100) -/

/-- R14, R97: a line of the L1 or the L2: its physical line number, its class, a bit per 16-byte sector for present,
dirty and poisoned, and its bytes. -/
structure CacheLine where
  line : Nat
  cc : Nat
  valid : BitVec 4 := 0
  dirty : BitVec 4 := 0
  poison : BitVec 4 := 0
  data : LineBits := 0
  deriving DecidableEq, Repr

/-- R14, R97: a line of the SLC: the sectors it holds, and those that main memory does not hold yet. The bytes are those
of State.mem (log 14). -/
structure SlcLine where
  line : Nat
  valid : BitVec 4 := 0
  dirty : BitVec 4 := 0
  deriving DecidableEq, Repr

/-- R101: who waits for its turn at a line's SLC slice: an access in flight, a request of the host, an add to a join
counter, a trace record, a unit of an engine's command, or a request that arrives when nothing waits. -/
inductive Asker where
  | passing
  | flight (id : Nat)
  | host (id : Nat)
  | join (id : Nat)
  | ring (id : Nat)
  | unit (group sel n : Nat)
  deriving DecidableEq, Repr

/-- R383: a request of the host that has arrived and waits. -/
inductive HostReq where
  | read (e : EvHostRead) (own : Bool)
  | write (e : EvHostWrite)
  | atomic (e : EvHostAtomic)
  deriving DecidableEq, Repr

/-- R102: a line of fetched code, tagged by ASID and virtual line. -/
structure ILine where
  asid : Nat
  line : Nat
  data : LineBits
  /-- R97: the 16-byte sectors that hold uncorrectable data -/
  bad : BitVec 4 := 0
  /-- R93: it came from a global page -/
  glob : Bool := false
  /-- the physical line that it was read from -/
  pline : Nat := 0
  deriving DecidableEq, Repr

/-- R84, R88: a TLB entry: the ASID it was loaded for, the first virtual 4 KiB page it covers, log2 of how many, the
first frame, the attributes of the leaf, and the leaf's address. -/
structure TlbEntry where
  asid : Nat
  vpn : Nat
  lg : Nat
  pfn : Nat
  global : Bool
  owner : Nat
  dirty : Bool
  cc : Nat
  u : Bool
  x : Bool
  w : Bool
  r : Bool
  pte : Nat
  /-- R88: the L2 TLB slice that holds it -/
  slice : Nat := 0
  /-- R393: no entry of a TLB, but a walk that met a frame of another key -/
  alien : Bool := false
  deriving DecidableEq, Repr

/-- R100: the host's copy of a line. -/
inductive HostSt where
  | i | s | m
  deriving DecidableEq, Repr
/-- R100: the directory entry of a line. -/
structure DirEntry where
  host : HostSt := .i
  /-- the host agent that owns the line where HOST = M -/
  owner : Nat := 0
  cores : BitVec 16 := 0
  deriving DecidableEq, Repr

/-- R93: an invalidation not yet acknowledged: what it names and the generation it waits for. -/
structure PendInv where
  kind : InvKind
  gen : Nat
  deriving DecidableEq, Repr

/-! ### Main memory banks (R62 to R67) -/

/-- R62: a promotion slot. -/
structure PSlot where
  pin : Bool
  dirty : Bool
  frow : Nat
  stamp : Nat
  deriving DecidableEq, Repr
/-- R61: the subchannel of a line and a byte's column in its row. -/
structure RowCell where
  sub : Nat
  col : Nat
  deriving DecidableEq, Repr
/-- R64: a request at a bank: a PROMOTE or DEMOTE of a row, for a team's register, or an ordinary access; one that fills
or writes back a line of the SLC names where in the row it lies, the line and its sectors. -/
inductive BankReq where
  | promote (row : Nat) (pin : Bool) (tok : Nat) (team : Nat)
  | demote (row : Nat) (tok : Nat) (team : Nat)
  | access (row : Nat) (write : Bool) (line : Option (RowCell × Nat × List Nat))
  deriving DecidableEq, Repr
/-- R64, R65: the segment operation a bank is running. -/
inductive SegOp where
  /-- a victim is written back; the promotion then copies its row -/
  | evictWb (slot row : Nat) (pin : Bool) (tok team : Nat)
  | copy (slot row : Nat) (pin : Bool) (status : Nat) (tok team : Nat)
  | demoteWb (slot : Nat) (tok team : Nat)
  deriving DecidableEq, Repr
/-- R62, R64, R65: the controller state of one bank. -/
structure Bank where
  slots : List (Nat × PSlot) := []
  queue : List BankReq := []
  running : Option SegOp := none
  refreshDue : Bool := false
  /-- R55: refresh management: the activations of each row since the bank's last refresh -/
  acts : List (Nat × Nat) := []
  deriving DecidableEq, Repr

/-! ### Contexts and nodes (R316 to R330, R385) -/

/-- R385: a context. -/
structure Ctxt where
  asid : Nat
  root : Nat
  mask : BitVec 16
  defaultReq : Nat
  ceiling : Nat
  loftBase : Nat
  loftSize : Nat
  evictBase : Nat
  evictSize : Nat
  shadow : Nat
  tdi : Option Nat
  /-- its partition is halted (R378) -/
  halted : Bool := false
  /-- its partition's image lies in the shadow region (R380) -/
  swapped : Bool := false
  deriving DecidableEq, Repr

/-- R321: a role entry. -/
structure RoleEnt where
  entry : Word
  trapv : Word
  logT : Nat
  regs : Nat
  count : Nat
  lanes : Nat
  deriving DecidableEq, Repr

/-- R320: the fields of a launch header. -/
structure Header where
  urgent : Bool
  yard : Bool
  region : Bool
  trapDepth : Bool
  idem : Bool
  widths : List Nat
  exts : List Nat
  ws : Nat
  xb : Nat
  privBytes : Nat
  accSlots : Nat
  spill : Nat
  pwr : Nat
  prio : Nat
  retry : Nat
  loftReq : Nat
  jca : Nat
  roles : List RoleEnt
  records : List BufRec
  param : Option (List Word)
  tiles : List (Nat × Nat × Nat)
  kind : Nat
  maxd : Nat
  codeBase : Nat
  deriving DecidableEq, Repr

/-- R325: a pending record: its eight words and its depth. -/
structure RecordEnt where
  words : List Word
  depth : Nat
  deriving DecidableEq, Repr

/-- R316, R324: a node of the ready pool. `handle` is pool entry plus 4,096 times the generation. -/
structure Node where
  id : Nat
  handle : Nat
  asid : Nat
  hdrAddr : Nat
  spawned : Bool
  args : List Word := []
  argAddr : Nat := 0
  jcaSpawn : Nat := 0
  bad : Bool := false
  preds : List Nat := []
  /-- a predecessor failed or was cancelled -/
  cancelled : Bool := false
  header : Option Header := none
  argBlock : Option (List Word) := none
  nextGroup : Nat := 0
  /-- killed groups to place again: γ, relaunch count, words, depth -/
  again : List (Nat × Nat × List Word × Nat) := []
  records : List RecordEnt := []
  live : Nat := 0
  staged : Bool := false
  deriving DecidableEq, Repr

/-- R318: an add to a join counter on its way to the SLC; `flight` is the JCADD that raised a counter. -/
structure JcAdd where
  id : Nat
  asid : Nat
  addr : Nat
  value : Nat
  parked : Bool := false
  deriving DecidableEq, Repr

/-! ### Power (R335 to R349) -/

/-- R346 to R349, R341: the governor, the ladder and the token pool. -/
structure Gov where
  threshold : Nat := 786432
  powerPool : Nat := 64
  powerCeil : Nat := 7
  rung3 : Option Nat := none
  rung4 : Option Nat := none
  step : Nat := 0
  rscale : Nat := 128
  planes : Nat := 8
  entered : List (Nat × Nat) := []
  missing : Nat := 0
  limit : Int := 40000
  hysteresis : Nat := 1000
  grace : Nat := 2000000000
  interval : Nat := 100000000
  /-- R346: when the last interval was -/
  sampled : Option Nat := none
  /-- R395: the firmware threshold of corrected SRAM errors and the time it counts them over, in ns -/
  sramLimit : Nat := 64
  sramSpan : Nat := 86400000000000
  pmax : Nat := 160
  pool : Nat := 64
  free : Nat := 64
  /-- teams waiting for tokens, the head first -/
  queue : List Nat := []
  deriving DecidableEq, Repr

/-- R343: what follows a droop trigger. -/
inductive Droop where
  | none
  | stretched (left : Nat)
  | halved (left : Nat)
  deriving DecidableEq, Repr

/-- R344: a bay: gated, waking or awake, its cycles without issue, the next PC of the split that last issued on it. -/
inductive Gate where
  | awake
  | gated
  | waking (left : Nat)
  deriving DecidableEq, Repr
structure Bay where
  gate : Gate := .awake
  idle : Nat := 0
  /-- how many cycles it has been needed while not awake -/
  need : Nat := 0
  /-- the team, split and next PC of what last issued here (R397) -/
  last : Option (Nat × Nat × Word) := none
  /-- R331, R343: a pass has issued here in this cycle, and in the one before -/
  used : Bool := false
  prev : Bool := false
  /-- R397: this cycle's pass stands in the lane-cycle record -/
  counted : Bool := false
  deriving DecidableEq, Repr

/-- R292, R338, R397: a pass of an instruction that has not issued on its bay: the team and split, the bay (0 to 15), whether
it follows the instruction's pass before it at once, its charge, the PC, the next PC, and the lanes it counts as ACTIVE,
DIVERGED, GUARDED and ABSENT, where the record may show it. -/
structure Pass where
  team : Nat
  split : Nat
  bay : Nat
  sync : Bool
  charge : Nat
  pc : Word
  next : Word
  lanes : List Nat
  shown : Bool
  /-- R212: it is held while its quad is gridded -/
  vec : Bool := false
  deriving DecidableEq, Repr

/-- R311, R313: a quad: the team and split of each waiting CLAIM, in order. -/
structure Quad where
  claims : List (Nat × Nat) := []
  /-- R339: the clocks for which its gridded cells still compute -/
  clocks : Nat := 0
  deriving DecidableEq, Repr

/-- R345: a core's power. -/
inductive CorePower where
  | dark | waking | on | gated
  deriving DecidableEq, Repr

/-- R397: the lane-cycle record: base, shift, and counter 5b + k of bin b. -/
structure Lcr where
  base : Word := 0
  shift : Nat := 0
  counts : List (Nat × Dword) := []
  /-- what the present cycle has counted -/
  now : List (Nat × Dword) := []
  deriving DecidableEq, Repr

/-! ### The host side (R382 to R395) -/

/-- R387: who a fault message speaks for. -/
inductive FaultSrc where
  | split (team split : Nat)
  | engine (group sel n : Nat)
  | ray
  | joinAdd (id : Nat)
  deriving DecidableEq, Repr

/-- R387: a fault to report: its address, path, whether it writes, the source word. -/
structure FaultMsg where
  src : FaultSrc
  asid : Nat
  va : Nat
  path : Nat
  write : Bool
  word : Word
  deriving DecidableEq, Repr

/-- R387, R388: a ticket in use. -/
inductive TicketUse where
  | fault (f : FaultMsg)
  | team (team : Nat) (reply : Option EvReply)
  deriving DecidableEq, Repr

/-- R382 to R395, R369: a message or completion the device sends to the host. -/
inductive Msg where
  | fault (ticket : Nat) (asid gen va path : Nat) (write : Bool) (source : Word)
  | team (ticket : Nat) (asid : Nat) (source pc : Word) (payload : List Word)
  | groupError (asid handle gamma : Nat) (cause : Word)
  | memData (status : Nat) (data : List Byte) (poison : List Nat)
  | memDone (status : Nat)
  | snoop (line : Nat) (drop : Bool)
  | invAck (gen : Nat)
  | cleanDone (frames : List Nat)
  | spawnDone (status : Nat)
  | ctxDone (asid : Nat) (ok : Bool)
  | ctxEvent (core : Nat)
  | jcaError (asid : Nat)
  | measurements (body : List Nat) (signature : List Byte)
  | report (tdi asid bar0 bar2 : Nat) (mask : BitVec 16) (loftBase loftSize : Nat)
  | tdispDone (tdi : Nat) (ok : Bool)
  deriving DecidableEq, Repr

/-- R394: the TDISP states. -/
inductive TdiState where
  | unlocked | locked | run | error
  deriving DecidableEq, Repr
/-- R392 to R394: a TDI: its state, the ASID and the key slot of the context bound to it, its BARs and command register, whether
its key slot is loaded, and whether IDE protects its link. -/
structure Tdi where
  st : TdiState := .unlocked
  asid : Option Nat := none
  bar0 : Nat := 0
  bar2 : Nat := 0
  command : Nat := 0
  keySlot : Option Nat := none
  loaded : Bool := false
  ideKey : Bool := false
  deriving DecidableEq, Repr

/-- R389 to R391: Fjobotur and the firmware window. -/
structure Boot where
  state : Nat := 0
  err : Nat := 0
  chan : Nat := 0
  retired : BitVec 16 := 0
  minSvn : Nat := 0
  modules : BitVec 4 := 15
  fwlen : Word := 0
  image : List (Nat × Byte) := []
  /-- the running firmware's digest and SVN, once verified -/
  firmware : Option (BitVec 256 × Nat) := none
  /-- the next core to power up at boot (R345) -/
  nextCore : Nat := 0
  deriving DecidableEq, Repr

/-- R396: the debug window. -/
structure Dbg where
  asid : Nat := 0
  haltdbg : Bool := false
  sigrec : Bool := false
  lcren : Bool := false
  stopreq : Bool := false
  ringBase : Nat := 0
  ringSize : Nat := 0
  ringWp : Nat := 0
  ringRp : Nat := 0
  /-- R399: the records on their way to the SLC: the identifier, the team and split, the words -/
  ringQ : List (Nat × (Nat × Nat) × List Nat) := []
  drops : Nat := 0
  btnode : Word := 0
  btgrp : Word := 0
  bten : Bool := false
  btser : Nat := 0
  bp : List (Nat × Dword) := []
  bpen : BitVec 8 := 0
  wp : List (Nat × Dword) := []
  wpctl : List (Nat × Word) := []
  deriving DecidableEq, Repr

/-! ### Yards (R111 to R114) -/

/-- R113: a member: its index, its group, whether it is leaving. -/
structure YMember where
  idx : Nat
  group : Nat
  leaving : Bool := false
  /-- the mark: what has an identifier above it was accepted later -/
  since : Nat := 0
  deriving DecidableEq, Repr
/-- R113: a YJOIN waiting at the yard's home: the group, the team and the register result it owes. -/
structure YWait where
  group : Nat
  team : Nat
  tok : Nat
  deriving DecidableEq, Repr
structure Yard where
  asid : Nat
  key : Nat
  members : List YMember := []
  waiting : List YWait := []
  deriving DecidableEq, Repr

/-! ### Engine contexts (R116 to R132, R226, R243, R263) -/

/-- What a queued command does. -/
inductive CmdOp where
  | copy | copy2d | gather | scatter | coll
  | mloop | mlda | msta | macc
  | trace | rres | tpload
  | rast
  deriving DecidableEq, Repr

/-- Where a queued command stands (R120, R122, R131). -/
inductive CmdSt where
  | queued | started | parked | done | failed
  deriving DecidableEq, Repr

/-- An accepted command of an engine context: its number, the issuing team and split, the captured block, the b
registers at issue, guard slot and barrier word, the first access identifier that is not earlier than it, the matrix
descriptors and format word, the captured rays, and how far it has come. -/
structure EngCmd where
  n : Nat
  op : CmdOp
  team : Nat
  tword : Word
  core : Nat := 0
  block : List Word
  recs : List (Nat × BufRec) := []
  gs : Nat := 0
  bar : Word := 0
  before : Nat := 0
  /-- R241: its place in the order of acceptance over the group's matrix contexts -/
  seq : Nat := 0
  desc : Word := 0
  desc2 : Word := 0
  fmt : Word := 0
  rays : List (Nat × List Word) := []
  st : CmdSt := .queued
  progress : Nat := 0
  moved : Nat := 0
  /-- R118, R120: the bytes it has written, with what they held before; R118, R119: the units read and not yet written, by member and destination offset -/
  buf : List (Space × Nat × Byte) := []
  pend : List (Nat × Nat × Word) := []
  /-- the index list of GATHER and SCATTER -/
  idx : List Nat := []
  /-- R113: the yard members it targets -/
  yard : List Nat := []
  /-- R121: the line a parked command waits for -/
  va : Nat := 0
  /-- R129, R229: a corrected error has occurred in its operands, cells or accumulators -/
  ce : Bool := false
  /-- R286: the units its next step has read -/
  ahead : List Ahead := []
  /-- R124: what its guard slot held when it stood at the queue head -/
  ruled : Option Bool := none
  /-- R131: the code it failed with -/
  code : Nat := 0
  /-- R132: how many of its rays a retry launches again -/
  again : Nat := 0
  deriving DecidableEq, Repr

/-- R116, R122: an engine context of a group: the commands not yet counted into C, the last accepted number, C, and the
code that halted it. -/
structure EngCtx where
  cmds : List EngCmd := []
  accepted : Nat := 0
  c : Nat := 0
  halted : Option Nat := none
  deriving DecidableEq, Repr

/-- R250: a ray the engine holds: its command and lane, where its record lies, its 32 record words, its node buffer and
the node the buffer holds. -/
structure Ray where
  n : Nat
  lane : Nat
  space : Space
  addr : Nat
  words : List Word
  buf : List (Nat × Byte) := []
  bufNode : Option Nat := none
  resume : Bool := false
  started : Bool := false
  /-- R257: the parts of the node it reads next that have been read, and the parts of its record that have been written -/
  ahead : List Ahead := []
  parts : List Nat := []
  /-- the record it ends with, once parts of it have been written -/
  final : List Word := []
  deriving DecidableEq, Repr

/-- R254: a traversal program in one of a core's slots. -/
structure TProg where
  asid : Nat
  pid : Nat
  layouts : List Dword
  ops : List Word
  deriving DecidableEq, Repr

/-- R271: a shading-rate map. -/
structure RateMap where
  tw : Nat
  th : Nat
  codes : List Nat
  deriving DecidableEq, Repr

/-- R263, R271: a group's rasteriser context beside its queue: the map in force, the staged map with the register
results it owes, and LSEQ. -/
structure RastCtx where
  map : Option RateMap := none
  staged : Option (RateMap × List (Nat × Nat)) := none
  lseq : Nat := 0
  deriving DecidableEq, Repr

/-- R264: a group's atlas context. `list` is the operand word with the records captured for it; `keys` the keys of the
pass with their request numbers. -/
structure AtlasCtx where
  list : Option (Word × List (Nat × BufRec)) := none
  count : Nat := 0
  next : Nat := 0
  doneSet : List Nat := []
  generating : Bool := false
  keys : List (List Nat × Nat) := []
  deriving DecidableEq, Repr

/-- R124: the value of a guard slot. -/
inductive GuardSt where
  | pending | yes | no
  deriving DecidableEq, Repr

/-- R20, R108, R214: a group. -/
structure Group where
  id : Nat
  node : Nat
  asid : Nat
  gamma : Nat := 0
  core : Nat := 0
  ws : Nat := 256
  xb : Nat := 0
  privBytes : Nat := 0
  spill : Nat := 24
  accSlots : Nat := 1
  win : List (Nat × Byte) := []
  acc : List (Nat × Word) := []
  inv : List Nat := []
  bars : List (Nat × (Nat × Nat)) := []
  guards : List (Nat × GuardSt) := []
  engs : List (Nat × EngCtx) := []
  rays : List Ray := []
  rayEnded : Nat := 0
  rast : RastCtx := {}
  atlas : AtlasCtx := {}
  depth : Nat := 0
  words : List Word := []
  relaunch : Nat := 0
  cls : Nat := 2
  idem : Bool := false
  yardOk : Bool := false
  trapDepth : Bool := false
  /-- R113: the YLEAVEs that wait: team and register result -/
  leavingYard : List (Nat × Nat) := []
  /-- no team has ended and no accumulator, window or context has left the core -/
  evicted : Bool := false
  codeBase : Nat := 0
  widths : List Nat := []
  exts : List Nat := []
  perTeams : Nat := 1
  placedAt : Nat := 0
  /-- R378: its image lies in the shadow region of a context, as that of the context's core of some index -/
  region : Option (Nat × Nat) := none
  deriving DecidableEq, Repr

/-- R376, R380: the group is on its core: not evicted, and not in a shadow region. -/
def Group.here (g : Group) : Bool := !g.evicted && g.region.isNone

/-! ### The core and the device -/

/-- R12: what a core holds beside its teams and groups. -/
structure Core where
  id : Nat
  power : CorePower := .dark
  level : Nat := 0
  moving : Option Nat := none
  cycle : Nat := 0
  charges : List (Nat × Nat) := []
  threshold : Nat := 786432
  droop : Droop := .none
  l1 : List CacheLine := []
  icache : List ILine := []
  tlb : List TlbEntry := []
  bays : List (Nat × Bay) := []
  quads : List (Nat × Quad) := []
  /-- R292: the passes of issued instructions that their bays have not issued yet, in order -/
  passes : List Pass := []
  programs : List (Nat × TProg) := []
  programSeq : List Nat := []
  idleNs : Nat := 0
  lcr : Lcr := {}
  /-- R395: when its SRAM arrays had a corrected error -/
  sramErrors : List Nat := []
  /-- R16, R395: it has failed self-test -/
  failed : Bool := false
  /-- R336: its target fell below its level because a ceiling fell, before the group with this identifier -/
  fell : Option Nat := none
  deriving DecidableEq, Repr

/-- An error that a layer of protection finds (log 28). -/
inductive HwError where
  /-- R71: a corrected error of a channel of main memory -/
  | channel (ch : Nat)
  /-- R395: a corrected error in an SRAM array of a core -/
  | sram (core : Nat)
  /-- R16, R395: a core fails self-test -/
  | selfTest (core : Nat)
  /-- R129, R229: a corrected error in an operand, a cell or an accumulator of a command -/
  | command (group sel n : Nat)
  /-- R230: an uncorrectable error in a cell or an accumulator of a matrix command -/
  | cell (group sel n : Nat)
  /-- R363, R370: an uncorrectable error in control state of a group or of a team of it -/
  | control (group : Nat)
  /-- R97: an uncorrectable error in a sector of a cache: none names the L2, a core its L1 -/
  | cache (core : Option Nat) (line k : Nat)
  /-- R97: an uncorrectable error in a sector of a line of a core's instruction cache -/
  | code (core asid line k : Nat)
  /-- R97: an uncorrectable error in an instruction of a team's loop buffer -/
  | loop (team va : Nat)
  /-- R71: an error on the link to a package, in the transfer of a sector, that was still there after some repeats -/
  | link (sector repeats : Nat)
  deriving DecidableEq, Repr

/-- The agents' order (log 2): what happens next. -/
inductive Turn where
  /-- the split issues its next instruction -/
  | issue (team split : Nat)
  /-- the device, the host or the platform does this -/
  | event (i : Instr)
  /-- the outstanding arithmetic results of a split are written (R40) -/
  | settle (team split : Nat)
  /-- a queued add to a join counter is performed (R318) -/
  | joinAdd (id : Nat)
  /-- a trace record reaches the SLC (R399) -/
  | ring (id : Nat)
  /-- a bay issues a pass of an instruction that another bay has begun -/
  | pass (core bay : Nat)
  /-- a core goes on to its next cycle -/
  | cycle (core : Nat)
  /-- platform time passes, in ns (R334) -/
  | time (ns : Nat)
  /-- a store stands in the issuing core's L1 copy of a line before it reaches the SLC (R281) -/
  | see (flight line : Nat)
  /-- a command reads 4 bytes at an address of a level ahead of the step that uses them (R286) -/
  | engineRead (group sel n level addr : Nat)
  /-- a ray reads a 16-byte part of the node it loads next, and writes a 16-byte part of its record (R257) -/
  | nodeRead (group n lane part : Nat)
  | recordPart (group n lane part : Nat)
  /-- a running MXV or RBOX reads 16 bytes ahead of its end (R286) -/
  | splitRead (team split level addr : Nat)
  /-- a cache drops a line, writing back what is dirty: none names the L2, a core its L1 (R97) -/
  | evictLine (core : Option Nat) (line : Nat)
  /-- a TLB or instruction-cache entry is replaced (R88, R97) -/
  | evictTlb (core : Option Nat) (asid vpn : Nat)
  | evictCode (core asid line : Nat)
  /-- a team's loop buffer drops an instruction (R97) -/
  | evictLoop (team va : Nat)
  /-- the SLC evicts a line (R100) -/
  | evictSlc (line : Nat)
  /-- a request of the host that waits is tried again (R101) -/
  | host (id : Nat)
  /-- an uncorrectable error poisons a sector (R71) -/
  | poison (space : Space) (sector : Nat)
  /-- another error is found (R71, R97, R229, R230, R370, R395) -/
  | error (e : HwError)
  deriving DecidableEq, Repr

/-- The machine. -/
structure State where
  /-- R59: main memory and the SLC above it, as bytes by physical address -/
  mem : List Host.Cell := []
  loft : List (Nat × Byte) := []
  poisoned : List (Space × Nat) := []
  /-- R71: corrected errors, per channel -/
  chErrors : List (Nat × Nat) := []
  rows : Nat := 65536
  slotsS : Nat := 512
  /-- R58: S is fixed until reset, and the near aperture is exposed -/
  slotsFixed : Bool := false
  /-- R55 -/
  selfRefresh : Bool := false
  banks : List (Nat × Bank) := []
  l2 : List CacheLine := []
  slc : List SlcLine := []
  /-- R101: the requests that wait at a line, in the order they arrived -/
  slcQ : List (Nat × Asker) := []
  hostQ : List (Nat × HostReq) := []
  dir : List (Nat × DirEntry) := []
  recalls : List (Nat × Bool) := []
  l1Invs : List (Nat × Nat) := []
  monRegs : List (Nat × Nat × Nat × Nat) := []
  l2Tlb : List TlbEntry := []
  gen : Nat := 0
  invs : List PendInv := []
  cleans : List (List Nat) := []
  /-- R330: the staged lines: node, line, place in the loft in lines -/
  staged : List (Nat × Nat × Nat) := []
  yards : List Yard := []
  ctxs : List Ctxt := []
  nodes : List Node := []
  entryGens : List (Nat × Nat) := []
  jcAdds : List JcAdd := []
  groups : List Group := []
  teams : List Team := []
  cores : List Core := []
  flights : List Flight := []
  gov : Gov := {}
  drpthr : Nat := 6
  tickets : List (Nat × TicketUse) := []
  faultQ : List FaultMsg := []
  rpcQ : List (Nat × Nat) := []
  outbox : List Msg := []
  time : Nat := 0
  boot : Boot := {}
  tdis : List (Nat × Tdi) := []
  frameOwner : List (Nat × Nat) := []
  dbg : Dbg := {}
  /-- the model's own: the agents' order, the issuing split, the free-value counter, fresh identifiers -/
  agenda : List Turn := []
  cur : Option (Nat × Nat) := none
  nonce : Nat := 0
  nextId : Nat := 1
  deriving DecidableEq, Repr

/-- R62, R389: the machine right after reset: nothing runs, the cores are dark, no memory is listed, and every
register has its stated value or the one its log entry names (logs 1, 3, 4, 5). -/
def State.reset : State :=
  { cores := (List.range 16).map fun i => { id := i } }

end Sys2Proof.Machine
end

