-- ==== Sys2Proof/Machine/Banks.lean ====
section
/-!
DEFINITION. Main memory's address map (R56 to R61), its banks (R62 to R66), the sectors of the SLC and the bank requests
that fill and write them back (R13, R14, R64, R97, R98).
-/
namespace Sys2Proof.Machine

/-! ### The physical address map (R56, R59, R61) -/

/-- R59: F, the far capacity in bytes. -/
def State.farBytes (s : State) : Nat := 48 * 16 * (s.rows - s.rows / 16) * 4096
/-- R59: P, the near aperture in bytes. -/
def State.nearBytes (s : State) : Nat := 48 * 16 * (s.rows / 16 - s.slotsS) * 4096

/-- R58, R59: what a physical address reaches; the near aperture is exposed once S is fixed (log 15): a far index, an aperture offset, nothing. -/
inductive Backing where
  | far (x : Nat)
  | near (x : Nat)
  | unbacked
  deriving DecidableEq, Repr

def State.backing (s : State) (pa : Nat) : Backing :=
  if pa < min s.farBytes (2 ^ 38) then .far pa
  else if s.slotsFixed ∧ 2 ^ 38 ≤ pa ∧ pa < 2 ^ 38 + s.nearBytes then .near (pa - 2 ^ 38)
  else if 5 * 2 ^ 36 ≤ pa ∧ pa < 5 * 2 ^ 36 + (s.farBytes - 2 ^ 38) then .far (2 ^ 38 + (pa - 5 * 2 ^ 36))
  else .unbacked

def State.backed (s : State) (pa : Nat) : Bool := decide (s.backing pa ≠ .unbacked)

/-- R61: channel, bank and row of an index; `base` is the first row of its part of the bank. -/
def locateRow (base x : Nat) : Nat × Nat × Nat :=
  let f := x / 4096
  let q := f / 48
  (f % 48, Nat.xor (q % 16) (q / 16 % 16), base + q / 16)

/-- R61: channel, bank, row of a physical address. -/
def State.locate (s : State) (pa : Nat) : Option (Nat × Nat × Nat) :=
  match s.backing pa with
  | .far x => some (locateRow 0 x)
  | .near x => some (locateRow (s.rows - s.rows / 16 + s.slotsS) x)
  | .unbacked => none

/-- R61: the subchannel and the column of an index. -/
def cellAt (x : Nat) : RowCell := ⟨x / 64 % 2, x % 4096⟩
def State.cellOf (s : State) (pa : Nat) : RowCell :=
  match s.backing pa with
  | .far x | .near x => cellAt x
  | .unbacked => ⟨0, 0⟩

/-- R98: the SLC slice of a physical line. -/
def State.slcSlice (s : State) (line : Nat) : Nat :=
  match s.locate (line * 64) with | some (ch, _, _) => ch / 3 | none => 0
/-- R98: the L2 slice of a physical line: the XOR of its ten fields of four bits from PA[9:6] on. -/
def l2Slice (line : Nat) : Nat := (List.range 10).foldl (fun a k => Nat.xor a (line / 16 ^ k % 16)) 0

/-! ### Banks (R62 to R66) -/

def State.bank (s : State) (k : Nat) : Bank := sget {} s.banks k
/-- What a bank does takes memory out of self-refresh (R55). -/
def State.putBank (s : State) (k : Nat) (b : Bank) : State := { s with banks := sset {} s.banks k b, selfRefresh := false }

/-- A slot entry among the valid ones, in slot order. -/
def putSlot (l : List (Nat × PSlot)) (k : Nat) (x : PSlot) : List (Nat × PSlot) :=
  l.filter (fun q => decide (q.1 < k)) ++ [(k, x)] ++ l.filter (fun q => decide (k < q.1))
def dropSlot (l : List (Nat × PSlot)) (k : Nat) : List (Nat × PSlot) := l.filter fun q => q.1 ≠ k
/-- The slot that holds a far row. -/
def Bank.slotOf (b : Bank) (row : Nat) : Option (Nat × PSlot) := b.slots.find? fun q => decide (q.2.frow = row)

/-- R66: the slot a promotion gets: free or a victim. -/
def Bank.choose (b : Bank) (n : Nat) : Option (Nat × Option PSlot) :=
  match (List.range n).find? fun k => !(b.slots.any fun q => decide (q.1 = k)) with
  | some k => some (k, none)
  | none =>
    match b.slots.filter fun q => !q.2.pin with
    | [] => none
    | q :: qs =>
      let v := qs.foldl (fun (a : Nat × PSlot) x => if x.2.stamp < a.2.stamp then x else a) q
      some (v.1, some v.2)

/-- R55: a row is activated once more. -/
def Bank.activate (b : Bank) (row : Nat) : Bank := { b with acts := sset 0 b.acts row (sget 0 b.acts row + 1) }
/-- R57, R58: the DRAM row of a slot. -/
def State.slotRow (s : State) (k : Nat) : Nat := s.rows - s.rows / 16 + k
/-- R55: a segment copy between a far row and a slot activates both rows. -/
def State.segmentActs (s : State) (b : Bank) (row slot : Nat) : Bank := (b.activate row).activate (s.slotRow slot)

/-- R63, R64: an access is served from the slot that holds its row, or from the row; a write that reaches a near copy
marks it. -/
def State.serveBank (s : State) (b : Bank) (row : Nat) (write : Bool) : Bank :=
  let b := b.activate (match b.slotOf row with | some (k, _) => s.slotRow k | none => row)
  if write then { b with slots := b.slots.map fun q => if q.2.frow = row then (q.1, { q.2 with dirty := true }) else q } else b

/-- R64: a request for sectors of a line reaches its bank: with nothing before it it is served at once, otherwise it takes
its place in the queue. A fill that waits there already is not asked for twice; every write takes its own place. The Bool
says that it has been served. -/
def State.bankAsk (s : State) (line : Nat) (ks : List Nat) (write : Bool) : State × Bool :=
  match s.locate (line * 64) with
  | none => (s, true)
  | some (ch, b, row) =>
    let k := ch * 16 + b
    let x := s.bank k
    let r : BankReq := .access row write (some (s.cellOf (line * 64), line, ks))
    if x.running = none ∧ x.queue = [] then (s.putBank k (s.serveBank x row write), true)
    else if !write && x.queue.contains r then (s, false)
    else (s.putBank k { x with queue := x.queue ++ [r] }, false)

/-! ### The directory's entries (R100) -/

def State.dirOf (s : State) (line : Nat) : DirEntry := sget {} s.dir line
def State.setDir (s : State) (line : Nat) (d : DirEntry) : State := { s with dir := sset {} s.dir line d }

/-- R100: the host is asked for its copy of a line; `drop` takes the copy away. -/
def State.recall (s : State) (line : Nat) (drop : Bool) : State :=
  if s.recalls.any (fun r => decide (r.1 = line)) then s
  else { s with recalls := s.recalls ++ [(line, drop)], outbox := s.outbox ++ [.snoop line drop] }
/-- R100: cores are asked to drop their L1 copies of a line. -/
def State.invalidate (s : State) (line : Nat) (cores : List Nat) : State :=
  { s with l1Invs := s.l1Invs ++ (cores.filter fun c => !(s.l1Invs.contains (c, line))).map fun c => (c, line) }

/-! ### Arrival order at a line (R101) -/

/-- R101: what waits at a line still wants it. -/
def State.claimLive (s : State) (q : Nat × Asker) : Bool :=
  match q.2 with
  | .passing => false
  | .flight i => s.flights.any fun f => decide (f.id = i) && !f.held && f.reqs.any fun r =>
      decide (r.st = .ready ∨ r.st = .seen) && decide (r.space = .glob) && decide (r.line = q.1)
  | .host i => s.hostQ.any fun h => decide (h.1 = i)
  | .join i => s.jcAdds.any fun a => decide (a.id = i) && !a.parked
  | .ring i => s.dbg.ringQ.any fun r => decide (r.1 = i)
  | .unit gid sel n => s.groups.any fun g => decide (g.id = gid) && g.here &&
      !(s.ctxs.any fun x => x.halted && x.mask.getLsbD g.core) &&
      g.engs.any fun e => decide (e.1 = sel) && e.2.cmds.any fun c => decide (c.n = n) && decide (c.st = CmdSt.started)
/-- Nothing that arrived at the line before `who` waits there still. -/
def State.turnOf (s : State) (line : Nat) (who : Asker) : Bool :=
  decide (s.slcQ = []) ||
  (match s.slcQ.find? fun q => decide (q.1 = line) && s.claimLive q with
    | some q => decide (q.2 = who)
    | none => true)
/-- `who` waits at the line, in its place. -/
def State.claim (s : State) (line : Nat) (who : Asker) : State :=
  let l := s.slcQ.filter s.claimLive
  { s with slcQ := if who = .passing ∨ l.contains (line, who) then l else l ++ [(line, who)] }

/-- `who` waits nowhere any more. -/
def State.unclaim (s : State) (who : Asker) : State :=
  if s.slcQ = [] then s else { s with slcQ := s.slcQ.filter fun q => q.2 ≠ who }

/-! ### The SLC (R13, R14, R97, R98) -/

def State.slcFind (s : State) (line : Nat) : Option SlcLine := s.slc.find? fun x => decide (x.line = line)
def State.slcPut (s : State) (x : SlcLine) : State :=
  { s with slc := if s.slc.any (fun y => decide (y.line = x.line)) then s.slc.map fun y => if y.line = x.line then x else y
                  else s.slc ++ [x] }
/-- The sectors of a list as bits. -/
def sectorBits (ks : List Nat) : BitVec 4 := ks.foldl (fun a k => a ||| BitVec.ofNat 4 (2 ^ k)) 0

/-- R97: the lines that share a line's set of 16 ways in its slice, oldest first. -/
def State.slcMates (s : State) (line : Nat) : List SlcLine :=
  s.slc.filter fun x => decide (s.slcSlice x.line = s.slcSlice line ∧ Config.cacheSet 2 x.line % 4096 = Config.cacheSet 2 line % 4096)
/-- A line is held, or its set has room for it. -/
def State.slcFits (s : State) (line : Nat) : Bool :=
  (s.slcFind line).isSome || decide (s.slc.length < 16) || decide ((s.slcMates line).length < 16)

/-- R100: the SLC evicts a line: host copies and L1 copies go first, dirty sectors go to their bank. The Bool says that it
has gone. -/
def State.slcEvict (s : State) (line : Nat) : State × Bool :=
  match s.slcFind line with
  | none => (s, true)
  | some x =>
    let d := s.dirOf line
    if d.host ≠ .i then (s.recall line true, false)
    else if d.cores ≠ 0 then (s.invalidate line (bitsBelow d.cores 16), false)
    else if s.recalls.any (fun r => decide (r.1 = line)) ∨ s.l1Invs.any (fun r => decide (r.2 = line)) then (s, false)
    else
      let ks := bitsBelow x.dirty 4
      let s := if ks = [] then s else (s.bankAsk line ks true).1
      ({ s with slc := s.slc.filter fun y => y.line ≠ line }, true)

/-- R97: room for a line in its set, where need be by evicting the oldest. -/
def State.slcRoom (s : State) (line : Nat) : State × Bool :=
  if s.slcFits line then (s, true)
  else match s.slcMates line with
    | v :: _ => s.slcEvict v.line
    | [] => (s, true)

/-- R14: sectors of a line are present, filled from the bank where need be. -/
def State.slcFill (s : State) (line : Nat) (ks : List Nat) : State × Bool :=
  match s.slcRoom line with
  | (s, false) => (s, false)
  | (s, true) =>
    let x := (s.slcFind line).getD { line := line }
    match ks.filter fun k => !(x.valid.getLsbD k) with
    | [] => (s.slcPut x, true)
    | need =>
      match s.bankAsk line need false with
      | (s, true) => (s.slcPut { x with valid := x.valid ||| sectorBits need }, true)
      | r => r

/-- Sectors of a line have been written at the SLC: they are present and dirty. A line that its set has no room for goes
to its bank at once. -/
def State.slcMark (s : State) (line : Nat) (ks : List Nat) : State :=
  if s.slcFits line then
    let x := (s.slcFind line).getD { line := line }
    s.slcPut { x with valid := x.valid ||| sectorBits ks, dirty := x.dirty ||| sectorBits ks }
  else (s.bankAsk line ks true).1

/-- R64: a queued access is served; a fill leaves its sectors in the SLC. -/
def State.accessServed (s : State) (k row : Nat) (write : Bool) (line : Option (RowCell × Nat × List Nat)) : State :=
  let s := s.putBank k (s.serveBank (s.bank k) row write)
  match line with
  | some (_, l, ks) =>
    if write || !(s.slcFits l) then s
    else
      let x := (s.slcFind l).getD { line := l }
      s.slcPut { x with valid := x.valid ||| sectorBits ks }
  | none => s

end Sys2Proof.Machine
end

