-- ==== Sys2Proof/Machine/Num.lean ====
section
/-!
DEFINITION. Number formats (chapter 08): integers and their fit, floating formats, exact values, rounding with its
flags, conversions, MX blocks and plane-stacked weights.
-/
namespace Sys2Proof.Machine

/-! ### Integers (R156, R177) -/

/-- R156: the value of a w-bit element, signed or natural. -/
def intOf (signed : Bool) (w x : Nat) : Int :=
  let x := x % 2 ^ w
  if signed && decide (2 ^ (w - 1) ≤ x) then (x : Int) - 2 ^ w else x

/-- R156: the least value of an integer format. -/
def intMin (signed : Bool) (w : Nat) : Int := if signed then -(2 ^ (w - 1) : Int) else 0
/-- R156: the greatest value of an integer format. -/
def intMax (signed : Bool) (w : Nat) : Int := if signed then 2 ^ (w - 1) - 1 else 2 ^ w - 1

/-- The w low bits of an exact integer. -/
def wrapInt (w : Nat) (r : Int) : Nat := (r % (2 ^ w : Int)).toNat

/-- STICKY bit numbers (R46): the exceptions as bits of a number. -/
def fNX : Nat := 1
def fUF : Nat := 2
def fOF : Nat := 4
def fDZ : Nat := 8
def fIV : Nat := 16
def fSATF : Nat := 32

/-- R177: place an exact integer into an element; the second component is the flags raised. -/
def fitInt (sat signed : Bool) (w : Nat) (r : Int) : Nat × Nat :=
  if r < intMin signed w then (if sat then (wrapInt w (intMin signed w), fSATF) else (wrapInt w r, 0))
  else if intMax signed w < r then (if sat then (wrapInt w (intMax signed w), fSATF) else (wrapInt w r, 0))
  else (wrapInt w r, 0)

/-! ### Exact values -/

/-- An exact dyadic number m × 2^e. -/
structure Dy where
  m : Int
  e : Int
  deriving DecidableEq, Repr

def dyZero : Dy := ⟨0, 0⟩
/-- m with its exponent lowered to e0 ≤ e. -/
def Dy.at (x : Dy) (e0 : Int) : Int := x.m * 2 ^ (x.e - e0).toNat
def dyAdd (x y : Dy) : Dy := let e := min x.e y.e; ⟨x.at e + y.at e, e⟩
def dyNeg (x : Dy) : Dy := ⟨-x.m, x.e⟩
def dySub (x y : Dy) : Dy := dyAdd x (dyNeg y)
def dyMul (x y : Dy) : Dy := ⟨x.m * y.m, x.e + y.e⟩
def dySum (l : List Dy) : Dy := l.foldl dyAdd dyZero
def dyLt (x y : Dy) : Bool := decide ((dySub x y).m < 0)
def dyLe (x y : Dy) : Bool := decide ((dySub x y).m ≤ 0)
def dyEq (x y : Dy) : Bool := decide ((dySub x y).m = 0)
def dyAbs (x : Dy) : Dy := ⟨x.m.natAbs, x.e⟩
/-- x × 2^k. -/
def dyScale (x : Dy) (k : Int) : Dy := ⟨x.m, x.e + k⟩
def dyOfInt (i : Int) : Dy := ⟨i, 0⟩
/-- floor and ceiling of a dyadic number. -/
def dyFloor (x : Dy) : Int := if 0 ≤ x.e then x.m * 2 ^ x.e.toNat else x.m / (2 ^ (-x.e).toNat : Int)
def dyCeil (x : Dy) : Int := -dyFloor (dyNeg x)

/-! ### Floating formats (R158 to R160) -/

/-- How a format ends its range: with infinities, with NaN alone (E4M3), or with neither (E2M1). -/
inductive Ends where
  | ieee | e4m3 | e2m1
  deriving DecidableEq, Repr

/-- R158: a floating format. The largest finite value is maxM × 2^maxE. -/
structure Fmt where
  eb : Nat
  mb : Nat
  bias : Nat
  ends : Ends
  maxM : Nat
  maxE : Int
  deriving DecidableEq, Repr

def f32 : Fmt := ⟨8, 23, 127, .ieee, 2 ^ 24 - 1, 104⟩
def f16 : Fmt := ⟨5, 10, 15, .ieee, 2 ^ 11 - 1, 5⟩
def bf16 : Fmt := ⟨8, 7, 127, .ieee, 2 ^ 8 - 1, 120⟩
def e5m2 : Fmt := ⟨5, 2, 15, .ieee, 7, 13⟩
def e4m3 : Fmt := ⟨4, 3, 7, .e4m3, 14, 5⟩
def e2m1 : Fmt := ⟨2, 1, 1, .e2m1, 3, 1⟩

def Fmt.width (f : Fmt) : Nat := 1 + f.eb + f.mb
/-- The exponent of the subnormal spacing: 1 - bias - mb. -/
def Fmt.q0 (f : Fmt) : Int := 1 - (f.bias : Int) - f.mb
/-- The sign bit set on an encoding. -/
def Fmt.sgn (f : Fmt) (neg : Bool) (x : Nat) : Nat := if neg then x + 2 ^ (f.eb + f.mb) else x
/-- R160: the infinity. -/
def Fmt.inf (f : Fmt) (neg : Bool) : Nat := f.sgn neg ((2 ^ f.eb - 1) * 2 ^ f.mb)
/-- R158: the largest finite value with a sign. -/
def Fmt.max (f : Fmt) (neg : Bool) : Nat :=
  f.sgn neg (match f.ends with
    | .ieee => (2 ^ f.eb - 1) * 2 ^ f.mb - 1
    | .e4m3 => 0x7E
    | .e2m1 => 0x7)
/-- R160: the canonical NaN; E2M1 has none and takes +0 (R172). -/
def Fmt.nan (f : Fmt) : Nat :=
  match f.ends with
  | .e4m3 => 0x7F
  | .e2m1 => 0
  | .ieee => if f.mb = 2 then 0x7E else (2 ^ f.eb - 1) * 2 ^ f.mb + 2 ^ (f.mb - 1)
/-- R170: FTZ acts on f32, f16 and bf16 only. -/
def Fmt.flushes (f : Fmt) : Bool := decide (7 ≤ f.mb)

/-- R159, R160: what an encoding stands for. A NaN carries its sign, its mantissa aligned to 23 bits, and whether it
signals; a finite value is (-1)^neg × m × 2^e with m below 2^mb for zero and the subnormals. -/
inductive FV where
  | nan (neg : Bool) (payload : Nat) (sig : Bool)
  | inf (neg : Bool)
  | fin (neg : Bool) (m : Nat) (e : Int)
  deriving DecidableEq, Repr

/-- R159, R160: read an encoding. -/
def unpack (f : Fmt) (x : Nat) : FV :=
  let neg := x.testBit (f.eb + f.mb)
  let e := x / 2 ^ f.mb % 2 ^ f.eb
  let m := x % 2 ^ f.mb
  let fin : FV := if e = 0 then .fin neg m f.q0 else .fin neg (2 ^ f.mb + m) (f.q0 + (e : Int) - 1)
  match f.ends with
  | .e2m1 => fin
  | .e4m3 => if e = 15 ∧ m = 7 then .nan neg (2 ^ 22) false else fin
  | .ieee =>
    if e = 2 ^ f.eb - 1 then
      if m = 0 then .inf neg
      else if f.mb = 2 then .nan neg (2 ^ 22) false
      else .nan neg (m * 2 ^ (23 - f.mb)) (!(m.testBit (f.mb - 1)))
    else fin

/-- R170: a subnormal input read as zero with its sign, under FTZ. -/
def flushIn (f : Fmt) (ftz : Bool) (x : FV) : FV :=
  match x with
  | .fin neg m e => if ftz && f.flushes && decide (m < 2 ^ f.mb) then .fin neg 0 f.q0 else .fin neg m e
  | y => y

/-- Read an operand as arithmetic does: unpacked, flushed under FTZ. -/
def readF (f : Fmt) (ftz : Bool) (x : Nat) : FV := flushIn f ftz (unpack f x)

def FV.isNaN : FV → Bool | .nan .. => true | _ => false
def FV.isSig : FV → Bool | .nan _ _ s => s | _ => false
def FV.isInf : FV → Bool | .inf _ => true | _ => false
def FV.isZero : FV → Bool | .fin _ m _ => decide (m = 0) | _ => false
def FV.neg : FV → Bool | .nan n _ _ => n | .inf n => n | .fin n _ _ => n
def FV.flip : FV → FV | .nan n p s => .nan (!n) p s | .inf n => .inf (!n) | .fin n m e => .fin (!n) m e
/-- The exact value of a finite FV; 0 for the others. -/
def FV.dy : FV → Dy | .fin n m e => ⟨if n then -(m : Int) else m, e⟩ | _ => dyZero

/-! ### Rounding (R168 to R171) -/

/-- The settings that rounding reads: RM (R168), the 16-bit draw of RM 5 (R169), FTZ (R170), NANP (R172), and SAT where
the operation is a conversion (R171). -/
structure RMode where
  rm : Nat
  draw : Nat
  ftz : Bool
  nanp : Bool
  sat : Bool
  deriving DecidableEq, Repr

/-- RNE, nothing flushed, canonical NaNs: the arithmetic of grids, atomics, rays and rasters. -/
def rneMode : RMode := ⟨0, 0, false, false, false⟩

/-- R168, R169: whether the magnitude mfl + rem/den (plus less than any bit where `sticky`) rounds up. -/
def roundsUp (r : RMode) (neg : Bool) (mfl rem den : Nat) (sticky : Bool) : Bool :=
  let inexact := decide (rem ≠ 0) || sticky
  match r.rm with
  | 0 => decide (den < 2 * rem) || (decide (2 * rem = den) && (sticky || decide (mfl % 2 = 1)))
  | 2 => !neg && inexact
  | 3 => neg && inexact
  | 4 => decide (den ≤ 2 * rem)
  | 5 => decide (65536 ≤ rem * 65536 / den + r.draw)
  | _ => false

/-- floor(log2(n / d)) for positive n, d. -/
def ratLog (n d : Nat) : Int :=
  let k : Int := (Nat.log2 n : Int) - Nat.log2 d
  if 0 ≤ k then (if n < d * 2 ^ k.toNat then k - 1 else k)
  else (if n * 2 ^ (-k).toNat < d then k - 1 else k)

/-- Round the positive number n/d × 2^e (plus less than any bit where `sticky`) to a multiple of 2^q: the multiple and
whether the rounding was inexact. -/
def roundAt (r : RMode) (neg : Bool) (n d : Nat) (e : Int) (sticky : Bool) (q : Int) : Nat × Bool :=
  let nn := if q ≤ e then n * 2 ^ (e - q).toNat else n
  let dd := if q ≤ e then d else d * 2 ^ (q - e).toNat
  let mfl := nn / dd
  let rem := nn % dd
  (if roundsUp r neg mfl rem dd sticky then mfl + 1 else mfl, decide (rem ≠ 0) || sticky)

/-- The encoding of mag × 2^q, mag at most 2^(mb+1) and q at least q0. -/
def packFin (f : Fmt) (neg : Bool) (mag : Nat) (q : Int) : Nat :=
  let (mag, q) := if mag = 2 ^ (f.mb + 1) then (2 ^ f.mb, q + 1) else (mag, q)
  f.sgn neg (if mag < 2 ^ f.mb then mag else ((q - f.q0).toNat + 1) * 2 ^ f.mb + (mag - 2 ^ f.mb))

/-- R171: the result of an overflow. -/
def overflowF (f : Fmt) (r : RMode) (neg : Bool) : Nat × Nat :=
  if f.ends = .e2m1 then (f.max neg, fSATF ||| fNX)
  else if r.sat then (f.max neg, fSATF ||| fNX)
  else
    let big := if f.ends = .e4m3 then f.sgn neg 0x7F else f.inf neg
    (match r.rm with
      | 1 => f.max neg
      | 2 => if neg then f.max neg else big
      | 3 => if neg then big else f.max neg
      | _ => big, fOF ||| fNX)

/-- R168 to R171: round(x, RM) of the positive number n/d × 2^e with sign `neg` into a format: encoding and flags. -/
def roundF (f : Fmt) (r : RMode) (neg : Bool) (n d : Nat) (e : Int) (sticky : Bool) : Nat × Nat :=
  let ex := ratLog n d + e
  let qn := ex - f.mb
  let (mu, _) := roundAt r neg n d e sticky qn
  -- R171: the rounded magnitude, exponent unbounded above, beyond the largest finite value
  let q := max qn f.q0
  let (mag, inexact) := roundAt r neg n d e sticky q
  let ovf := dyLt ⟨f.maxM, f.maxE⟩ ⟨mag, q⟩
  -- R170: tiny after rounding to full precision with the exponent unbounded
  let tiny := dyLt ⟨mu, qn⟩ ⟨1, 1 - (f.bias : Int)⟩
  if ovf then overflowF f r neg
  else if tiny && r.ftz && f.flushes then (f.sgn neg 0, fUF ||| fNX)
  else (packFin f neg mag q, if inexact then (if tiny then fUF ||| fNX else fNX) else 0)

/-- Round an exact dyadic result; an exact zero takes the sign given. -/
def roundDy (f : Fmt) (r : RMode) (x : Dy) (zeroNeg : Bool) : Nat × Nat :=
  if x.m = 0 then (f.sgn zeroNeg 0, 0) else roundF f r (decide (x.m < 0)) x.m.natAbs 1 x.e false

/-- R172: the NaN a format receives from a NaN under NANP = 1: sign and top mantissa bits kept, quiet bit set. -/
def nanFrom (f : Fmt) (nanp : Bool) (x : FV) : Nat :=
  match x with
  | .nan neg p _ =>
    if !nanp then f.nan
    else if f.mb < 7 then (if f.ends = .e2m1 then 0 else f.sgn neg f.nan)
    else f.sgn neg ((2 ^ f.eb - 1) * 2 ^ f.mb + (p / 2 ^ (23 - f.mb)) ||| 2 ^ (f.mb - 1))
  | _ => f.nan

/-- R172: the NaN result of an instruction whose operands, in its NaN order, are `l`: the first NaN under NANP = 1, the
canonical one otherwise. The flags hold IV when one of them signals. -/
def nanResult (f : Fmt) (r : RMode) (l : List FV) : Nat × Nat :=
  ((match l.find? FV.isNaN with
    | some x => nanFrom f r.nanp x
    | none => f.nan), if l.any FV.isSig then fIV else 0)

/-! ### Arithmetic on read values (R186, R187, R189) -/

/-- R186: x + y exactly, rounded once; `ord` is the NaN operand order. -/
def addFV (f : Fmt) (r : RMode) (x y : FV) (ord : List FV) : Nat × Nat :=
  if x.isNaN || y.isNaN then nanResult f r ord
  else match x, y with
    | .inf a, .inf b => if a = b then (f.inf a, 0) else (f.nan, fIV)
    | .inf a, _ => (f.inf a, 0)
    | _, .inf b => (f.inf b, 0)
    | _, _ =>
      let zeroNeg := if x.isZero && y.isZero && decide (x.neg = y.neg) then x.neg else decide (r.rm = 3)
      roundDy f r (dyAdd x.dy y.dy) zeroNeg

/-- R186: x × y exactly, rounded once. -/
def mulFV (f : Fmt) (r : RMode) (x y : FV) : Nat × Nat :=
  if x.isNaN || y.isNaN then nanResult f r [x, y]
  else
    let neg := xor x.neg y.neg
    if x.isInf || y.isInf then
      if x.isZero || y.isZero then (f.nan, fIV) else (f.inf neg, 0)
    else roundDy f r (dyMul x.dy y.dy) neg

/-- R186: x × y + z with the product unrounded; 0 × ∞ raises IV whatever the addend. NaN order x, y, z. -/
def fmaFV (f : Fmt) (r : RMode) (x y z : FV) (ord : List FV) : Nat × Nat :=
  let badProd := (x.isInf && y.isZero) || (x.isZero && y.isInf)
  if x.isNaN || y.isNaN || z.isNaN || badProd then
    let (v, fl) := nanResult f r ord
    (v, if badProd then fl ||| fIV else fl)
  else
    let pn := xor x.neg y.neg
    if x.isInf || y.isInf then
      match z with
      | .inf b => if pn = b then (f.inf b, 0) else (f.nan, fIV)
      | _ => (f.inf pn, 0)
    else match z with
      | .inf b => (f.inf b, 0)
      | _ =>
        let p := dyMul x.dy y.dy
        let zeroNeg := if decide (p.m = 0) && z.isZero && decide (pn = z.neg) then pn else decide (r.rm = 3)
        roundDy f r (dyAdd p z.dy) zeroNeg

/-- A total order of non-NaN values with -0 below +0 (R187). -/
def fvLt (x y : FV) : Bool :=
  match x, y with
  | .inf a, .inf b => a && !b
  | .inf a, _ => a
  | _, .inf b => !b
  | _, _ => dyLt x.dy y.dy || (x.isZero && y.isZero && x.neg && !y.neg)

/-- Encode a finite or infinite value that the format holds exactly. -/
def encodeFV (f : Fmt) (x : FV) : Nat :=
  match x with
  | .nan n p _ => f.sgn n ((2 ^ f.eb - 1) * 2 ^ f.mb + p / 2 ^ (23 - f.mb))
  | .inf n => f.inf n
  | .fin n m e => (roundDy f rneMode ⟨if n then -(m : Int) else m, e⟩ n).1

/-- R187: FMIN and FMAX. -/
def minmaxFV (f : Fmt) (r : RMode) (isMax : Bool) (x y : FV) : Nat × Nat :=
  let iv := if x.isSig || y.isSig then fIV else 0
  if x.isNaN && y.isNaN then nanResult f r [x, y]
  else if x.isNaN then (encodeFV f y, iv)
  else if y.isNaN then (encodeFV f x, iv)
  else (encodeFV f (if fvLt x y = isMax then y else x), 0)

/-- R185: x = y, x < y as compares see them (no NaN). -/
def fvEq (x y : FV) : Bool :=
  match x, y with
  | .inf a, .inf b => decide (a = b)
  | .fin .., .fin .. => dyEq x.dy y.dy
  | _, _ => false
def fvLtCmp (x y : FV) : Bool := fvLt x y && !fvEq x y

/-! ### Correctly rounded functions (R188, R189) -/

/-- floor(sqrt n) for n below 4^(k+1). -/
def isqrt (n : Nat) : Nat → Nat → Nat
  | 0, r => if (r + 1) * (r + 1) ≤ n then r + 1 else r
  | k + 1, r => let c := r + 2 ^ (k + 1); isqrt n k (if c * c ≤ n then c else r)
def natSqrt (n : Nat) : Nat := isqrt n (Nat.log2 n / 2 + 1) 0

/-- The number of fraction bits of the fixed-point series below. -/
def fixP : Nat := 640
def fixOne : Nat := 2 ^ fixP
def fixMul (x y : Nat) : Nat := x * y / fixOne

/-- Σ_{j=0}^{k-1} t^(i+j)/(i+j)! style series: term, index, sum. e^t for t in [0,1). -/
def expSeries (t : Nat) : Nat → Nat → Nat → Nat → Nat
  | 0, _, _, s => s
  | k + 1, i, term, s => let term := fixMul term t / i; expSeries t k (i + 1) term (s + term)
def fixExp (t : Nat) : Nat := expSeries t 170 1 fixOne fixOne

/-- Σ z^(2j+1)/(2j+1): atanh z for z up to 1/3. -/
def atanhSeries (z2 : Nat) : Nat → Nat → Nat → Nat → Nat
  | 0, _, _, s => s
  | k + 1, i, p, s => atanhSeries z2 k (i + 2) (fixMul p z2) (s + p / i)
def fixAtanh (z : Nat) : Nat := atanhSeries (fixMul z z) 230 1 z 0
/-- ln 2 = 2 atanh(1/3). -/
def fixLn2 : Nat := 2 * fixAtanh (fixOne / 3)

/-- atan(1/k) by its alternating series. -/
def atanSeries (k2 : Nat) : Nat → Nat → Nat → Int → Int → Int
  | 0, _, _, _, s => s
  | n + 1, i, p, sg, s => atanSeries k2 n (i + 2) (p / k2) (-sg) (s + sg * (p / i : Nat))
def fixAtanInv (k : Nat) : Int := atanSeries (k * k) 160 1 (fixOne / k) 1 0
/-- π by Machin's formula. -/
def fixPi : Nat := (16 * fixAtanInv 5 - 4 * fixAtanInv 239).toNat

/-- sin and cos of t (radians, fixed point, t up to about 1.6) by alternating series. -/
def trigSeries (t2 : Nat) : Nat → Nat → Nat → Int → Int → Int
  | 0, _, _, _, s => s
  | n + 1, i, term, sg, s =>
    let term := fixMul term t2 / (i * (i + 1))
    trigSeries t2 n (i + 2) term (-sg) (s + sg * (term : Int))
def fixSin (t : Nat) : Nat := (trigSeries (fixMul t t) 100 2 t (-1) t).toNat
def fixCos (t : Nat) : Nat := (trigSeries (fixMul t t) 100 1 fixOne (-1) fixOne).toNat

/-- A finite dyadic as a fixed-point number (floor); exact where its exponent is at least -fixP. -/
def fixOf (x : Dy) : Int := dyFloor (dyScale x fixP)

/-- Round a fixed-point approximation (never an exact value of the format or a midpoint) of an irrational result. -/
def roundFix (f : Fmt) (r : RMode) (x : Int) : Nat × Nat :=
  roundF f { r with rm := 0 } (decide (x < 0)) x.natAbs 1 (-(fixP : Int)) true

/-- R188, R189: FEXP2. -/
def exp2FV (f : Fmt) (r : RMode) (x : FV) : Nat × Nat :=
  match x with
  | .nan .. => nanResult f r [x]
  | .inf n => if n then (0, 0) else (f.inf false, 0)
  | .fin n m e =>
    let d := x.dy
    if m = 0 then roundF f r false 1 1 0 false
    else
      let k := dyFloor d
      -- beyond ±2,000 every format overflows or is below every subnormal
      let k := max (-2000) (min 2000 k)
      if dyEq d (dyOfInt (dyFloor d)) then roundF f { r with rm := 0 } false 1 1 k false
      else if -2000 < k ∧ k < 2000 then
        let fr := (fixOf (dySub d (dyOfInt k))).toNat
        roundF f { r with rm := 0 } false (fixExp (fixMul fr fixLn2)) 1 (k - fixP) true
      else if n then roundF f { r with rm := 0 } false 1 1 (-2000) true
      else roundF f { r with rm := 0 } false 1 1 (2000 + 0 * e) true

/-- R188, R189: FLOG2. -/
def log2FV (f : Fmt) (r : RMode) (x : FV) : Nat × Nat :=
  match x with
  | .nan .. => nanResult f r [x]
  | .inf n => if n then (f.nan, fIV) else (f.inf false, 0)
  | .fin n m e =>
    if m = 0 then (f.inf true, fDZ)
    else if n then (f.nan, fIV)
    else
      let k := Nat.log2 m
      let ex : Int := e + k
      if m = 2 ^ k then roundDy f { r with rm := 0 } (dyOfInt ex) false
      else
        -- log2(m / 2^k) = 2 atanh((m - 2^k) / (m + 2^k)) / ln 2
        let z := (m - 2 ^ k) * fixOne / (m + 2 ^ k)
        let lg := 2 * fixAtanh z * fixOne / fixLn2
        roundFix f r (ex * (fixOne : Int) + lg)

/-- sin(π t) for a dyadic t in [0, 1/2]. -/
def sinPiFix (t : Dy) : Nat := fixSin (fixMul (fixOf t).toNat fixPi)
/-- cos(π t) for a dyadic t in [0, 1/2]. -/
def cosPiFix (t : Dy) : Nat := fixCos (fixMul (fixOf t).toNat fixPi)

/-- R188, R189: FSINPI (cosine = false) and FCOSPI. The argument is reduced modulo 2 to a quadrant. -/
def trigPiFV (f : Fmt) (r : RMode) (cosine : Bool) (x : FV) : Nat × Nat :=
  match x with
  | .nan .. => nanResult f r [x]
  | .inf _ => (f.nan, fIV)
  | .fin n m _ =>
    let one := (roundDy f rneMode (dyOfInt 1) false).1
    let oneS (neg : Bool) := f.sgn neg one
    let a := dyAbs x.dy
    let two := dySub a (dyOfInt (2 * dyFloor (dyScale a (-1))))     -- |x| mod 2
    let h := dyFloor (dyScale two 1)                                 -- half-turn quarter 0..3
    let fr := dySub two (dyScale (dyOfInt h) (-1))                   -- in [0, 1/2)
    if fr.m = 0 then
      if cosine then (if h = 0 then (oneS false, 0) else if h = 2 then (oneS true, 0) else (0, 0))
      else if h = 1 then (oneS n, 0) else if h = 3 then (oneS (!n), 0) else (f.sgn n 0, 0)
    else
      let _ := m
      if cosine then
        match h.toNat with
        | 0 => roundFix f r (cosPiFix fr)
        | 1 => roundFix f r (-(sinPiFix fr : Int))
        | 2 => roundFix f r (-(cosPiFix fr : Int))
        | _ => roundFix f r (sinPiFix fr)
      else
        let s (v : Int) := if n then -v else v
        match h.toNat with
        | 0 => roundFix f r (s (sinPiFix fr))
        | 1 => roundFix f r (s (cosPiFix fr))
        | 2 => roundFix f r (s (-(sinPiFix fr : Int)))
        | _ => roundFix f r (s (-(cosPiFix fr : Int)))

/-- R188, R189: FTANH. -/
def tanhFV (f : Fmt) (r : RMode) (x : FV) : Nat × Nat :=
  match x with
  | .nan .. => nanResult f r [x]
  | .inf n => ((roundDy f rneMode (dyOfInt (if n then -1 else 1)) n).1, 0)
  | .fin n m _ =>
    if m = 0 then (f.sgn n 0, 0)
    else
      let a := dyAbs x.dy
      let s (v : Int) := if n then -v else v
      -- from 64 up tanh differs from 1 by less than 2^-180
      if dyLe (dyOfInt 64) a then roundFix f r (s ((fixOne : Int) - 2 ^ (fixP - 180)))
      else
        -- e^(2a) = 2^k × e^u with u in [0, ln 2)
        let t := 2 * (fixOf a).toNat
        let k := t / fixLn2
        let y := fixExp (t % fixLn2) * 2 ^ k
        roundFix f r (s (((y - fixOne) * fixOne / (y + fixOne) : Nat) : Int))

/-- R188, R189: FRCP. -/
def rcpFV (f : Fmt) (r : RMode) (x : FV) : Nat × Nat :=
  match x with
  | .nan .. => nanResult f r [x]
  | .inf n => (f.sgn n 0, 0)
  | .fin n m e => if m = 0 then (f.inf n, fDZ) else roundF f r n 1 m (-e) false

/-- R188, R189: FSQRT. -/
def sqrtFV (f : Fmt) (r : RMode) (x : FV) : Nat × Nat :=
  match x with
  | .nan .. => nanResult f r [x]
  | .inf n => if n then (f.nan, fIV) else (f.inf false, 0)
  | .fin n m e =>
    if m = 0 then (f.sgn n 0, 0)
    else if n then (f.nan, fIV)
    else
      let (m, e) := if e % 2 = 0 then (m, e) else (2 * m, e - 1)
      let mm := m * 2 ^ 200
      let s := natSqrt mm
      roundF f r false s 1 (e / 2 - 100) (decide (s * s ≠ mm))

/-- R188, R189: FRSQ. -/
def rsqFV (f : Fmt) (r : RMode) (x : FV) : Nat × Nat :=
  match x with
  | .nan .. => nanResult f r [x]
  | .inf n => if n then (f.nan, fIV) else (0, 0)
  | .fin n m e =>
    if m = 0 then (f.inf n, fDZ)
    else if n then (f.nan, fIV)
    else
      let (m, e) := if e % 2 = 0 then (m, e) else (2 * m, e - 1)
      let big := 2 ^ 400
      let s := natSqrt (big / m)
      roundF f r false s 1 (-(e / 2) - 200) (decide (s * s * m ≠ big))

/-- R190: round to an integral value; FRINT alone raises NX. -/
def intgFV (f : Fmt) (r : RMode) (rm : Nat) (nx : Bool) (x : FV) : Nat × Nat :=
  match x with
  | .nan .. => nanResult f r [x]
  | .inf n => (f.inf n, 0)
  | .fin n m e =>
    if m = 0 then (f.sgn n 0, 0)
    else if 0 ≤ e then (encodeFV f x, 0)
    else
      let (g, inexact) := roundAt { r with rm := rm } n m 1 e false 0
      (encodeFV f (.fin n g 0), if inexact && nx then fNX else 0)

/-- R191: FCLASS's bit for an encoding. -/
def classBit (f : Fmt) (x : Nat) : Nat :=
  match unpack f x with
  | .nan _ _ s => if s then 1 else 2
  | .inf n => if n then 4 else 512
  | .fin n m _ =>
    if m = 0 then (if n then 32 else 64)
    else if m < 2 ^ f.mb then (if n then 16 else 128)
    else (if n then 8 else 256)

/-- R193: FSCALE; beyond ±1,000 every finite x overflows or vanishes. -/
def scaleFV (f : Fmt) (r : RMode) (x : FV) (n : Int) : Nat × Nat :=
  match x with
  | .nan .. => nanResult f r [x]
  | .inf s => (f.inf s, 0)
  | .fin s m _ => if m = 0 then (f.sgn s 0, 0) else roundDy f r (dyScale x.dy (max (-1000) (min 1000 n))) s

/-! ### Conversions (R171 to R173) -/

/-- An element kind of MODE.ETYPE (R176). -/
inductive EK where
  | int (signed : Bool) (w : Nat)
  | flt (f : Fmt)
  deriving DecidableEq, Repr

/-- R171: an infinity converted to a format. -/
def convInf (f : Fmt) (r : RMode) (neg : Bool) : Nat × Nat :=
  match f.ends with
  | .ieee => (f.inf neg, 0)
  | .e4m3 => if r.sat then (f.max neg, fSATF) else (f.sgn neg 0x7F, fIV)
  | .e2m1 => (f.max neg, fSATF)

/-- R173: convert one value. -/
def convert (src dst : EK) (r : RMode) (x : Nat) : Nat × Nat :=
  match src, dst with
  | .int s w, .int s' w' => fitInt r.sat s' w' (intOf s w x)
  | .int s w, .flt f =>
    let i := intOf s w x
    roundDy f r (dyOfInt i) false
  | .flt g, .flt f =>
    match readF g r.ftz x with
    | .nan n p s =>
      (nanFrom f r.nanp (.nan n p s), if s || decide (f.ends = .e2m1) then fIV else 0)
    | .inf n => convInf f r n
    | .fin n m e => if m = 0 then (f.sgn n 0, 0) else roundF f r n m 1 e false
  | .flt g, .int s' w' =>
    match readF g r.ftz x with
    | .nan .. => (0, fIV)
    | .inf n => (wrapInt w' (if n then intMin s' w' else intMax s' w'), if r.sat then fSATF else fIV)
    | .fin n m e =>
      if m = 0 then (0, 0)
      else
        let (g, inexact) := roundAt r n m 1 e false 0
        let v : Int := if n then -(g : Int) else g
        let nx := if inexact then fNX else 0
        if v < intMin s' w' then (wrapInt w' (intMin s' w'), nx ||| (if r.sat then fSATF else fIV))
        else if intMax s' w' < v then (wrapInt w' (intMax s' w'), nx ||| (if r.sat then fSATF else fIV))
        else (wrapInt w' v, nx)

/-! ### MX blocks and planes (R161 to R166) -/

/-- R164: emax of an MX element format. -/
def mxEmax (f : Fmt) : Int := if f = e4m3 then 8 else if f = e5m2 then 15 else 2

/-- R164: the scale of a block from its values read exactly. X = 255 where one is NaN or infinite. -/
def mxScale (f : Fmt) (vs : List FV) : Nat :=
  if vs.any fun v => v.isNaN || v.isInf then 255
  else
    let lg (v : FV) : Option Int := match v with | .fin _ m e => if m = 0 then none else some ((Nat.log2 m : Int) + e) | _ => none
    match vs.filterMap lg with
    | [] => 127
    | l :: ls => (max (-127) (min 127 (ls.foldl max l - mxEmax f)) + 127).toNat

/-- R164: one element of a block of scale x: encoding and flags. -/
def mxElem (f : Fmt) (r : RMode) (x : Nat) (v : FV) : Nat × Nat :=
  if x = 255 then (0, if v.isNaN || v.isInf then fIV else 0)
  else match v with
    | .fin n m e =>
      if m = 0 then (f.sgn n 0, 0) else roundF f { r with sat := true } n m 1 (e - ((x : Int) - 127)) false
    | _ => (0, fIV)

/-- R166: weight i of a plane-stacked group read with p planes from the plane words given in order. -/
def planeWeight (planes : List Nat) (p i : Nat) : Int :=
  intOf true p ((planes.take p).foldl (fun a w => 2 * a + (if w.testBit i then 1 else 0)) 0)

/-- The number of set bits of x among its low n. -/
def popcount (n x : Nat) : Nat := (List.range n).foldl (fun a i => if x.testBit i then a + 1 else a) 0

end Sys2Proof.Machine
end

