-- ==== Sys2Proof/Machine/MatNum.lean ====
section
/-!
DEFINITION. The arithmetic of the systolic grid: the formats of operands (R219, R220), exact group sums and their
combination (R224), stored elements of tiles (R239).
-/
namespace Sys2Proof.Machine

/-! ### Descriptors and tiles (R211, R214, R215) -/

/-- R215: the fields of an accumulator descriptor. -/
def dGs (d : Nat) : Nat := d / 2 ^ 28
def dBar (d : Nat) : Nat := d / 2 ^ 16 % 256
def dSat (d : Nat) : Bool := d.testBit 14
def dShape (d : Nat) : Nat := d / 2 ^ 12 % 4
def dAcct (d : Nat) : Nat := d / 2 ^ 11 % 2
def dBase (d : Nat) : Nat := d % 2 ^ 11
/-- R215: bits [27:24] and [15]. -/
def dReserved (d : Nat) : Bool := decide (d / 2 ^ 24 % 16 ≠ 0) || d.testBit 15

/-- R211: the tile of a shape code: rows, columns, slots. Code 3 is reserved. -/
def tileRows (c : Nat) : Nat := if c = 0 then 32 else 64
def tileCols (c : Nat) : Nat := if c = 2 then 64 else 32
def tileCount (c : Nat) : Nat := match c with | 0 => 1 | 1 => 2 | 2 => 4 | _ => 0
/-- R214: the slots a descriptor names. -/
def tileSlots (d : Nat) : List Nat := (List.range (tileCount (dShape d))).map (dBase d + ·)
/-- R214: the key of element (i, j) in the group's accumulator store: slot × 1,024 + element of the slot. -/
def accKey (d i j : Nat) : Nat :=
  (dBase d + i / 32 * (tileCols (dShape d) / 32) + j / 32) * 1024 + i % 32 * 32 + j % 32

/-! ### Operand elements (R219, R223) -/

/-- R219: what an element is: floating in a format, or an integer. Codes of ATYPE, BTYPE, WTYPE. -/
inductive MType where
  | flt (f : Fmt)
  | int (signed : Bool)
  | bin
  | plane
  | bad
  deriving DecidableEq, Repr

def mtype (c : Nat) : MType :=
  match c with
  | 0 => .flt bf16
  | 1 => .flt f16
  | 2 => .flt e4m3
  | 3 => .flt e5m2
  | 4 => .flt e2m1
  | 5 => .flt e4m3
  | 6 => .flt e5m2
  | 7 => .flt e2m1
  | 8 => .int true
  | 9 => .int false
  | 10 => .bin
  | 11 => .plane
  | _ => .bad
/-- The bits of a stored element. -/
def mbits (c : Nat) : Nat := match c with | 0 | 1 => 16 | 4 | 7 => 4 | 10 => 1 | _ => 8
/-- An MX type and the element bytes of its block (R223). -/
def mIsMx (c : Nat) : Bool := decide (5 ≤ c ∧ c ≤ 7)
def mxR (c : Nat) : Nat := if c = 7 then 16 else 32

/-- R157: element x of a stored row, the row read as a little-endian number. -/
def rowElem (bits row x : Nat) : Nat := row / 2 ^ (bits * x) % 2 ^ bits

/-! ### Exact sums (R224) -/

/-- The exact product of two values. -/
def prodFV (x y : FV) : FV :=
  match x, y with
  | .nan .., _ | _, .nan .. => .nan false 0 false
  | .inf a, _ => if y.isZero then .nan false 0 false else .inf (xor a y.neg)
  | _, .inf b => if x.isZero then .nan false 0 false else .inf (xor x.neg b)
  | .fin a m e, .fin b n k => .fin (xor a b) (m * n) (e + k)

/-- R224: the exact sum of a group's products: NaN and infinities, the sign of an exact zero. -/
def sumFV (l : List FV) : FV :=
  if l.any FV.isNaN then .nan false 0 false
  else if (l.any fun x => x.isInf && x.neg) && (l.any fun x => x.isInf && !x.neg) then .nan false 0 false
  else if l.any FV.isInf then .inf (l.any fun x => x.isInf && x.neg)
  else
    let d := dySum (l.map FV.dy)
    if d.m = 0 then .fin (decide (l ≠ []) && l.all fun x => x.isZero && x.neg) 0 0
    else .fin (decide (d.m < 0)) d.m.natAbs d.e

/-- R161, R224: a group sum times 2^(X - 127) for each scale byte X; a NaN scale makes it NaN. -/
def scaleFVs (g : FV) (scales : List Nat) : FV :=
  if scales.contains 255 then .nan false 0 false
  else match g with
    | .fin n m e => .fin n m (scales.foldl (fun (a : Int) (x : Nat) => a + ((x : Int) - 127)) e)
    | x => x

/-- R224: c := rne(c + G). -/
def combineF (c : Nat) (g : FV) : Nat :=
  let x := unpack f32 c
  (addFV f32 rneMode x g [x, g]).1

/-- R224: the integer combination: modulo 2^32, or clamped to the i32 range. -/
def combineI (sat : Bool) (c : Nat) (x : Int) : Nat := (fitInt sat true 32 (intOf true 32 c + x)).1

/-- Cut a list into consecutive pieces of n; the fuel bounds the pieces. -/
def chunks {α : Type} (n : Nat) : Nat → List α → List (List α)
  | 0, _ => []
  | k + 1, l => match l with
    | [] => []
    | _ => l.take n :: chunks n k (l.drop n)

/-- R224: one element of an f32 step: the group sums added in ascending k. Each entry is a logical k: its two elements,
none where the sparse mask skips it; `scales` gives the scale bytes of each group. -/
def stepF (group : Nat) (c : Nat) (ks : List (Option (FV × FV))) (scales : Nat → List Nat) : Nat :=
  ((chunks group ks.length ks).zipIdx).foldl (fun c p =>
    combineF c (scaleFVs (sumFV (p.1.filterMap fun o => o.map fun q => prodFV q.1 q.2)) (scales p.2))) c

/-- R224: the exact integer sum of a step. -/
def sumI (ks : List (Option (Int × Int))) : Int := ks.foldl (fun a o => match o with | some (x, y) => a + x * y | none => a) 0

/-! ### The format word (R219, R220) -/

def fAty (w : Nat) : Nat := w % 16
def fBty (w : Nat) : Nat := w / 16 % 16
def fPl (w : Nat) : Nat := w / 256 % 16
def fSpa (w : Nat) : Nat := w / 2 ^ 12 % 4
def fBop (w : Nat) : Nat := w / 2 ^ 14 % 4
def fAcc (w : Nat) : Nat := w / 2 ^ 16 % 4
def fIsat (w : Nat) : Bool := w.testBit 18
def fBt (w : Nat) : Bool := w.testBit 19
def fAt (w : Nat) : Bool := w.testBit 20

/-- R220: the pairs of types, each with its ACC and whether a sparse A is allowed. -/
def fmtPair (a b : Nat) : Option (Nat × Bool) :=
  match a, b with
  | 0, 0 | 1, 1 => some (0, true)
  | 2, 2 | 2, 3 | 3, 2 | 3, 3 => some (0, true)
  | 4, 4 => some (0, true)
  | 5, 5 | 5, 6 | 6, 5 | 6, 6 => some (0, false)
  | 7, 7 => some (0, false)
  | 8, 8 | 8, 9 | 9, 8 | 9, 9 => some (1, true)
  | 10, 10 => some (1, false)
  | 8, 11 | 9, 11 => some (1, false)
  | _, _ => none

/-- R219, R220: a well-formed format word; P of a plane-stacked B comes from its pitch word. -/
def fmtOk (w auxB : Nat) : Bool :=
  match fmtPair (fAty w) (fBty w) with
  | none => false
  | some (acc, sparse) =>
    decide (w < 2 ^ 21) && decide (fAcc w = acc) && (!fIsat w || decide (acc = 1)) &&
    decide (fBop w ≤ (if fAty w = 10 then 1 else 0)) && decide (fSpa w ≤ (if sparse then 2 else 0)) &&
    (if fBty w = 11 then decide (2 ≤ fPl w ∧ fPl w ≤ auxB % 16 ∧ auxB % 16 ≤ 8) else decide (fPl w = 0)) &&
    (!(mIsMx (fAty w) || decide (fAty w = 10) || decide (fSpa w ≠ 0)) || !fAt w) &&
    (!(mIsMx (fBty w) || decide (fBty w = 10) || decide (fBty w = 11)) || fBt w)

/-- R223: the 48-element groups of a sparse step, and the stored elements of each. -/
def fG (w : Nat) : Nat := match mbits (fAty w) with | 16 => 1 | 8 => 2 | _ => 4
def fNz (w : Nat) : Nat := if fSpa w = 1 then 24 else 12
/-- R220: the logical k of a step, its clocks, and the summation group. -/
def fK (w : Nat) : Nat :=
  if fSpa w ≠ 0 then 48 * fG w
  else match fAty w with | 0 | 1 => 32 | 4 | 7 => 128 | 10 => 1024 | _ => 64
def fClocks (w : Nat) : Nat :=
  if fSpa w = 1 then 24 else if fSpa w = 2 then 12 else if fBty w = 11 then 8 * fPl w else 32
def fGroup (w : Nat) : Nat := match fAty w with | 0 | 1 => 4 | 2 | 3 => 8 | 4 => 16 | _ => 32

/-! ### One step of MLOOP (R222 to R224) -/

/-- The panels of a step as fetched: the stored rows of A and B, the sparse masks by row and group, the scale bytes of
A and B by row and block. -/
structure Panels where
  a : List Nat
  b : List Nat
  masks : List (List Nat) := []
  sa : List (List Nat) := []
  sb : List (List Nat) := []
  deriving DecidableEq, Repr

/-- R223: the logical k of a row of a sparse A, with the stored element each takes. -/
def sparseRow (masks : List Nat) : List (Option Nat) :=
  ((masks.flatMap fun m => (List.range 48).map m.testBit).foldl
    (fun (q : List (Option Nat) × Nat) b => if b then (q.1 ++ [some q.2], q.2 + 1) else (q.1 ++ [none], q.2)) ([], 0)).1

/-- The raw element (i, k) of A, none where it is skipped. -/
def Panels.elemA (p : Panels) (w i : Nat) (sp : List (Option Nat)) (k : Nat) : Option Nat :=
  let n := mbits (fAty w)
  if fSpa w ≠ 0 then (sp.getD k none).map fun x => rowElem n (p.a.getD i 0) x
  else if fAt w then some (rowElem n (p.a.getD k 0) i)
  else some (rowElem n (p.a.getD i 0) k)
/-- The raw element (k, j) of B. -/
def Panels.elemB (p : Panels) (w j k : Nat) : Nat :=
  let n := mbits (fBty w)
  if fBt w then rowElem n (p.b.getD j 0) k else rowElem n (p.b.getD k 0) j

/-- R166: weight k of a plane-stacked row of one group. -/
def planesOf (row p : Nat) : List Nat := (List.range p).map fun t => row / 2 ^ (64 * t) % 2 ^ 64

/-- R224: element (i, j) after a step. `auxB` is the B pitch word's AUX. -/
def Panels.elem (p : Panels) (w auxB i j c : Nat) : Nat :=
  let ks := List.range (fK w)
  let sp := sparseRow (p.masks.getD i [])
  match mtype (fAty w), mtype (fBty w) with
  | .flt fa, .flt fb =>
    stepF (fGroup w) c (ks.map fun k => (p.elemA w i sp k).map fun x => (unpack fa x, unpack fb (p.elemB w j k)))
      fun g => if mIsMx (fAty w) then [(p.sa.getD i []).getD g 0, (p.sb.getD j []).getD g 0] else []
  | .int sa, .int sb =>
    combineI (fIsat w) c (sumI (ks.map fun k => (p.elemA w i sp k).map fun x => (intOf sa 8 x, intOf sb 8 (p.elemB w j k))))
  | .int sa, .plane =>
    let pl := fPl w
    let pw := planesOf (p.b.getD j 0) pl
    combineI (fIsat w) c (2 ^ (auxB % 16 - pl) *
      sumI (ks.map fun k => (p.elemA w i sp k).map fun x => (intOf sa 8 x, planeWeight pw pl k)))
  | .bin, .bin =>
    let x := p.a.getD i 0
    let y := p.b.getD j 0
    combineI (fIsat w) c (popcount 1024 (if fBop w = 0 then Nat.xor x y else Nat.land x y))
  | _, _ => c

/-! ### Tiles in memory (R239) -/

/-- R239: the bits of a stored element by FMT. -/
def fmtBits (f : Nat) : Nat := match f with | 0 => 32 | 1 | 2 | 10 => 16 | 7 => 4 | _ => 8
/-- R239: the floating format of an FMT. -/
def fmtF (f : Nat) : Fmt := match f with | 1 => bf16 | 2 => f16 | 3 => e4m3 | 4 => e5m2 | 5 => e4m3 | 6 => e5m2 | _ => e2m1

/-- R239: MLDA widens a stored element exactly. -/
def widenElem (f x : Nat) : Nat :=
  match f with
  | 0 => x
  | 8 => wrapInt 32 (intOf true 8 x)
  | 9 => x % 256
  | 10 => wrapInt 32 (intOf true 16 x)
  | _ => (convert (.flt (fmtF f)) (.flt f32) rneMode x).1

/-- R239: MSTA converts an element; `conv` is the conversion word. -/
def narrowElem (conv x : Nat) : Nat :=
  let r : RMode := ⟨conv / 16 % 8, 0, false, false, conv.testBit 7⟩
  match conv % 16 with
  | 0 => x
  | 8 => (fitInt r.sat true 8 (intOf true 32 x)).1
  | 9 => (fitInt r.sat false 8 (intOf true 32 x)).1
  | 10 => (fitInt r.sat true 16 (intOf true 32 x)).1
  | f => (convert (.flt f32) (.flt (fmtF f)) r x).1

/-- R164, R239: 32 columns of a row as an MX block: the elements and the scale. -/
def mxBlock (conv : Nat) (xs : List Nat) : List Nat × Nat :=
  let r : RMode := ⟨conv / 16 % 8, 0, false, false, false⟩
  let f := fmtF (conv % 16)
  let vs := xs.map (unpack f32)
  let x := mxScale f vs
  (vs.map fun v => (mxElem f r x v).1, x)

/-- R242: MACC's sum. -/
def maccElem (acct : Nat) (sat : Bool) (x y : Nat) : Nat :=
  if acct = 0 then combineF x (unpack f32 y) else combineI sat x (intOf true 32 y)

/-- R239: the FMTs an instruction accepts: MLDA, MSTA of f32, MSTA of i32. -/
def fmtAccepted (store : Bool) (conv : Nat) : Bool :=
  let f := conv % 16
  if !store then decide (f ≤ 4 ∨ f = 8 ∨ f = 9 ∨ f = 10)
  else if conv.testBit 9 then decide (f = 0 ∨ (8 ≤ f ∧ f ≤ 10))
  else decide (f ≤ 7)
/-- R239: a well-formed conversion word. -/
def convOk (store : Bool) (conv : Nat) : Bool :=
  decide (conv < 1024) && !(conv.testBit 8) && decide (conv / 16 % 8 ≤ 4) && (store || !(conv.testBit 9)) && fmtAccepted store conv

end Sys2Proof.Machine
end

