-- ==== Sys2Proof/Machine/Flight.lean ====
section
/-!
DEFINITION. Accesses in flight as data (R78, R125): their kinds, whether they are performed or parked, and the register
results they bring back (R136, R146, R148).
-/
namespace Sys2Proof.Machine

/-- R144: the width in bytes of an atomic's ETYPE. -/
def atomWidth (etype : Nat) : Nat := if etype = 3 ∨ etype = 4 then 8 else 4

def AccKind.isLoad : AccKind → Bool
  | .load _ | .loadMask | .loadRec | .samp => true
  | _ => false
def AccKind.isAtomic : AccKind → Bool
  | .atomic _ _ | .atagg _ => true
  | _ => false
def AccKind.isWrite : AccKind → Bool
  | .store | .atomic _ _ | .atagg _ | .jcadd _ => true
  | _ => false

/-- CMAINT and JCADD are performed by events of their own. -/
def AccKind.isOwnEvent : AccKind → Bool
  | .cmaint .. | .jcadd _ => true
  | _ => false

/-- R273: the split that an access belongs to, as an agent. -/
def Flight.agent (f : Flight) : Agent := .split f.core f.group f.team f.split

/-- Every line of the access has been performed. -/
def Flight.performed (f : Flight) : Bool := f.reqs.all fun r => decide (r.st = .done)
/-- R282: every line of the access has been performed at a scope: a store in the L1 copy is, up to core scope. -/
def Flight.performedAt (f : Flight) (scope : Nat) : Bool :=
  f.reqs.all fun r => decide (r.st = .done) || (decide (scope ≤ 3) && decide (r.st = .seen))
/-- R140, R274: it is an acquire that other agents can tell. -/
def Flight.acquires (f : Flight) : Bool := decide (f.order % 2 = 1) && decide (f.scope ≠ 0)
/-- R89: some lanes of the access are parked. -/
def Flight.parked (f : Flight) : Bool := f.reqs.any fun r => decide (r.st = .parked)
/-- R136: the registers a load of width code W fills from the value read: one number per register. -/
def loadImage (w x : Nat) : List Nat :=
  let sx (n : Nat) := wrapInt 32 (intOf true n x)
  match w with
  | 0 => [x % 256]
  | 1 => [sx 8]
  | 2 => [x % 65536]
  | 3 => [sx 16]
  | 4 => [x % 2 ^ 32]
  | 5 => [x % 2 ^ 32, x / 2 ^ 32 % 2 ^ 32]
  | _ => [x % 2 ^ 32, x / 2 ^ 32 % 2 ^ 32, x / 2 ^ 64 % 2 ^ 32, x / 2 ^ 96 % 2 ^ 32]

/-- R38: the width in bytes of a width code. -/
def wBytes (w : Nat) : Nat := match w with | 0 | 1 => 1 | 2 | 3 => 2 | 4 => 4 | 5 => 8 | _ => 16

/-- The registers' numbers of a result of k registers per lane, from per-lane lists: register index, then lanes. -/
def columns (reg k : Nat) (rows : List (Nat × List Nat)) : List (Nat × List (Nat × Nat)) :=
  (List.range k).map fun j => (reg + j, rows.map fun r => (r.1, r.2.getD j 0))

/-- R148: ATAGG's results: old plus the running sum of the contributions. -/
def ataggRows (w old : Nat) : List (Nat × Nat) → Nat → List (Nat × Nat)
  | [], _ => []
  | (l, t) :: rest, run => (l, (old + run) % 256 ^ w) :: ataggRows w old rest (run + t)

/-- R272: one channel of SAMP: the weighted texels (weight in 1/64, f16 value), summed exactly and rounded once. -/
def filterChannel (taps : List (Nat × Nat)) : Nat :=
  match sumFV (taps.map fun t => prodFV (.fin false t.1 (-6)) (unpack f16 t.2)) with
  | .nan .. => 0x7E00
  | .inf n => f16.inf n
  | x => (roundDy f16 rneMode x.dy x.neg).1
/-- R272: the weight, in 1/64, of neighbour i + 2j of a texel position given in eighths. -/
def tapWeight (fu fw k : Nat) : Nat := (if k % 2 = 1 then fu else 8 - fu) * (if k / 2 = 1 then fw else 8 - fw)
/-- R272: SAMP's two registers from the taps read: neighbour and texel. -/
def sampWords (fu fw : Nat) (taps : List (Nat × Nat)) : List Nat :=
  let ch (c : Nat) : Nat := filterChannel (taps.map fun t => (tapWeight fu fw t.1, t.2 / 65536 ^ c % 65536))
  [ch 1 * 65536 + ch 0, ch 3 * 65536 + ch 2]

/-- What an access writes when it returns: per register, per lane; and the poisoned lanes (R365). -/
def Flight.results (f : Flight) : List (Nat × List (Nat × Nat)) × List Nat :=
  let accs := (f.reqs.flatMap fun r => r.lanes)
  let bad := (accs.filter fun a => a.poison).map (·.lane)
  let reg := match f.dst with | some d => d.2 | none => 0
  match f.kind with
  | .load w => (columns reg (loadImage w 0).length
      (accs.map (fun a => (a.lane, loadImage w a.result)) ++ f.zero.map fun l => (l, List.replicate 4 0)), bad)
  | .atomic _ et => (columns reg (atomWidth et / 4)
      (accs.map (fun a => (a.lane, [a.result % 2 ^ 32, a.result / 2 ^ 32])) ++ f.zero.map fun l => (l, [0, 0])), bad)
  | .atagg et =>
    let w := atomWidth et
    let rows := match accs with
      | a :: _ => ataggRows w a.result f.contrib 0
      | [] => f.zero.map fun l => (l, 0)
    (columns reg (w / 4) (rows.map fun r => (r.1, [r.2 % 2 ^ 32, r.2 / 2 ^ 32])), if bad = [] then [] else f.contrib.map (·.1))
  | .samp => (columns reg 2
      (f.contrib.map (fun q => (q.1, sampWords (q.2 / 8) (q.2 % 8) ((accs.filter fun a => decide (a.lane = q.1)).map fun a => (a.cmp, a.result)))) ++
        f.zero.map fun l => (l, [0, 0])), bad.eraseDups)
  | .loadRec => ([(reg, accs.map (fun a => (0, a.result)) ++ f.zero.map fun _ => (0, 0))], bad)
  | .loadMask =>
    -- R210: mask word i stands at 4i from the base; the request's lanes are the words
    ([(reg, [(0, accs.foldl (fun x a => x + a.result % 2 ^ 32 * 2 ^ (32 * a.lane)) 0)])], bad)
  | _ => ([], [])

/-- R89: the lanes of an access that have completed, as an access of their own. -/
def Flight.donePart (f : Flight) : Flight :=
  let wait := ((f.reqs.filter fun (r : LineReq) => decide (r.st ≠ .done)).flatMap fun r => r.lanes).map fun (a : LaneAcc) => a.lane
  { f with
    reqs := (f.reqs.filter fun (r : LineReq) => decide (r.st = .done)).map fun (r : LineReq) =>
      { r with lanes := r.lanes.filter fun (a : LaneAcc) => !(wait.contains a.lane) }
    contrib := if f.kind = .samp then f.contrib.filter (fun q => !(wait.contains q.1)) else f.contrib }
/-- R40 rule 4: what an access has brought back so far; a line that it may read again (R277) apart. -/
def Flight.arrivedPart (f : Flight) : Flight :=
  Flight.donePart { f with reqs := f.reqs.map fun (r : LineReq) => if r.early = true ∧ r.st = ReqSt.done then { r with st := ReqSt.ready } else r }
/-- The bits of some 32-bit words of a mask. -/
def wordBits (ws : List Nat) : LaneMask := maskOf 1024 (ws.flatMap fun w => (List.range 32).map (32 * w + ·))
/-- R210: the bits of a mask that an access has brought back. -/
def Flight.arrivedBits (f : Flight) : LaneMask := wordBits (f.reqs.flatMap fun (r : LineReq) => r.lanes.map fun (a : LaneAcc) => a.lane)
/-- R89: the lanes that have not. -/
def Flight.openPart (f : Flight) : Flight :=
  let wait := ((f.reqs.filter fun (r : LineReq) => decide (r.st ≠ .done)).flatMap fun r => r.lanes).map fun (a : LaneAcc) => a.lane
  { f with
    zero := []
    reqs := f.reqs.map fun (r : LineReq) => { r with lanes := r.lanes.filter fun (a : LaneAcc) => wait.contains a.lane }
    contrib := if f.kind = .samp then f.contrib.filter (fun q => wait.contains q.1) else f.contrib }
/-- A mask or a record comes back whole. -/
def AccKind.whole (k : AccKind) : Bool := match k with | .loadMask | .loadRec => true | _ => false

/-- R125: the accesses of a path that have returned leave in issue order: the counter counts those that remain. -/
def popReturned : List Flight → List (Nat × Nat) → List Flight
  | [], _ => []
  | f :: fs, blocked =>
    if f.returned ∧ !(blocked.contains (f.team, f.path)) then popReturned fs blocked
    else f :: popReturned fs ((f.team, f.path) :: blocked)

/-- R89: the lanes of an access that remain are all parked. -/
def Flight.onlyParked (f : Flight) : Bool :=
  f.parked && f.reqs.all fun r => decide (r.st = .parked ∨ r.st = .done)

end Sys2Proof.Machine
end

