-- ==== Sys2Proof/Machine/Ops.lean ====
section
/-!
DEFINITION. The named operations every meaning is written from: lookup and update of teams, splits, groups and cores;
registers with the hazards of R40; bytes of each address space; monitors; trace records; taking a trap and the group
path (R353, R367).
-/
namespace Sys2Proof.Machine

/-! ### Lookup and update -/

def State.team? (s : State) (id : Nat) : Option Team := s.teams.find? fun t => decide (t.id = id)
def State.group? (s : State) (id : Nat) : Option Group := s.groups.find? fun g => decide (g.id = id)
def State.core? (s : State) (id : Nat) : Option Core := s.cores.find? fun c => decide (c.id = id)
def State.ctx? (s : State) (asid : Nat) : Option Ctxt := s.ctxs.find? fun c => decide (c.asid = asid)
def State.node? (s : State) (id : Nat) : Option Node := s.nodes.find? fun n => decide (n.id = id)
def State.flight? (s : State) (id : Nat) : Option Flight := s.flights.find? fun f => decide (f.id = id)

def State.modTeam (s : State) (id : Nat) (f : Team → Team) : State :=
  { s with teams := s.teams.map fun t => if t.id = id then f t else t }
def State.modGroup (s : State) (id : Nat) (f : Group → Group) : State :=
  { s with groups := s.groups.map fun g => if g.id = id then f g else g }
def State.modCore (s : State) (id : Nat) (f : Core → Core) : State :=
  { s with cores := s.cores.map fun c => if c.id = id then f c else c }
def State.modCtx (s : State) (asid : Nat) (f : Ctxt → Ctxt) : State :=
  { s with ctxs := s.ctxs.map fun c => if c.asid = asid then f c else c }
def State.modNode (s : State) (id : Nat) (f : Node → Node) : State :=
  { s with nodes := s.nodes.map fun n => if n.id = id then f n else n }
def State.modFlight (s : State) (id : Nat) (f : Flight → Flight) : State :=
  { s with flights := s.flights.map fun x => if x.id = id then f x else x }

/-- A fresh identifier: also the age stamp of a split (R293) and the order of an access. -/
def State.fresh (s : State) : Nat × State := (s.nextId, { s with nextId := s.nextId + 1 })

/-- Send a message to the host (R383). -/
def State.send (s : State) (m : Msg) : State := { s with outbox := s.outbox ++ [m] }

/-- R378: a core is halted, for the swap of a partition that it belongs to. -/
def State.coreHalted (s : State) (core : Nat) : Bool := s.ctxs.any fun x => x.halted && x.mask.getLsbD core
/-- The group's part of its core runs: its image lies in no shadow region, and its core is not halted. -/
def State.coreHolds (s : State) (g : Group) : Bool := g.region.isNone && !(s.coreHalted g.core) && (s.ctx? g.asid).isSome

/-! ### Splits of a team -/

/-- R293: the live splits, resident and deferred. -/
def Team.live (t : Team) : List Split := t.splits ++ t.deferred
/-- A split of the team, the handler split included. -/
def Team.split? (t : Team) (uid : Nat) : Option Split :=
  (t.handler.toList ++ t.splits ++ t.deferred).find? fun p => decide (p.uid = uid)
def Team.modSplit (t : Team) (uid : Nat) (f : Split → Split) : Team :=
  let f' (p : Split) := if p.uid = uid then f p else p
  { t with splits := t.splits.map f', deferred := t.deferred.map f', handler := t.handler.map f' }
def State.modSplit (s : State) (tid uid : Nat) (f : Split → Split) : State := s.modTeam tid fun t => t.modSplit uid f

/-- R25: the lanes of a team of size n. -/
def lanesBelow (n : Nat) : LaneMask := BitVec.ofNat 1024 (2 ^ n - 1)
/-- The lane numbers of a mask, ascending, for a team of a given size. -/
def Team.lanes (t : Team) (x : LaneMask) : List Nat := bitsBelow x t.size
/-- R353: the union of the lane sets of the live splits. -/
def Team.owned (t : Team) : LaneMask := t.live.foldl (fun a p => a ||| p.own) 0
/-- R46: SSTAT_HI.DEPTH. -/
def Team.depth (t : Team) : Nat := t.sstatHi.toNat / 16 % 4
/-- R354: the team is in a handler, so its other splits are frozen. -/
def Team.frozen (t : Team) : Bool := t.handler.isSome
/-- R297: the lowest free slot of the split table. -/
def Team.freeSlot (t : Team) : Option Nat :=
  (List.range 8).find? fun i => !(t.splits.any fun p => decide (p.slot = i))
/-- R293: the stamp of a new split: younger than every split of the team. -/
def Team.stamp (t : Team) : Nat := (t.live ++ t.handler.toList).foldl (fun a p => max a (p.age + 1)) 0 % 2 ^ 32
def Team.freeSlots (t : Team) : Nat := 8 - t.splits.length

/-! ### Registers (R22, R25, R40, R43) -/

/-- The key of lane l of v register r. -/
def vKey (r l : Nat) : Nat := r * 1024 + l

/-- What a register's lane holds now. There are at most 1,024 lanes (R25). A mask is one value at lane 0; its absent lanes
read 0. -/
def Team.raw (t : Team) (f : RFile) (r l : Nat) : Nat :=
  match f with
  | .v => if l < 1024 then (sget 0 t.v (vKey r l)).toNat else 0
  | .g => (sget 0 t.g r).toNat
  | .m => (sget 0 t.m r &&& t.present).toNat
  | .b => (sget 0 t.b r).toNat

/-- R40: the bytes of an unmarked read: for each, the value before the first outstanding write that the free value
says is not done, the present value where all are. `k` numbers the entries. -/
def pickByte (nonce seed : Nat) (byte l : Nat) : List Unset → Nat → Nat → Nat
  | [], _, x => x
  | e :: es, k, x =>
    match e.olds.find? fun p => decide (p.1 = l) with
    | none => pickByte nonce seed byte l es (k + 1) x
    | some (_, old) =>
      let r := if e.ew = 64 then e.reg / 2 * 2 else e.reg
      let el := if 32 ≤ e.ew then 0 else byte / (e.ew / 8)
      if Config.hazardNew nonce ((((seed * 64 + k) * 256 + r) * 1024 + l) * 4 + el)
      then pickByte nonce seed byte l es (k + 1) x
      else old / 256 ^ byte % 256

/-- R40, R205: bit `l` of an unmarked read of a mask. -/
def pickBit (nonce l : Nat) : List Unset → Nat → Bool → Bool
  | [], _, x => x
  | e :: es, k, x =>
    if !(e.bits.getLsbD l) || Config.hazardNew nonce (((192 + k) * 256 + e.reg) * 1024 + l) then pickBit nonce l es (k + 1) x
    else match e.olds with
      | (_, old) :: _ => old.testBit l
      | [] => x

/-- The outstanding writes a split's read of a register must reckon with (R40 rule 4, R43). -/
def Team.hazards (t : Team) (uid : Nat) (f : RFile) (r : Nat) : List Unset :=
  let anc := match t.split? uid with | some p => p.anc | none => []
  t.unset.filter fun e => decide (e.file = f) && decide (e.reg = r) && !(e.settled && (decide (e.owner = uid) || anc.contains e.owner))

/-- R40, R43: read one lane of a register as an instruction of split `uid` does. -/
def Team.read (t : Team) (nonce uid : Nat) (f : RFile) (r l : Nat) : Nat :=
  match t.hazards uid f r with
  | [] => t.raw f r l
  | es =>
    let x := t.raw f r l
    match f with
    | .m => ((List.range t.size).filter fun i => pickBit nonce i es 0 (x.testBit i)).foldl (fun a i => a + 2 ^ i) 0
    | _ =>
      let seed := match f with | .v => 0 | .g => 1 | _ => 2
      (List.range 4).foldl (fun a b => a + pickByte nonce seed b l es 0 (x / 256 ^ b % 256) * 256 ^ b) 0

/-- Set a register's lanes without any record. -/
def Team.put (t : Team) (f : RFile) (r : Nat) (vals : List (Nat × Nat)) : Team :=
  match f with
  | .v => { t with v := ssets 0 t.v ((vals.filter fun p => decide (p.1 < 1024)).map fun p => (vKey r p.1, BitVec.ofNat 32 p.2)) }
  | .g => { t with g := ssets 0 t.g (vals.map fun p => (r, BitVec.ofNat 32 p.2)) }
  | .m => { t with m := ssets 0 t.m (vals.map fun p => (r, BitVec.ofNat 1024 p.2 &&& t.present)) }
  | .b => { t with b := ssets 0 t.b (vals.map fun p => (r, BitVec.ofNat 128 p.2)) }

/-- R364: mark a register written in the team's region. -/
def Team.markWritten (t : Team) (f : RFile) (r : Nat) : Team :=
  { t with region := t.region.map fun q =>
      if q.written.contains (f, r) then q else { q with written := q.written ++ [(f, r)] } }

/-- Earlier writes of some lanes of a register that have been written by now: those waited for, and, where the write is
itself the arrival of a result, those of the same split (R40 rule 5). No read can see behind them any more. -/
def overtake (es : List Unset) (owner ew : Nat) (f : RFile) (r : Nat) (bits : LaneMask) (vals : List (Nat × Nat)) : List Unset :=
  (es.map fun (e : Unset) =>
    if e.file = f ∧ e.reg = r ∧ (e.settled ∨ (ew = 0 ∧ e.owner = owner)) then
      if f = .m then (if e.bits &&& ~~~bits = 0 then { e with olds := [] } else { e with bits := e.bits &&& ~~~bits })
      else { e with olds := e.olds.filter fun o => !(vals.any fun p => decide (p.1 = o.1)) }
    else e).filter fun e => decide (e.olds ≠ [])

/-- R40: the results owed to a split for a register. -/
def Team.owedTo (t : Team) (owner : Nat) (f : RFile) (r : Nat) : List Nat :=
  (t.awaits.filter fun a => decide (a.owner = owner) && decide (a.file = f) && decide (a.reg ≤ r) && decide (r < a.reg + a.count)).map (·.tok)

/-- A register write: the new lanes stand at once; what they held stays readable by unmarked reads (R40), except of b
registers, which are interlocked (R34). A write clears the poison of its lanes (R365) and marks the region (R364). Of a
mask, `bits` are set (R205). -/
def Team.writeOn (t : Team) (owner ew : Nat) (f : RFile) (r : Nat) (bits : LaneMask) (vals : List (Nat × Nat)) : Team :=
  match vals with
  | [] => t
  | _ =>
    let olds := vals.map fun p => (p.1, t.raw f r p.1)
    let t' := (t.put f r vals).markWritten f r
    let t' := if t'.poison = [] then t' else
      { t' with poison := t'.poison.filter fun q => !(decide (q.1 = f) && decide (q.2.1 = r) && vals.any fun p => decide (p.1 = q.2.2)) }
    let t' := if t'.unset = [] then t' else { t' with unset := overtake t'.unset owner ew f r bits vals }
    if f = .b ∨ ew = 0 then t' else { t' with unset := t'.unset ++ [⟨owner, f, r, ew, olds, false, bits, t.owedTo owner f r, none⟩] }

/-- A register write of whole lanes, or of a whole mask. -/
def Team.write (t : Team) (owner ew : Nat) (f : RFile) (r : Nat) (vals : List (Nat × Nat)) : Team :=
  t.writeOn owner ew f r (BitVec.allOnes 1024) vals

/-- R205: the lane form of a mask write: the bits of some lanes. -/
def Team.writeBits (t : Team) (owner r : Nat) (lanes x : LaneMask) : Team :=
  t.writeOn owner 32 .m r lanes [(0, ((BitVec.ofNat 1024 (t.raw .m r 0) &&& ~~~lanes) ||| (x &&& lanes)).toNat)]

/-- R40 rule 2: every result of the split has been written. With no other live split nothing is left to tell. -/
def Team.settle (t : Team) (uid : Nat) : Team :=
  if t.unset = [] then t
  else if (t.live.length ≤ 1 ∧ t.handler = none) then { t with unset := t.unset.filter fun e => decide (e.owner ≠ uid) }
  else { t with unset := t.unset.map fun e => if e.owner = uid then { e with settled := true } else e }

/-- R41, R43: at a barrier that all its splits pass, a handler entry, a TRET or a stop nothing of the team is left outstanding. -/
def Team.settleAll (t : Team) : Team := { t with unset := [] }

/-- R40: the split owes a register result that an event writes. -/
def Team.owes (t : Team) (uid : Nat) : Bool := t.awaits.any fun a => decide (a.owner = uid)

/-- R40 rule 5: a later write of the split already stands over the result in this lane of a register. -/
def Team.covered (t : Team) (tok : Nat) (f : RFile) (r l : Nat) : Bool :=
  t.unset.any fun e => decide (e.file = f) && decide (e.reg = r) && e.above.contains tok &&
    (if f = .m then e.bits.getLsbD l else e.olds.any fun o => decide (o.1 = l))

/-- R40 rules 4 and 5: a result arrives beneath the first later write of each of its lanes: it is what that write
replaced. -/
def slipUnder (tok : Nat) (f : RFile) (r : Nat) : List Unset → LaneMask → List (Nat × Nat) → List Unset
  | [], _, _ => []
  | e :: es, bits, vals =>
    if e.file = f ∧ e.reg = r ∧ e.above.contains tok = true then
      if f = .m then
        let x := BitVec.ofNat 1024 ((vals.headD (0, 0)).2)
        { e with olds := e.olds.map fun o => (o.1, ((BitVec.ofNat 1024 o.2 &&& ~~~(bits &&& e.bits)) ||| (x &&& bits &&& e.bits)).toNat)
                 above := e.above.filter (· ≠ tok) } :: slipUnder tok f r es (bits &&& ~~~e.bits) vals
      else
        { e with olds := e.olds.map fun o => (match vals.find? fun p => decide (p.1 = o.1) with | some p => p | none => o)
                 above := e.above.filter (· ≠ tok) } ::
          slipUnder tok f r es bits (vals.filter fun p => !(e.olds.any fun o => decide (o.1 = p.1)))
    else e :: slipUnder tok f r es bits vals

/-- The results of an event reach one register (R40): where a later write stands they arrive beneath it, elsewhere they
stand at once. Results that are owed to the split from before it, and other splits (R43), leave them old or new. -/
def Team.land (t : Team) (tok owner : Nat) (f : RFile) (r : Nat) (vals : List (Nat × Nat)) (path : Option Nat := none) : Team :=
  let bits : LaneMask := if f = .m then maskOf 1024 ((List.range 1024).filter fun l => !(t.covered tok f r l)) else 0
  let up := if f = .m then (match vals with
      | (k, x) :: _ => if bits = 0 then [] else [(k, ((BitVec.ofNat 1024 (t.raw .m r 0) &&& ~~~bits) ||| (BitVec.ofNat 1024 x &&& bits)).toNat)]
      | [] => [])
    else vals.filter fun p => !(t.covered tok f r p.1)
  let olds := up.map fun p => (p.1, t.raw f r p.1)
  let t' := { t with unset := slipUnder tok f r t.unset (BitVec.allOnes 1024) vals }
  let t' := t'.writeOn owner 0 f r bits up
  let before := (t.owedTo owner f r).filter (· < tok)
  if up = [] ∨ f = .b ∨ (before = [] ∧ t.live.length ≤ 1 ∧ t.handler = none) then t'
  else { t' with unset := t'.unset ++ [⟨owner, f, r, 32, olds, decide (before = []), bits, before, path.map fun p => (p, tok)⟩] }

/-- R126: the results of a path that a split has waited for: those that accesses have brought back which the counter no longer
counts. -/
def Team.settlePath (t : Team) (uid path : Nat) (counted : List Nat) : Team :=
  if t.unset = [] then t
  else { t with unset := t.unset.map fun e => match e.path with
    | some (p, i) => if e.owner = uid ∧ p = path ∧ !(counted.contains i) then { e with settled := true } else e
    | none => e }

/-- A result owed under a token is written, by the event that produces it (R40). -/
def Team.deliver (t : Team) (tok : Nat) (f : RFile) (vals : List (Nat × List (Nat × Nat))) (path : Option Nat := none) : Team :=
  let owner := match t.awaits.find? fun a => decide (a.tok = tok) with | some a => a.owner | none => 0
  let t' := vals.foldl (fun t p => t.land tok owner f p.1 p.2 path) t
  { t' with awaits := t'.awaits.filter fun a => decide (a.tok ≠ tok) }

/-! ### The registers of R46 by name -/

def Split.modeEtype (p : Split) : Nat := p.mode.toNat % 16
def Split.modeRm (p : Split) : Nat := p.mode.toNat / 16 % 8
def Split.modeSat (p : Split) : Bool := p.mode.getLsbD 7
def Split.modeFtz (p : Split) : Bool := p.mode.getLsbD 8
def Split.modeGuard (p : Split) : Nat := p.mode.toNat / 512 % 16
def Split.modeGinv (p : Split) : Bool := p.mode.getLsbD 13
def Split.modeHchk (p : Split) : Bool := p.mode.getLsbD 14
def Split.modeNanp (p : Split) : Bool := p.mode.getLsbD 15
def Split.modeScope (p : Split) : Nat := p.mode.toNat / 65536 % 8
def Split.modeOrder (p : Split) : Nat := p.mode.toNat / 524288 % 4

/-- R30: a value MODE may not take: RM 6 or 7, ETYPE 13 to 15, a set bit in [31:21]. -/
def modeReserved (x : Word) : Bool :=
  decide (6 ≤ x.toNat / 16 % 8) || decide (13 ≤ x.toNat % 16) || decide (2 ^ 21 ≤ x.toNat)

/-- R174, R47: OR exceptions into STICKY. -/
def Team.stick (t : Team) (fl : Nat) : Team :=
  { t with sticky := t.sticky ||| BitVec.ofNat 32 fl, raised := t.raised ||| BitVec.ofNat 32 fl }
/-- STICKY.BOUND (R77) and STICKY.DEPTH (R326). -/
def bBOUND : Nat := 256
def bDEPTH : Nat := 512

/-- R46: TEAM, the register. -/
def Team.teamReg (t : Team) : Nat := t.serial % 65536 * 64 + t.slot % 64

/-! ### Bytes -/

/-- The canonical form of main memory: addresses strictly rising, no entry equal to what an unlisted address reads as
(log 1). -/
def Memory.wf (m : List Host.Cell) : Bool := swf 0 m

def State.rdByte (s : State) (sp : Space) (a : Nat) : Byte :=
  match sp with
  | .glob => sget 0 s.mem a
  | .win g => match s.group? g with | some g => sget 0 g.win a | none => 0
  | .priv t => match s.team? t with | some t => sget 0 t.priv a | none => 0
  | .loft => sget 0 s.loft a

/-- R4: n bytes, little-endian. -/
def State.rd (s : State) (sp : Space) (a n : Nat) : Nat := leNat (s.rdByte sp) a n

/-- The (address, byte) pairs of an n-byte little-endian value. -/
def cellsOf (a n x : Nat) : List (Nat × Byte) := (List.range n).map fun i => (a + i, byteOf x i)

/-- R71, R107: the sectors that [a, a+n) covers whole, whose poison a write clears. -/
def State.clearPoison (s : State) (sp : Space) (cells : List (Nat × Byte)) : State :=
  if s.poisoned = [] then s
  else { s with poisoned := s.poisoned.filter fun q =>
    !(decide (q.1 = sp) && (List.range 16).all fun i => cells.any fun c => decide (c.1 = q.2 * 16 + i)) }

/-- Whether a byte range touches a poisoned sector. -/
def State.isPoisoned (s : State) (sp : Space) (a n : Nat) : Bool :=
  s.poisoned.any fun q => decide (q.1 = sp) && decide (a < q.2 * 16 + 16) && decide (q.2 * 16 < a + n)

/-- R377: a place of a local level is there: its group is on a core. -/
def State.spaceThere (s : State) (sp : Space) : Bool :=
  match sp with | .win g => (match s.group? g with | some x => x.here | none => true) | _ => true

/-- Write bytes of a space: nothing but the bytes and the poison of whole sectors. -/
def State.wrCells (s : State) (sp : Space) (cells : List (Nat × Byte)) : State :=
  let s := s.clearPoison sp cells
  match sp with
  | .glob => { s with mem := ssets 0 s.mem cells }
  | .win g => s.modGroup g fun x => { x with win := ssets 0 x.win cells }
  | .priv t => s.modTeam t fun x => { x with priv := ssets 0 x.priv cells }
  | .loft => { s with loft := ssets 0 s.loft cells }

/-! ### Monitors (R150 to R153) -/

/-- R153: a waiting WAITMON ends with a reason: g[D] is written, the split goes on, and the monitor is disarmed, but for
one that the stop of reason 2 has fired, which does not count for this wait. -/
def Team.wake (t : Team) (uid reason : Nat) : Team :=
  match t.split? uid with
  | none => t
  | some p =>
    match p.monWait with
    | none => t
    | some w =>
      (t.write uid 32 .g w.dst [(0, reason)]).modSplit uid fun q =>
        { q with monWait := none, mon := if reason = 2 then q.mon else .disarmed, st := .ready, pc := q.pc + 4 }

/-- R354: no handler of the team freezes the split. -/
def Team.thawed (t : Team) (uid : Nat) : Bool := match t.handler with | some h => decide (h.uid = uid) | none => true

/-- R151: the monitor of a split fires; a waiting split that is not frozen and not stopped goes on with reason 0. -/
def Team.fire (t : Team) (uid : Nat) : Team :=
  match t.split? uid with
  | none => t
  | some p =>
    if p.mon = .armed then
      let t' := t.modSplit uid fun q => { q with mon := .fired }
      if p.st = .monWait ∧ t.thawed uid = true ∧ t.residence = .resident ∧ (p.monWait.bind (·.reason)) = none then t'.wake uid 0
      else t'
    else t

/-- R151: a write reaches a line: every monitor registered for it fires and its registration ends. -/
def State.fireLine (s : State) (line : Nat) : State :=
  if s.monRegs.any fun r => decide (r.2.2.2 = line) then
    let hit := s.monRegs.filter fun r => decide (r.2.2.2 = line)
    let s := { s with monRegs := s.monRegs.filter fun r => decide (r.2.2.2 ≠ line) }
    hit.foldl (fun s r => s.modTeam r.2.1 fun t => t.fire r.2.2.1) s
  else s

/-- R151: a write reaches the arming core's L1 or the L2: the monitors of that core's splits on the line fire. -/
def State.fireLocal (s : State) (core : Option Nat) (line : Nat) : State :=
  let hit := s.monRegs.filter fun r => decide (r.2.2.2 = line) && (match core with
    | none => true
    | some c => (match s.team? r.2.1 with | some t => decide (t.core = c) | none => false))
  if hit = [] then s
  else hit.foldl (fun s r => { s.modTeam r.2.1 (fun t => t.fire r.2.2.1) with
    monRegs := s.monRegs.filter fun q => decide (q ≠ r) }) s

/-- A write performed at the SLC: bytes, poison of whole sectors, the sectors that are now dirty (R14), staged copies
(R330), monitors (R151). -/
def State.slcWrite (s : State) (cells : List (Nat × Byte)) : State :=
  let lines := (cells.map fun c => c.1 / 64).eraseDups
  let s := s.wrCells .glob cells
  let s := lines.foldl (fun s l =>
    s.slcMark l ((List.range 4).filter fun k => cells.any fun c => decide (c.1 / 16 = 4 * l + k))) s
  let s := { s with staged := s.staged.filter fun q => !(lines.contains q.2.1) }
  lines.foldl (fun s l => s.fireLine l) s

/-! ### Speculation (R155, R284) -/

/-- R365: the register lanes that poisoned results of an access reach: those over which no later write of the split stands
(R40 rule 5). -/
def Team.spoilt (t : Team) (fid : Nat) (file : RFile) (cols : List (Nat × List (Nat × Nat))) (bad : List Nat) : List (RFile × Nat × Nat) :=
  cols.flatMap fun c => (bad.filter fun l => !(t.covered fid file c.1 l)).map fun l => (file, c.1, if file = RFile.v then l else 0)
/-- R365: they are marked. -/
def Team.mark (t : Team) (marks : List (RFile × Nat × Nat)) : Team :=
  if marks = [] then t else { t with poison := t.poison ++ marks }

/-- R125, R136, R365: an access returns: its destination is written in every lane, poisoned data marks its lanes, and its
counter falls. -/
def State.endFlight (s : State) (f : Flight) : State :=
  let (cols, bad) := f.results
  let s := match f.dst with
    | none => s
    | some (file, _) =>
      s.modTeam f.team fun t => (t.deliver f.id file cols (some f.path)).mark (t.spoilt f.id file cols bad)
  let s := s.modFlight f.id fun f => { f with returned := true }
  { s with flights := popReturned s.flights [] }

/-- R89: an access without its parked lanes. -/
def Flight.unparked (f : Flight) : Flight :=
  let lost := ((f.reqs.filter fun (r : LineReq) => decide (r.st = .parked)).flatMap fun r => r.lanes).map fun (a : LaneAcc) => a.lane
  { f with
    reqs := f.reqs.filter fun (r : LineReq) => decide (r.st ≠ .parked)
    contrib := if f.kind = .samp then f.contrib.filter (fun q => !(lost.contains q.1)) else f.contrib }

/-- R89: the parked lanes of an access will never replay (R155, R351); its other lanes complete. -/
def State.abandonFlight (s : State) (fid : Nat) : State :=
  match s.flight? fid with
  | none => s
  | some f =>
    let s := s.modFlight fid fun _ => f.unparked
    if f.unparked.performed then s.endFlight f.unparked else s

/-- The split is this agent. -/
def Agent.isSplit (a : Agent) (tid uid : Nat) : Bool :=
  match a with | .split _ _ t u => decide (t = tid ∧ u = uid) | _ => false
/-- R274: two groups are members of one yard. -/
def State.sameYard (s : State) (g h : Nat) : Bool :=
  s.yards.any fun y => (y.members.any fun m => decide (m.group = g)) && y.members.any fun m => decide (m.group = h)
/-- R274: the instance of a scope of an agent of a core, a group and a team takes in another agent. -/
def State.within (s : State) (core group team scope : Nat) (o : Agent) : Bool :=
  match o with
  | .split c g t _ => decide (5 ≤ scope) || (decide (scope = 4) && (decide (g = group) || s.sameYard group g)) ||
      (decide (scope = 3) && decide (c = core)) || (decide (scope = 2) && decide (g = group)) || (decide (scope = 1) && decide (t = team))
  | .engine c g => decide (5 ≤ scope) || (decide (scope = 4) && (decide (g = group) || s.sameYard group g)) ||
      (decide (scope = 3) && decide (c = core)) || (decide (scope = 2) && decide (g = group))
  | .device => decide (5 ≤ scope)
  | .host _ plat => if plat then decide (7 ≤ scope) else decide (6 ≤ scope)
/-- R277: an agent acquires at a scope. What it takes in from those that may know of a missed write it may know too. -/
def State.acquired (s : State) (core group team scope : Nat) (me : Agent) : State :=
  if scope = 0 ∨ (s.flights.all fun f => f.reqs.all fun r => decide (r.heard = [])) = true then s
  else
    let hear (r : LineReq) : LineReq :=
      if r.heard.any (s.within core group team scope) ∧ !(r.heard.contains me) then { r with heard := r.heard ++ [me] } else r
    { s with flights := s.flights.map fun f => { f with reqs := f.reqs.map hear } }
/-- The same for a split. -/
def State.splitAcquires (s : State) (tid uid scope : Nat) : State :=
  match s.team? tid with
  | some t => s.acquired t.core t.group tid scope (.split t.core t.group tid uid)
  | none => s

/-- A store none of whose lanes reaches memory leaves. -/
def State.cancelFlight (s : State) (fid : Nat) : State :=
  let s := s.modFlight fid fun f => { f with returned := true, reqs := [] }
  { s with flights := popReturned s.flights [] }

/-- R155: discard the speculation of a split: its held stores go, and it restarts at its FENCE. Kinds 0 and 1 only. -/
def State.discardFence (s : State) (tid uid : Nat) : State :=
  match (s.team? tid).bind (·.split? uid) with
  | none => s
  | some p =>
    match p.fence with
    | none => s
    | some f =>
      if 2 ≤ f.kind then s
      else
        let s := { s with flights := s.flights.filter fun x => !(x.held && decide (x.team = tid) && decide (x.split = uid)) }
        let s := match p.park with
          | some ⟨.access fid, _, _, _, _, _, _⟩ => s.abandonFlight fid
          | _ => s
        s.modSplit tid uid fun q =>
          { q with fence := none, pc := f.pc, st := .ready, park := none,
                   restarts := if q.restartPc = f.pc then q.restarts + 1 else 1, restartPc := f.pc }

/-- R284: a write or an invalidation conflicts with the read sets of speculating splits other than the writer. -/
def State.conflict (s : State) (sp : Space) (line : Nat) (writer : Agent) (core : Option Nat) : State :=
  let hits := s.teams.flatMap fun t =>
    (t.live ++ t.handler.toList).filterMap fun p =>
      match p.fence with
      | some f => if f.readSet.contains (sp, line) && !(writer.isSplit t.id p.uid)
                    && (match core with | some c => decide (t.core = c) | none => true) then some (t.id, p.uid) else none
      | none => none
  hits.foldl (fun s h => s.discardFence h.1 h.2) s

/-- A write to a local level (R282): the bytes, and the speculation of other agents that read the lines. -/
def State.localWrite (s : State) (sp : Space) (cells : List (Nat × Byte)) (writer : Agent) : State :=
  let lines := (cells.map fun c => c.1 / 64).eraseDups
  lines.foldl (fun s l => s.conflict sp l writer none) (s.wrCells sp cells)

/-! ### Trace records (R399) -/

/-- R399: a record of a team's split sets out for the ring; it takes its place there when it reaches the SLC. -/
def State.traceRecord (s : State) (tid uid : Nat) (words : List Nat) : State :=
  if s.dbg.ringSize = 0 then s
  else
    let (i, s) := s.fresh
    { s with dbg := { s.dbg with ringQ := s.dbg.ringQ ++ [(i, (tid, uid), words)] } }
/-- R399: the free bytes of the ring. -/
def Dbg.ringFree (d : Dbg) : Nat :=
  if d.ringRp = d.ringWp then d.ringSize else (d.ringRp + d.ringSize - d.ringWp) % d.ringSize
/-- R399: a record takes its bytes of the ring, or is dropped and counted: one that would reach RINGRP. R60: a byte at an
unbacked address is not written, nor one in a frame that a key owns (DESIGN CHOICE, log 33). -/
def State.ringWrite (s : State) (words : List Nat) : State :=
  let d := s.dbg
  let len := words.length * 4
  if d.ringSize = 0 then s
  else if d.ringFree ≤ len then { s with dbg := { d with drops := min 0xFFFFFFFF (d.drops + 1) } }
  else
    let cells := ((List.range len).map fun i =>
      (d.ringBase + (d.ringWp + i) % d.ringSize, byteOf (words.getD (i / 4) 0) (i % 4))).filter fun q =>
        s.backed q.1 && decide (sget 0 s.frameOwner (q.1 / 4096) = 0)
    { s.slcWrite cells with dbg := { d with ringWp := (d.ringWp + len) % d.ringSize } }

/-! ### The group path (R367 to R369) -/

/-- R229: a command that has not finished, been discarded or failed. -/
def EngCmd.unfinished (c : EngCmd) : Bool := decide (c.st ≠ .done) && decide (c.st ≠ .failed)

/-- R228: the team has unfinished MLOOP or MACC commands. -/
def State.cellWork (s : State) (t : Team) : Bool :=
  match s.group? t.group with
  | some g => g.engs.any fun e => decide (e.1 % 8 = 2) &&
      e.2.cmds.any fun c => decide (c.team = t.id) && decide (c.op = .mloop ∨ c.op = .macc) && c.unfinished
  | none => false

/-- R313, R341: a team leaves every claim queue, and the token queue unless its accepted commands wait there. -/
def State.leaveQueues (s : State) (tid : Nat) (tokens : Bool := true) : State :=
  { s with gov := { s.gov with queue := if tokens then s.gov.queue.filter (· ≠ tid) else s.gov.queue }
           rpcQ := s.rpcQ.filter (fun r => r.1 ≠ tid)
           cores := s.cores.map fun c => { c with quads := c.quads.map fun q =>
             (q.1, { q.2 with claims := q.2.claims.filter fun r => r.1 ≠ tid }) } }

/-- R342: tokens that a grid returns: retired while more than POOL would exist, else free. -/
def Gov.returnTokens (g : Gov) (n held : Nat) : Gov :=
  -- `held` counts the tokens still held by other grids
  { g with free := min (g.free + n) (g.pool - held) }

/-- The tokens held by the grids of all teams. -/
def State.tokensHeld (s : State) : Nat :=
  (s.teams.map fun t => match t.grid with | some g => g.tokens | none => 0).sum

/-- R388: the tickets a team still holds free when it ends. -/
def State.freeTickets (s : State) (tid : Nat) : State :=
  { s with tickets := s.tickets.filter fun k => match k.2 with | .team t _ => decide (t ≠ tid) | _ => true }

/-- R113: a group's place in its yard goes; the yard goes with its last member, unless joins wait for it. -/
def State.revokeYard (s : State) (gid : Nat) : State :=
  let ys := s.yards.map fun y => { y with members := y.members.filter fun m => m.group ≠ gid
                                          waiting := y.waiting.filter fun w => w.group ≠ gid }
  { s with yards := ys.filter fun y => !(y.members.isEmpty && y.waiting.isEmpty) }

/-- R281: of an access of a team that goes, what its core has seen and the SLC has not performed; that still reaches the
SLC. -/
def Flight.seenPart (f : Flight) : Option Flight :=
  match f.reqs.filter (fun (r : LineReq) => decide (r.st = .seen)) with
  | [] => none
  | rs => some { f with reqs := rs, dst := none, after := [] }

/-- What goes with a team that stops for good: its tokens, its queue places, its tickets, its accesses. -/
def State.dropTeam (s : State) (tid : Nat) : State :=
  let toks := match (s.team? tid).bind (·.grid) with | some g => g.tokens | none => 0
  let quads := (s.team? tid).bind fun t => t.grid.bind fun g => if g.retake then none else some (t.core, g.quads)
  let s := (s.leaveQueues tid).freeTickets tid
  let s := { s with teams := s.teams.filter fun t => t.id ≠ tid
                    flights := s.flights.filterMap fun (f : Flight) => if f.team = tid then f.seenPart else some f
                    jcAdds := s.jcAdds.filter fun a => !(s.flights.any fun f => decide (f.team = tid) && decide (f.id = a.id))
                    monRegs := s.monRegs.filter fun r => r.2.1 ≠ tid }
  { s with gov := s.gov.returnTokens toks s.tokensHeld
           -- its cells compute no more, and none of its passes issues
           cores := s.cores.map fun core =>
             let k : Core := { core with passes := core.passes.filter fun p => decide (p.team ≠ tid) }
             match quads with
             | some (c, qs) => if k.id = c then { k with quads := k.quads.map fun q => if qs.contains q.1 then (q.1, { q.2 with clocks := 0 }) else q } else k
             | none => k
           cur := if (s.cur.map (·.1)) = some tid then none else s.cur }

/-- R318: queue an add to a node's join counter; address 0 disables it. -/
def State.jcAdd (s : State) (asid addr value : Nat) : State :=
  if addr = 0 ∨ value = 0 then s
  else
    let (i, s) := s.fresh
    { s with jcAdds := s.jcAdds ++ [⟨i, asid, addr, value, false⟩] }

/-- R318, R320: the join counter address of a node. -/
def Node.jca (n : Node) : Nat :=
  if n.jcaSpawn ≠ 0 then n.jcaSpawn else match n.header with | some h => h.jca | none => 0

/-- R367 to R369: the group path. The group is killed; it is relaunched when its launch is idempotent and the limit is
not reached, and otherwise ends in error. `relaunch` is false where a rule kills without relaunch; `report` false where
nothing is added or reported (R385). -/
def State.groupPath (s : State) (gid code detail : Nat) (relaunch report : Bool) : State :=
  match s.group? gid with
  | none => s
  | some g =>
    let tids := (s.teams.filter fun t => t.group = gid).map (·.id)
    let s := tids.foldl (fun s i => s.dropTeam i) s
    let s := s.revokeYard gid
    let s := { s with groups := s.groups.filter fun x => x.id ≠ gid
                      poisoned := s.poisoned.filter fun q => !(decide (q.1 = Space.win gid) || tids.any fun i => decide (q.1 = Space.priv i)) }
    match s.node? g.node with
    | none => s
    | some n =>
      let retry := match n.header with | some h => h.retry | none => 0
      if relaunch && g.idem && decide (g.relaunch < retry) then
        s.modNode n.id fun n => { n with live := n.live - 1, again := n.again ++ [(g.gamma, g.relaunch + 1, g.words, g.depth)] }
      else
        let s := s.modNode n.id fun n => { n with live := n.live - 1 }
        if report then
          (s.jcAdd n.asid n.jca (2 ^ 32)).send (.groupError g.asid n.handle g.gamma (BitVec.ofNat 32 (detail % 65536 * 65536 + code)))
        else s

/-! ### Taking a trap (R352 to R356) -/

/-- R371: a wait that goes on where it left off: the instruction keeps what it has read, an ATLNEXT the request that it has
taken (R269). -/
def keepsWait : Instr → Bool
  | .waitt _ | .bwait _ | .waitp _ | .mwait _ | .rpcwait _ | .atlnext _ => true
  | _ => false
/-- The instruction that a BLOCKED split waits in issues anew. -/
def Split.rewound (p : Split) : Split :=
  { p with st := .ready, ahead := [], clocked := false, busy := match p.busy with | some (i, vs) => if keepsWait i then some (i, vs) else none | none => none }
/-- R354: what freezing does to a waiting split: a WAITMON ends, and disarms its monitor (R153). -/
def Split.freeze (p : Split) : Split :=
  match p.st with
  | .monWait => { p with monWait := p.monWait.map (fun w => { w with reason := some (w.reason.getD 1) }), mon := .disarmed }
  | .blocked => p.rewound
  | _ => p

/-- R353 steps 2 to 4 on the team: the depth-1 set is saved at a nested entry, the trap registers and m15 are written,
the handler split starts at TRAPV. `f` is the split F, `slot` what shows it, `uid` a fresh identifier. -/
def Team.enterHandler (t : Team) (f : Split) (slot code detail : Nat) (lanes : LaneMask) (skip : Bool) (epc : Word) (uid : Nat) : Team :=
  let d := t.depth
  let nested := decide (d = 1)
  let own := t.owned
  let hi := (d + 1) * 16 + (if skip then 8 else 0) + (if nested then 0 else slot)
  let t := { t.settleAll with
    saved1 := if nested then some ⟨t.cause, t.epc, t.sstatLo, t.sstatHi, sget 0 t.m 15⟩ else t.saved1
    m15save := if nested then t.m15save else sget 0 t.m 15
    trapped := if nested then t.trapped else some f.uid
    cause := BitVec.ofNat 32 (detail % 65536 * 65536 + code)
    epc := epc
    sstatLo := f.mode
    sstatHi := BitVec.ofNat 32 hi
    m := sset 0 t.m 15 (lanes &&& t.present)
    splits := if nested then t.splits else t.splits.map Split.freeze
    handler := some { uid := (match t.handler with | some h => h.uid | none => uid), slot := 0, pc := t.trapv, own := own,
                      exec := own, mode := 0, age := t.stamp, res := t.cycle % 2 ^ 32, psig := f.psig } }
  t.markWritten .m 15

/-- The slot that shows a split in a record or in SSTAT_HI: its own; for a deferred split no rule states one. -/
def State.shownSlot (s : State) (t : Team) (p : Split) : Nat :=
  if t.deferred.any fun q => decide (q.uid = p.uid) then Config.openValue (9 + 16 * p.uid) s.nonce % 8 else p.slot

/-- R353, R356, R401: a handler trap of split `uid` is taken. At depth 2 the group takes the group path (code 339, or
340 for the nested trap of a TRET). -/
def State.takeTrap (s : State) (tid uid code detail : Nat) (lanes : LaneMask) (skip : Bool) (epc : Word) (tret : Bool) : State :=
  match s.team? tid with
  | none => s
  | some t =>
    match t.split? uid with
    | none => s
    | some f =>
      if 2 ≤ t.depth then s.groupPath t.group (if tret then 340 else 339) detail true true
      else
        let s := t.live.foldl (fun s p => if p.uid = uid then s else s.discardFence tid p.uid) s
        let s := s.leaveQueues tid (!(s.cellWork t))
        let (new, s) := s.fresh
        s.modTeam tid fun t => t.enterHandler f (s.shownSlot t f) code detail lanes skip epc new

/-! ### Blocking (R294) -/

/-- The split waits at its instruction, which has read some values. -/
def State.block (s : State) (tid uid : Nat) (i : Instr) (vals : List Nat) : State :=
  s.modSplit tid uid fun p => { p with st := .blocked, busy := some (i, vals) }
/-- An event ends the instruction the split waits in, rather than its issuing again. -/
def Split.awaitsEvent (p : Split) : Bool :=
  match p.busy with
  | some (.claim _, _) | some (.grid _, _) | some (.ungrid _, _) | some (.mxv _, _ :: _ :: _) | some (.rbox _, _ :: _ :: _) => true
  | _ => false
/-- The event ends it: the split goes on behind the instruction. -/
def Split.proceed (p : Split) : Split := { p with st := .ready, busy := none, pc := p.pc + 4, ahead := [], clocked := false, exempt := false }

/-- R311: the units a team's allotment takes, and those a quad has free. -/
def Team.units (t : Team) : Nat := t.gran * t.size / 32
/-- R371, R376, R380: a team takes room on its core: it is not evicted, and its group's image does not lie elsewhere. -/
def State.onCore (s : State) (t : Team) : Bool :=
  (match t.residence with | .evicted _ => false | .saved => false | _ => true) &&
  (match s.group? t.group with | some g => g.region.isNone | none => true)
def State.homed (s : State) (core quad : Nat) : List Team :=
  s.teams.filter fun t => decide (t.core = core) && decide (t.quad = quad) && s.onCore t
/-- R211: the team that has quad q of a core gridded. -/
def State.gridder (s : State) (core quad : Nat) : Option Team :=
  s.teams.find? fun t => decide (t.core = core) && (match t.grid with
    | some g => g.quads.contains quad && !g.retake
    | none => false)
def State.freeUnits (s : State) (core quad : Nat) : Nat :=
  512 - ((s.homed core quad).map Team.units).sum - (if (s.gridder core quad).isSome then 128 else 0)

end Sys2Proof.Machine
end

