-- ==== Sys2Proof/Machine/Memory.lean ====
section
/-!
DEFINITION. The directory and the caches (R97 to R102), the TLBs, the page walk and instruction fetch (R83 to R92).
-/
namespace Sys2Proof.Machine

/-! ### Lines -/

/-- Bits [lo+n-1 : lo] of a line replaced. -/
def setBits (d : LineBits) (lo n x : Nat) : LineBits :=
  (d &&& ~~~(BitVec.ofNat 512 ((2 ^ n - 1) * 2 ^ lo))) ||| BitVec.ofNat 512 (x % 2 ^ n * 2 ^ lo)
/-- The n bytes at offset `off` of a line, as a little-endian number. -/
def lineRd (d : LineBits) (off n : Nat) : Nat := d.toNat / 256 ^ off % 256 ^ n

def findLine (l : List CacheLine) (line : Nat) : Option CacheLine := l.find? fun x => decide (x.line = line)
def putLine (l : List CacheLine) (x : CacheLine) : List CacheLine :=
  if l.any (fun y => decide (y.line = x.line)) then l.map fun y => if y.line = x.line then x else y else l ++ [x]
def dropLine (l : List CacheLine) (line : Nat) : List CacheLine := l.filter fun x => x.line ≠ line

/-- Sector k of a line has its bytes in this cache. -/
def CacheLine.has (x : CacheLine) (k : Nat) : Bool := x.valid.getLsbD k
/-- R14: put a clean sector into a line. -/
def CacheLine.fill (x : CacheLine) (k data : Nat) (poison : Bool) : CacheLine :=
  { x with valid := x.valid ||| BitVec.ofNat 4 (2 ^ k)
           dirty := x.dirty &&& ~~~(BitVec.ofNat 4 (2 ^ k))
           poison := (x.poison &&& ~~~(BitVec.ofNat 4 (2 ^ k))) ||| (if poison then BitVec.ofNat 4 (2 ^ k) else 0)
           data := setBits x.data (128 * k) 128 data }
/-- R98: write n bytes at an offset, within one sector that is present or wholly written; the sector is dirty. -/
def CacheLine.store (x : CacheLine) (off n data : Nat) : CacheLine :=
  let b := BitVec.ofNat 4 (2 ^ (off / 16))
  { x with valid := x.valid ||| b
           dirty := x.dirty ||| b
           poison := if n = 16 then x.poison &&& ~~~b else x.poison
           data := setBits x.data (8 * off) (8 * n) data }

def State.l1Line (s : State) (core line : Nat) : Option CacheLine := (s.core? core).bind fun c => findLine c.l1 line
def State.putL1 (s : State) (core : Nat) (x : CacheLine) : State := s.modCore core fun c => { c with l1 := putLine c.l1 x }

/-! ### The directory (R100, R101) -/

/-- R100: the directory's part before a request of the device is performed at the SLC: a read recalls the host's dirty
sectors, a write also removes host copies and every other core's L1 copy. The Bool says that nothing is waited for. -/
def State.slcDir (s : State) (line : Nat) (write : Bool) (core : Option Nat) : State × Bool :=
  let d := s.dirOf line
  if d.host = .m ∨ (write = true ∧ d.host = .s) then (s.recall line write, false)
  else if !write then (s, true)
  else
    let others := (bitsBelow d.cores 16).filter fun c => some c ≠ core
    if others = [] then (s, true) else (s.invalidate line others, false)

/-- R100, R101: a request of the device for sectors of a line at its SLC slice. The answer says whether it can be
performed now; otherwise what it waits for is on its way, and it keeps its place in the line's order. -/
def State.slcAsk (s : State) (line : Nat) (ks : List Nat) (write : Bool) (core : Option Nat) (who : Asker) : State × Bool :=
  if !(s.turnOf line who) then (s.claim line who, false)
  else
    match s.slcDir line write core with
    | (s, false) => (s.claim line who, false)
    | (s, true) =>
      match s.slcFill line ks with
      | (s, false) => (s.claim line who, false)
      | r => r

/-- R100: a core's presence bit of a line is cleared. -/
def State.forgetCore (s : State) (core line : Nat) : State :=
  let d := s.dirOf line
  if d.cores.getLsbD core then s.setDir line { d with cores := d.cores &&& ~~~(BitVec.ofNat 16 (2 ^ core)) } else s

/-- R100, R101: an L1 copy of a line is dropped, and its presence bit; what an earlier class of the page has left dirty
in it stays (R103). -/
def State.dropHcCopy (s : State) (core line : Nat) : State :=
  (s.forgetCore core line).modCore core fun c => { c with l1 := (c.l1.filter fun x => x.line ≠ line ∨ x.dirty ≠ 0).map fun x =>
    if x.line = line then { x with valid := x.dirty } else x }

/-- A sector of the SLC: 16 bytes and whether they are poisoned (R71). -/
def State.slcSector (s : State) (line k : Nat) : Nat × Bool :=
  (s.rd .glob (line * 64 + 16 * k) 16, s.isPoisoned .glob (line * 64 + 16 * k) 16)

/-- A write of whole sectors at the SLC by a write-back: bytes and poison. -/
def State.slcSectorWrite (s : State) (line k data : Nat) (poison : Bool) : State :=
  let s := s.slcWrite (cellsOf (line * 64 + 16 * k) 16 data)
  if poison then { s with poisoned := s.poisoned ++ [(.glob, line * 4 + k)] } else s

/-! ### Write-backs (R98, R99) -/

/-- Write the dirty sectors of an L2 line to the SLC and leave the line clean. -/
def State.cleanL2 (s : State) (line : Nat) : State × Bool :=
  match findLine s.l2 line with
  | none => (s, true)
  | some x =>
    if x.dirty = 0 then (s, true)
    else
      let (s, ok) := s.slcAsk line [] true none .passing
      if !ok then (s, false)
      else
        let s := (bitsBelow x.dirty 4).foldl (fun s k =>
          s.slcSectorWrite line k (lineRd x.data (16 * k) 16) (x.poison.getLsbD k)) s
        ({ s with l2 := putLine s.l2 { x with dirty := 0 } }, true)

def State.dropL2 (s : State) (line : Nat) : State := { s with l2 := dropLine s.l2 line }

/-- R97: room for a line in its set of a slice of the L2, where need be by replacing the oldest. -/
def State.l2Room (s : State) (line : Nat) : State × Bool :=
  if s.l2.any (fun x => decide (x.line = line)) || decide (s.l2.length < 16) then (s, true)
  else
    let mates := s.l2.filter fun x => decide (l2Slice x.line = l2Slice line ∧ Config.cacheSet 1 x.line % 2048 = Config.cacheSet 1 line % 2048)
    match decide (mates.length < 16), mates with
    | false, v :: _ =>
      (match s.cleanL2 v.line with
        | (s, true) => (s.dropL2 v.line, true)
        | r => r)
    | _, _ => (s, true)

/-- Write the dirty sectors of an L1 line to the next level (R99): the L2 for a software-coherent line, the SLC for a
core-private one, and leave the line clean. -/
def State.cleanL1 (s : State) (core line : Nat) : State × Bool :=
  match s.l1Line core line with
  | none => (s, true)
  | some x =>
    if x.dirty = 0 then (s, true)
    else if x.cc = 1 then
      match s.l2Room line with
      | (s, false) => (s, false)
      | (s, true) =>
        let y := (findLine s.l2 line).getD { line := line, cc := 1 }
        let y := (bitsBelow x.dirty 4).foldl (fun y k =>
          { (y.store (16 * k) 16 (lineRd x.data (16 * k) 16)) with
            poison := (y.poison &&& ~~~(BitVec.ofNat 4 (2 ^ k))) ||| (if x.poison.getLsbD k then BitVec.ofNat 4 (2 ^ k) else 0) }) y
        let s := { s with l2 := putLine s.l2 y }
        ((s.putL1 core { x with dirty := 0 }).fireLocal none line, true)
    else
      let (s, ok) := s.slcAsk line [] true (some core) .passing
      if !ok then (s, false)
      else
        let s := (bitsBelow x.dirty 4).foldl (fun s k =>
          s.slcSectorWrite line k (lineRd x.data (16 * k) 16) (x.poison.getLsbD k)) s
        (s.putL1 core { x with dirty := 0 }, true)

/-- R284: a line leaves the L1: speculation of that core that had read it is discarded; then the line is dropped, and
its presence bit (R100, R103). -/
def State.dropL1 (s : State) (core line : Nat) : State :=
  match s.l1Line core line with
  | none => s.forgetCore core line
  | some _ =>
    ((s.forgetCore core line).modCore core fun c => { c with l1 := dropLine c.l1 line }).conflict .glob line .device (some core)

/-- R97: room for a line in its set of a core's L1, where need be by replacing the oldest. -/
def State.l1Room (s : State) (core line : Nat) : State × Bool :=
  let l := match s.core? core with | some c => c.l1 | none => []
  if l.any (fun x => decide (x.line = line)) || decide (l.length < 16) then (s, true)
  else
    let mates := l.filter fun x => decide (Config.cacheSet 0 x.line % 256 = Config.cacheSet 0 line % 256)
    match decide (mates.length < 16), mates with
    | false, v :: _ =>
      (match s.cleanL1 core v.line with
        | (s, true) => (s.dropL1 core v.line, true)
        | r => r)
    | _, _ => (s, true)

/-! ### Where an access is performed (R99, R140, R147, R282) -/

/-- A place that holds the bytes of a line. -/
inductive Place where
  | slc (core : Option Nat)
  | l1 (core : Nat)
  | l2
  | space (sp : Space)
  deriving DecidableEq, Repr

/-- Bring sector k of a line into the L2 if it is not there. -/
def State.needL2 (s : State) (line k : Nat) : State × Bool :=
  let x := (findLine s.l2 line).getD { line := line, cc := 1 }
  if x.has k then (s, true)
  else
    match s.l2Room line with
    | (s, false) => (s, false)
    | (s, true) =>
      let (s, ok) := s.slcAsk line [k] false none .passing
      if !ok then (s, false)
      else
        let (d, p) := s.slcSector line k
        ({ s with l2 := putLine s.l2 (x.fill k d p) }, true)

def State.needAll (s : State) (ks : List Nat) (f : State → Nat → State × Bool) : State × Bool :=
  ks.foldl (fun r k => let (s, ok) := f r.1 k; (s, r.2 && ok)) (s, true)

/-- The n bytes at an offset of a line, and whether their sector is poisoned. -/
def State.placeRd (s : State) (p : Place) (line off n : Nat) : Nat × Bool :=
  match p with
  | .slc _ => (s.rd .glob (line * 64 + off) n, s.isPoisoned .glob (line * 64 + off) n)
  | .l1 c =>
    match s.l1Line c line with
    | some x => (lineRd x.data off n, x.poison.getLsbD (off / 16))
    | none => (s.rd .glob (line * 64 + off) n, false)
  | .l2 =>
    match findLine s.l2 line with
    | some x => (lineRd x.data off n, x.poison.getLsbD (off / 16))
    | none => (s.rd .glob (line * 64 + off) n, false)
  | .space sp => (s.rd sp (line * 64 + off) n, s.isPoisoned sp (line * 64 + off) n)

/-- R71: a sector of a line at a place has been written whole by the lanes of one store together. -/
def State.placeClear (s : State) (p : Place) (line k : Nat) : State :=
  let b := BitVec.ofNat 4 (2 ^ k)
  let clean (x : CacheLine) : CacheLine := if x.line = line then { x with poison := x.poison &&& ~~~b } else x
  let l1 (s : State) (c : Nat) : State := s.modCore c fun q => { q with l1 := q.l1.map clean }
  let drop (s : State) (sp : Space) : State := if s.poisoned = [] then s else { s with poisoned := s.poisoned.filter fun q => q ≠ (sp, line * 4 + k) }
  match p with
  | .slc core => let s := drop s .glob; (match core with | some c => l1 s c | none => s)
  | .l1 c => l1 s c
  | .l2 => { s with l2 := s.l2.map clean }
  | .space sp => drop s sp

/-- R275: an access of the split, or of a split whose instructions all precede its own (a parent at its divergence, the
arrivals of a JOIN, a handler that has ended), or of a team whose handler split it is. -/
def State.ofSplit (s : State) (tid uid : Nat) (e : Flight) : Bool :=
  decide (e.team = tid) && (decide (e.split = uid) || (match s.team? tid with
    | some t => (match t.split? uid with | some p => p.anc.contains e.split | none => false) ||
        (match t.handler with | some h => decide (h.uid = uid) | none => false)
    | none => false))

/-- The accesses of the same split that issued before this one and have not returned. -/
def State.earlier (s : State) (f : Flight) : List Flight :=
  s.flights.filter fun e => s.ofSplit f.team f.split e && decide (e.id < f.id) && !e.returned

/-- R277: the loads that were performed ahead of an acquire and have read a line before an agent writes it: the writer knows of
the write that they have missed. -/
def State.missed (s : State) (sp : Space) (line : Nat) (who : Agent) : State :=
  if s.flights.all (fun f => f.reqs.all fun r => !r.early) then s
  else
    let note (f : Flight) (r : LineReq) : LineReq :=
      if r.early && decide (r.space = sp) && decide (r.line = line) && !(who.isSplit f.team f.split) && !(r.heard.contains who) then
        { r with heard := r.heard ++ [who] } else r
    { s with flights := s.flights.map fun f => { f with reqs := f.reqs.map (note f) } }

/-- R277, R278: an acquire of a split is performed. The loads that ran ahead of it are performed anew where it takes in an
agent that may know of a write they have missed. -/
def State.redo (s : State) (q : Flight) : State :=
  if s.flights.all (fun f => f.reqs.all fun r => decide (r.heard = [])) then s
  else
    let anew (f : Flight) (r : LineReq) : LineReq :=
      if r.early && r.heard.any (s.within f.core f.group f.team q.scope) then { r with st := .ready, early := false, heard := [] } else r
    { s with flights := s.flights.map fun f =>
        if q.id < f.id ∧ s.ofSplit f.team f.split q = true ∧ f.returned = false then { f with reqs := f.reqs.map (anew f) } else f }

/-- R277, R278, R284: what a write of an agent does to those that have read the line. The directory's invalidations reach
other cores; the other splits of the writing core see the write in its L1, so their speculation is discarded too (log 16). -/
def State.noticeWrite (s : State) (p : Place) (line : Nat) (who : Agent) : State :=
  match p with
  | .slc (some c) | .l1 c => (s.conflict .glob line who (some c)).missed .glob line who
  | .slc none | .l2 => s.missed .glob line who
  | .space sp => s.missed sp line who

/-- Write n bytes at an offset of a line at a place. -/
def State.placeWr (s : State) (p : Place) (line off n x : Nat) (who : Agent) : State :=
  let s := s.noticeWrite p line who
  match p with
  | .slc core =>
    let s := s.slcWrite (cellsOf (line * 64 + off) n x)
    match core with
    | none => s
    | some c =>
      match s.l1Line c line with
      | some y => if y.dirty.getLsbD (off / 16) = false ∧ y.has (off / 16) then
          let b := BitVec.ofNat 4 (2 ^ (off / 16))
          s.putL1 c { y with data := setBits y.data (8 * off) (8 * n) x, poison := if n = 16 then y.poison &&& ~~~b else y.poison } else s
      | none => s
  | .l1 c =>
    match s.l1Line c line with
    | some y => (s.putL1 c (y.store off n x)).fireLocal (some c) line
    | none => s
  | .l2 =>
    match findLine s.l2 line with
    | some y => ({ s with l2 := putLine s.l2 (y.store off n x) }).fireLocal none line
    | none => s
  | .space sp => s.localWrite sp (cellsOf (line * 64 + off) n x) who

/-- A request among others in the order of their marks. -/
def byMark (q : Flight × LineReq) : List (Flight × LineReq) → List (Flight × LineReq)
  | [] => [q]
  | x :: xs => if q.2.mark < x.2.mark then q :: x :: xs else x :: byMark q xs
/-- R276, R281: the stores of a core to a line that stand in its L1 copy and not yet at the SLC, in the order in which the copy
took them. -/
def State.seenOn (s : State) (core line : Nat) : List (Flight × LineReq) :=
  (s.flights.flatMap fun f => (f.reqs.filter fun (r : LineReq) => decide (r.st = .seen) && decide (r.space = .glob) &&
    decide (r.line = line) && decide (f.core = core)).map fun r => (f, r)).foldl (fun l q => byMark q l) []
/-- R277, R282: nothing stands in a core's L1 copies alone that they took before a mark. -/
def State.coreSettled (s : State) (core mark : Nat) : Bool :=
  s.flights.all fun f => decide (f.core ≠ core) || f.reqs.all fun (r : LineReq) => decide (r.st ≠ .seen) || decide (mark ≤ r.mark)

/-- R276, R281: a core's copy that is filled anew holds the core's own stores that the SLC has not performed yet. -/
def State.overlaySeen (s : State) (core line : Nat) : State :=
  (s.seenOn core line).foldl (fun s q => q.2.lanes.foldl (fun s a =>
    match s.l1Line core line with
    | some y => if y.has (a.off / 16) ∧ y.dirty.getLsbD (a.off / 16) = false then s.putL1 core { y with data := setBits y.data (8 * a.off) (8 * q.1.n) a.data } else s
    | none => s) s) s

/-- R97, R99, R100: bring sector k of a line of class cc into a core's L1 if it is not there. A clean line takes the
class of the access. -/
def State.needL1 (s : State) (core cc line k : Nat) (who : Asker) : State × Bool :=
  let x := (s.l1Line core line).getD { line := line, cc := cc }
  let x := if x.dirty = 0 then { x with cc := cc } else x
  if x.has k then (if (s.l1Line core line) = some x then s else s.putL1 core x, true)
  else
    match s.l1Room core line with
    -- what must wait for room gives up its place at the line
    | (s, false) => (s.unclaim who, false)
    | (s, true) =>
      if cc = 1 then
        let (s, ok) := s.needL2 line k
        if !ok then (s, false)
        else
          let y := (findLine s.l2 line).getD { line := line, cc := 1 }
          (s.putL1 core (x.fill k (lineRd y.data (16 * k) 16) (y.poison.getLsbD k)), true)
      else
        let (s, ok) := s.slcAsk line [k] false (some core) who
        if !ok then (s, false)
        else
          let (d, p) := s.slcSector line k
          let s := s.putL1 core (x.fill k d p)
          if cc = 0 then
            let e := s.dirOf line
            ((s.setDir line { e with cores := e.cores ||| BitVec.ofNat 16 (2 ^ core) }).overlaySeen core line, true)
          else (s, true)

/-! ### Page tables and TLBs (R83 to R88) -/

/-- R84: the fields of an entry. -/
def pteV (x : Nat) : Bool := x.testBit 0
def pteSz (x : Nat) : Nat := x / 2 ^ 5 % 4
def ptePfn (x : Nat) : Nat := x / 2 ^ 12 % 2 ^ 34
def pteRsv (x : Nat) : Nat := x / 2 ^ 51 % 32

/-- R85: what an entry of a level is for an address: a table, a leaf covering 2^lg pages, or nothing. -/
inductive PteKind where
  | table
  | leaf (lg : Nat)
  | bad
  deriving DecidableEq, Repr

/-- R84, R85: what an entry of a level is. DESIGN CHOICE (log 13): LC is looked at with the first frame of a leaf alone, so a 1 GiB leaf
that begins in the near aperture and runs past its end is a leaf; the spec does not say what the rest of it is. -/
def State.pteKind (s : State) (level va x : Nat) : PteKind :=
  if !pteV x || decide (pteRsv x ≠ 0) then .bad
  else
    let near := match s.backing (ptePfn x * 4096) with | .near _ => true | _ => false
    let lcOk := !(x.testBit 9) || near
    match level, pteSz x with
    | 0, 0 => .table
    | 1, 0 => .table
    | 2, 0 => .table
    | 1, 3 => if ptePfn x % 2 ^ 18 = 0 && lcOk then .leaf 18 else .bad
    | 2, 2 => if ptePfn x % 2 ^ 9 = 0 && lcOk then .leaf 9 else .bad
    | 3, 0 => if lcOk then .leaf 0 else .bad
    | 3, 1 => if ptePfn x % 16 = va / 4096 % 16 && lcOk then .leaf 4 else .bad
    | _, _ => .bad

/-! ### Frame ownership (R393) -/

/-- R393: the key slot of a context: that of its TDI, 0 for a context without one. -/
def State.keyOf (s : State) (asid : Nat) : Nat :=
  match (s.ctx? asid).bind (·.tdi) with
  | none => 0
  | some t => match s.tdis.find? fun q => decide (q.1 = t) with
    | some (_, d) => d.keySlot.getD 0
    | none => 0
/-- R393: a device agent of a context may reach the frame of a physical address: it is plaintext or owned by its key. -/
def State.ownerOk (s : State) (asid pa : Nat) : Bool :=
  let k := sget 0 s.frameOwner (pa / 4096)
  decide (k = 0) || decide (k = s.keyOf asid)

/-! ### Walks -/

/-- What a walk finds: nothing yet (a table line must be recalled from the host first), not present, a table in a frame that
belongs to another key (R393), or a leaf with the address of its entry. -/
inductive WalkR where
  | busy
  | notPresent
  | alien
  | leaf (pte x lg : Nat)
  deriving DecidableEq, Repr

/-- R83, R85: walk the tables from a table's frame; the list holds the levels left with their index shifts. An entry that
is poisoned is as good as none (log 28). -/
def State.walkTables (s : State) (asid va : Nat) : List (Nat × Nat) → Nat → State × WalkR
  | [], _ => (s, .notPresent)
  | (level, sh) :: rest, table =>
    let a := table + va / 2 ^ sh % 512 * 8
    if !s.backed a then (s, .notPresent)
    else if !s.ownerOk asid a then (s, .alien)
    else
      let (s, ok) := s.slcAsk (a / 64) [a / 16 % 4] false none .passing
      if !ok then (s, .busy)
      else if s.isPoisoned .glob a 8 then (s, .notPresent)
      else
        let x := s.rd .glob a 8
        match s.pteKind level va x with
        | .bad => (s, .notPresent)
        | .leaf lg => (s, .leaf a x lg)
        | .table => s.walkTables asid va rest (ptePfn x * 4096)

/-- R88: the home slice of an address of an ASID. -/
def tlbHome (asid va : Nat) : Nat :=
  [21, 25, 29, 33, 37, 41].foldl (fun a k => Nat.xor a (va / 2 ^ k % 16)) (Nat.xor (asid % 16) (va / 2 ^ 45 % 8))

/-- The first n entries of a slice, and every other slice's. -/
def keepSlice (slice : Nat) : Nat → List TlbEntry → List TlbEntry
  | _, [] => []
  | n, e :: es =>
    if e.slice = slice then (match n with | 0 => keepSlice slice 0 es | n + 1 => e :: keepSlice slice n es)
    else e :: keepSlice slice n es

/-- R88: the TLB entry a leaf makes. -/
def tlbOf (asid va pte x lg : Nat) : TlbEntry :=
  let vpn := va / 4096 / 2 ^ lg * 2 ^ lg
  { asid := asid, vpn := vpn, lg := lg, pfn := ptePfn x / 2 ^ lg * 2 ^ lg, global := x.testBit 50,
    owner := x / 2 ^ 46 % 16, dirty := x.testBit 11, cc := x / 2 ^ 7 % 4, u := x.testBit 4, x := x.testBit 3,
    w := x.testBit 2, r := x.testBit 1, pte := pte, slice := tlbHome asid va }

def TlbEntry.matches (e : TlbEntry) (asid va : Nat) : Bool :=
  (e.global || decide (e.asid = asid)) && decide (va / 4096 / 2 ^ e.lg = e.vpn / 2 ^ e.lg)
/-- The physical address of a virtual one under an entry. -/
def TlbEntry.pa (e : TlbEntry) (va : Nat) : Nat := (e.pfn + (va / 4096 - e.vpn)) * 4096 + va % 4096

/-- R87: an atomic OR into a page-table entry, at system scope. What must wait for it gives up its place at its own line. -/
def State.pteOr (s : State) (pte bit : Nat) (who : Asker) : State × Bool :=
  let x := s.rd .glob pte 8
  if x.testBit bit then (s, true)
  else
    let (s, ok) := s.slcAsk (pte / 64) [pte / 16 % 4] true none who
    if !ok then (s.unclaim who, false)
    else ((s.missed .glob (pte / 64) .device).slcWrite (cellsOf pte 8 (x + 2 ^ bit)), true)

/-- R83, R87, R88: walk for an address, set A, and fill the home slice. -/
def State.walk (s : State) (asid va : Nat) : State × Option (Option TlbEntry) :=
  match s.ctx? asid with
  | none => (s, some none)
  | some c =>
    match s.walkTables asid va [(0, 39), (1, 30), (2, 21), (3, 12)] c.root with
    | (s, .busy) => (s, none)
    | (s, .notPresent) => (s, some none)
    | (s, .alien) => (s, some (some { tlbOf asid va 0 0 0 with alien := true }))
    | (s, .leaf pte x lg) =>
      let (s, ok) := s.pteOr pte 10 .passing
      if !ok then (s, none)
      else
        let e := tlbOf asid va pte x lg
        ({ s with l2Tlb := keepSlice e.slice 4096 (e :: s.l2Tlb) }, some (some e))

/-- R88: translate through a core's L1 TLB, the home slice of the L2 TLB, or a walk; `none` is a device agent with no core. The outer
none says that a table line is being recalled; the inner none that the translation is not present. -/
def State.translate (s : State) (core : Option Nat) (asid va : Nat) : State × Option (Option TlbEntry) :=
  let va := va % 2 ^ 48
  let l1 := match core.bind s.core? with | some c => c.tlb.find? fun (e : TlbEntry) => e.matches asid va | none => none
  match l1 with
  | some e => (s, some (some e))
  | none =>
    let fill (s : State) (e : TlbEntry) : State := match core with
      | some c => s.modCore c fun k => { k with tlb := (e :: k.tlb).take 128 }
      | none => s
    match s.l2Tlb.find? fun (e : TlbEntry) => decide (e.slice = tlbHome asid va) && e.matches asid va with
    | some e => (fill s e, some (some e))
    | none =>
      match s.walk asid va with
      | (s, some (some e)) => (if e.alien then s else fill s e, some (some e))
      | r => r

/-- R87: mark the TLB entries of a leaf dirty. -/
def State.markDirty (s : State) (pte : Nat) : State :=
  let f (e : TlbEntry) : TlbEntry := if e.pte = pte then { e with dirty := true } else e
  { s with l2Tlb := s.l2Tlb.map f, cores := s.cores.map fun c => { c with tlb := c.tlb.map f } }

/-- R86: what an access needs of a leaf. -/
structure Need where
  r : Bool := false
  w : Bool := false
  /-- PROMOTE, DEMOTE: another core's private page is no fault (R70) -/
  anyOwner : Bool := false
  /-- PROMOTE, DEMOTE: keys play no part (R67) -/
  anyKey : Bool := false
  /-- CMAINT: the class is looked at before R and W (R104) -/
  classFirst : Bool := false
  /-- the dispatcher's choice of a core: rights and class play no part (R327) -/
  anyRights : Bool := false
  deriving DecidableEq, Repr

/-- R86: the kind of fault (R79) a leaf raises for a user access of a core: 2 permission, 4 coherence class. -/
def TlbEntry.fault (e : TlbEntry) (need : Need) (core : Option Nat) : Option Nat :=
  let cls : Bool := decide (e.cc = 3 ∨ (e.cc = 2 ∧ !need.anyOwner ∧ core ≠ some e.owner))
  if need.anyRights then none
  else if !e.u then some 2
  else if need.classFirst && cls then some 4
  else if (need.r && !e.r) || (need.w && !e.w) then some 2
  else if cls then some 4
  else none

/-! ### Instruction fetch (R92, R102) -/

/-- R92: what a fetch gives. -/
inductive FetchR where
  | ok (w : Word)
  | busy
  | notPresent
  | trap (code detail : Nat)
  /-- the group path with this code (343, 342) -/
  | dead (code : Nat)
  deriving DecidableEq, Repr

/-- The 64 bytes of a line of code, from the place R102 names. -/
def State.codeLine (s : State) (cc line : Nat) : State × Option (LineBits × BitVec 4) :=
  if cc = 1 then
    let (s, ok) := s.needAll [0, 1, 2, 3] fun s k => s.needL2 line k
    match findLine s.l2 line with
    | some x => if ok then (s, some (x.data, x.poison)) else (s, none)
    | none => (s, none)
  else
    let (s, ok) := s.slcAsk line [0, 1, 2, 3] false none .passing
    if ok then (s, some (BitVec.ofNat 512 (s.rd .glob (line * 64) 64),
        sectorBits ((List.range 4).filter fun k => s.isPoisoned .glob (line * 64 + 16 * k) 16))) else (s, none)

/-- R97: the lines of an instruction cache with a new one: in each of its sets of 8 ways the newest stay. The index is a free
value (log 14). -/
def keepWays (x : ILine) (l : List ILine) : List ILine :=
  let set (y : ILine) : Nat := Config.cacheSet 3 (y.asid * 2 ^ 42 + y.line) % 256
  let mates := l.filter fun y => decide (set y = set x)
  if l.length < 8 ∨ mates.length < 8 then x :: l
  else x :: l.filter fun y => !(decide (set y = set x)) || (mates.take 7).contains y

/-- R97, R343: a word of a line of code, unless its sector is poisoned. -/
def ILine.word (x : ILine) (off : Nat) : Option Word :=
  if x.bad.getLsbD (off / 16) then none else some (x.data.extractLsb' (off * 8) 32)

/-- R92, R102: fetch the word at a virtual address: from the instruction cache, else translated, checked, and read as
its class says; the line enters the instruction cache. -/
def State.fetch (s : State) (core asid va : Nat) : State × FetchR :=
  let va := va % 2 ^ 48
  let vline := va / 64
  match (s.core? core).bind fun c => c.icache.find? fun x => decide (x.asid = asid) && decide (x.line = vline) with
  | some x => (s, match x.word (va % 64) with | some w => .ok w | none => .dead 343)
  | none =>
    match s.translate (some core) asid va with
    | (s, none) => (s, .busy)
    | (s, some none) => (s, .notPresent)
    | (s, some (some e)) =>
      if e.alien then (s, .dead 342)
      else if !e.x then (s, .trap 155 0)
      else if !e.u then (s, .trap 156 0)
      else if e.cc = 3 then (s, .trap 157 0)
      else
        let pa := e.pa va
        if !s.backed pa then (s, .trap 336 0x10)
        else if !s.ownerOk asid pa then (s, .dead 342)
        else
          match s.codeLine e.cc (pa / 64) with
          | (s, none) => (s, .busy)
          | (s, some (d, bad)) =>
            let x : ILine := { asid := asid, line := vline, data := d, bad := bad, glob := e.global, pline := pa / 64 }
            (s.modCore core fun c => { c with icache := keepWays x c.icache },
              match x.word (va % 64) with | some w => .ok w | none => .dead 343)

end Sys2Proof.Machine
end

