-- ==== Sys2Proof/Machine/Access.lean ====
section
/-!
DEFINITION. Accesses in flight: which may be performed, where and how each line request is performed (R99, R139, R140,
R147, R155, R282), and what an access does when it returns (R125, R136, R146, R148).
-/
namespace Sys2Proof.Machine

/-! ### Atomic arithmetic (R144, R146) -/

/-- R146: one floating element; NaN results are canonical, rounding is RNE, no flag is kept. -/
def atomFloat (f : Fmt) (op old x : Nat) : Nat :=
  let a := unpack f old
  let b := unpack f x
  (match op with
    | 0 => addFV f rneMode a b [a, b]
    | 1 => minmaxFV f rneMode false a b
    | _ => minmaxFV f rneMode true a b).1

/-- R146: the value an atomic writes; none for a failed CAS. -/
def atomNew (op etype old x cmp : Nat) : Option Nat :=
  let w := 8 * atomWidth etype
  if op = 6 then some (x % 2 ^ w)
  else if op = 7 then (if old = cmp % 2 ^ w then some (x % 2 ^ w) else none)
  else
    match etype with
    | 2 => some (atomFloat f32 op old x)
    | 5 => some (atomFloat f16 op (old % 65536) (x % 65536) + 65536 * atomFloat f16 op (old / 65536) (x / 65536 % 65536))
    | 6 => some (atomFloat bf16 op (old % 65536) (x % 65536) + 65536 * atomFloat bf16 op (old / 65536) (x / 65536 % 65536))
    | _ =>
      let sg := decide (etype = 0 ∨ etype = 3)
      let x := x % 2 ^ w
      some (match op with
        | 0 => (old + x) % 2 ^ w
        | 1 => if intOf sg w x < intOf sg w old then x else old
        | 2 => if intOf sg w old < intOf sg w x then x else old
        | 3 => Nat.land old x
        | 4 => Nat.lor old x
        | _ => Nat.xor old x)

/-- R144: whether an ETYPE accepts an operation. -/
def atomAccepts (op etype : Nat) : Bool :=
  match etype with
  | 0 | 1 | 3 | 4 => true
  | 2 => decide (op ≤ 2 ∨ op = 6 ∨ op = 7)
  | 5 | 6 => decide (op ≤ 2)
  | _ => false

/-! ### Which access may be performed (R139, R140, R150, R155, R105) -/

/-- The access touches a line of a space with a request not yet performed. -/
def Flight.wants (f : Flight) (sp : Space) (line : Nat) : Bool :=
  f.reqs.any fun r => decide (r.st = .ready ∨ r.st = .seen) && decide (r.space = sp) && decide (r.line = line)

/-- R105: an earlier access of the team touches a line that a CMAINT names: its lines, or any where it names all. -/
def Flight.concerns (cm e : Flight) (extent : Nat) : Bool :=
  match e.kind with
  | .store | .atomic .. | .atagg _ => e.reqs.any fun (r : LineReq) => decide (r.space = .glob) && decide (r.st ≠ .done) &&
      (decide (extent = 2) || (if r.st = .parked then
        cm.reqs.any (fun (q : LineReq) => decide (q.va ≤ r.va) && decide (r.va < q.va + cm.zero.length)) else cm.zero.contains r.line))
  | .cmaint _ x _ => !e.performed && (decide (extent = 2 ∨ x = 2) || cm.zero.any fun l => e.zero.contains l)
  | _ => false

/-- An earlier access of the split keeps a line request from being performed: it still wants the line, unless it is held
and forwards its data (R155); it is an acquire, which a plain load may run ahead of (R274, R278); it is an ARM, which loads
and later ARMs follow (R150). -/
def Flight.blocks (e f : Flight) (r : LineReq) : Bool :=
  (e.wants r.space r.line && !(e.held && f.kind.isLoad) && !e.kind.isOwnEvent && !f.kind.isOwnEvent) ||
  (e.acquires && !(f.kind.isLoad && decide (f.order = 0))) ||
  (decide (e.kind = .arm) && (f.kind.isLoad || decide (f.kind = .arm)))

/-- A line request may be performed now: it is not held behind a fence, no earlier access of the split blocks it, and a
release finds every earlier access performed at its scope. CMAINT follows every earlier write and CMAINT of its team to its
lines. -/
def State.mayPerform (s : State) (f : Flight) (r : LineReq) : Bool :=
  let es := s.earlier f
  !f.held && decide (r.st = .ready ∨ r.st = .seen) &&
  -- R377: the export of an evicted member is waited for
  s.spaceThere r.space &&
  es.all (fun e => !(e.blocks f r)) &&
  (decide (f.order < 2) || decide (f.scope = 0) || es.all fun e => e.performedAt f.scope) &&
  -- R277: what other splits of the core have released to this one goes on with its release
  (decide (f.order < 2) || decide (f.scope < 4) || s.coreSettled f.core (if r.st = .seen then r.mark else s.nextId)) &&
  -- R279
  (f.after.all fun i => match s.flight? i with | some e => e.returned || e.onlyParked | none => true) &&
  (match f.kind with
    | .cmaint _ extent _ => s.flights.all fun e => !(decide (e.team = f.team) && decide (e.id < f.id)) || e.performedAt 3 || !(f.concerns e extent)
    | _ => true)

/-- R276, R281: at the SLC a core's stores to a line are performed in the order in which its L1 copy took them, before its
other requests for the line. -/
def State.inSeenOrder (s : State) (core : Nat) (f : Flight) (r : LineReq) : Bool :=
  match s.seenOn core r.line with
  | [] => true
  | (g, _) :: _ => decide (g.id = f.id)

/-! ### Performing a line request -/

/-- The sectors a request's lanes touch. -/
def LineReq.sectors (r : LineReq) : List Nat := (r.lanes.map fun a => a.off / 16).eraseDups

/-- R14, R98: the sectors that must be present before a request is performed: those it does not write whole. -/
def LineReq.fills (r : LineReq) (f : Flight) : List Nat :=
  if f.kind = .store then r.sectors.filter fun k => !((List.range 16).all fun i =>
    r.lanes.any fun a => decide (a.off ≤ 16 * k + i) && decide (16 * k + i < a.off + f.n))
  else r.sectors

/-- R99: a line of a write-back class in the issuing core's L1, with the sectors that a request needs. A clean line takes the
class of the access. -/
def State.bringL1 (s : State) (core cc : Nat) (f : Flight) (r : LineReq) (who : Asker) : State × Bool × Place :=
  let (s, ok) := s.needAll (r.fills f) fun s k => s.needL1 core cc r.line k who
  if !ok then (s, false, .l1 core)
  else
    match s.l1Line core r.line with
    | some y => (if y.dirty = 0 ∧ y.cc ≠ cc then s.putL1 core { y with cc := cc } else s, true, .l1 core)
    | none =>
      match s.l1Room core r.line with
      | (s, true) => (s.putL1 core { line := r.line, cc := cc }, true, .l1 core)
      | (s, false) => (s.unclaim who, false, .l1 core)

/-- R99, R140, R147, R282: bring what the request needs to the place where it is performed. The Bool says that it can
be performed now; the place is where. -/
def State.prepare (s : State) (core : Nat) (f : Flight) (r : LineReq) (who : Asker) : State × Bool × Place :=
  if f.kind = .arm then (s, true, .slc none) else
  match r.space with
  | .glob =>
    let atScope := f.kind.isAtomic || decide (f.order ≠ 0) || decide (f.aux = [1])
    match r.cc with
    | 0 =>
      if f.kind.isLoad then
        let (s, ok) := s.needAll r.sectors fun s k => s.needL1 core 0 r.line k who
        (s, ok, .l1 core)
      else
        let (s, ok) := s.slcAsk r.line (r.fills f) true (some core) who
        (s, ok && s.inSeenOrder core f r, .slc (some core))
    | 1 =>
      if atScope then
        let (s, ok) := s.cleanL1 core r.line
        if !ok then (s.unclaim who, false, .l2)
        else
          let s := s.dropL1 core r.line
          if f.scope ≤ 5 then
            let (s, ok) := s.needAll r.sectors fun s k => s.needL2 r.line k
            (s, ok, .l2)
          else
            let (s, ok) := s.cleanL2 r.line
            if !ok then (s.unclaim who, false, .slc none)
            else
              let s := s.dropL2 r.line
              let (s, ok) := s.slcAsk r.line (r.fills f) (!f.kind.isLoad) none who
              (s, ok, .slc none)
      else
        s.bringL1 core 1 f r who
    | _ => s.bringL1 core 2 f r who
  | sp => (s, true, .space sp)

/-- R155: the bytes of the split's own held stores over what a load read. -/
def overlayHeld (hs : List Flight) (q : LineReq) (off n x : Nat) : Nat :=
  (List.range n).foldl (fun a i =>
    let b := hs.foldl (fun b h => (h.reqs.filter fun r => decide (r.space = q.space) &&
        (if r.space = .glob ∧ r.pte = none then decide (r.va = q.va) else decide (r.line = q.line))).foldl (fun b r =>
      r.lanes.foldl (fun b c => if c.off ≤ off + i ∧ off + i < c.off + h.n then c.data / 256 ^ (off + i - c.off) % 256 else b) b) b)
      (x / 256 ^ i % 256)
    a + b * 256 ^ i) 0

/-- One lane of a request at its place: the new state and what the lane gets. -/
def State.performLane (s : State) (f : Flight) (r : LineReq) (p : Place) (a : LaneAcc) : State × LaneAcc :=
  match f.kind with
  | .store => (s.placeWr p r.line a.off f.n a.data f.agent, a)
  | .atomic op et =>
    let (old, bad) := s.placeRd p r.line a.off f.n
    (match atomNew op et old a.data a.cmp with
      | some x => s.placeWr p r.line a.off f.n x f.agent
      | none => s, { a with result := old, poison := bad })
  | .atagg et =>
    let (old, bad) := s.placeRd p r.line a.off f.n
    (s.placeWr p r.line a.off f.n ((old + a.data) % 256 ^ atomWidth et) f.agent, { a with result := old, poison := bad })
  | .arm | .cmaint .. | .jcadd _ => (s, a)
  | _ =>
    let (x, bad) := s.placeRd p r.line a.off f.n
    let hs := s.flights.filter fun e => e.held && decide (e.team = f.team) && decide (e.split = f.split) && decide (e.id < f.id)
    (s, { a with result := if hs = [] then x else overlayHeld hs r a.off f.n x, poison := bad })

/-- R150: register a split's monitor for a line at its SLC slice; a full slice displaces its oldest registration. -/
def State.register (s : State) (tid uid line : Nat) : State :=
  let sl := s.slcSlice line
  let here := s.monRegs.filter fun r => decide (r.1 = sl)
  let s := match decide (256 ≤ here.length), here with
    | true, r :: _ => { s.modTeam r.2.1 (fun t => t.fire r.2.2.1) with monRegs := s.monRegs.erase r }
    | _, _ => s
  { s.modSplit tid uid (fun p => { p with mon := .armed, monLine := line }) with
    monRegs := s.monRegs.filter (fun r => !(decide (r.2.1 = tid) && decide (r.2.2.1 = uid))) ++ [(sl, tid, uid, line)] }

/-- R284: a line read behind a speculative fence enters the split's read set. -/
def State.noteRead (s : State) (f : Flight) (r : LineReq) : State :=
  if f.kind.isLoad then
    s.modSplit f.team f.split fun p => { p with fence := p.fence.map fun q =>
      if q.kind ≤ 1 ∧ q.before ≤ f.id ∧ !(q.readSet.contains (r.space, r.line)) then
        { q with readSet := q.readSet ++ [(r.space, r.line)] } else q }
  else s

/-- R112, R114: the member that an access to an export names has gone or is leaving as the access arrives. -/
def State.yardGone (s : State) (f : Flight) (r : LineReq) : Bool :=
  match decide (f.path = 3 ∨ f.path = 7 ∧ r.space ≠ .win f.group), r.space with
  | true, .win g => !(s.yards.any fun y => (y.members.any fun m => decide (m.group = g) && !m.leaving) && y.members.any fun m => decide (m.group = f.group))
  | _, _ => false

/-- R87: D is set in the leaf before a write that is performed; a CAS that fails in every lane writes nothing. -/
def State.setD (s : State) (f : Flight) (r : LineReq) (p : Place) : State × Bool :=
  let fails := match f.kind with
    | .atomic 7 et => r.lanes.all fun a => (atomNew 7 et (s.placeRd p r.line a.off f.n).1 a.data a.cmp).isNone
    | _ => false
  match r.pte with
  | some a => if f.kind.isWrite ∧ fails = false then (let (s, ok) := s.pteOr a 11 (.flight f.id); (s.markDirty a, ok)) else (s, true)
  | none => (s, true)

/-- R71: a store has written some sectors of a line whole. -/
def State.clearWhole (s : State) (f : Flight) (r : LineReq) (p : Place) : State :=
  if f.kind = .store then
    (r.sectors.filter fun k => !((r.fills f).contains k)).foldl (fun s k => s.placeClear p r.line k) s
  else s

/-- Perform the k-th line request of an access, when it may be; lanes in ascending order (R78, R143, R147). -/
def State.performReq (s : State) (fid k : Nat) : State :=
  match s.flight? fid with
  | none => s
  | some f =>
    match f.reqs[k]? with
    | some r =>
      if !(s.mayPerform f r) || f.kind.isOwnEvent || s.yardGone f r then s
      else
        let (s, ok, p) := s.prepare f.core f r (.flight fid)
        if !ok then s
        else
          let (s, ok) := s.setD f r p
          if !ok then s
          else
            let ahead := f.kind.isLoad && decide (f.order = 0) && (s.earlier f).any fun e => e.acquires && !e.performed
            let (s, ls) := r.lanes.foldl (fun q a => let (s, a) := q.1.performLane f r p a; (s, q.2 ++ [a])) (s, [])
            let s := s.clearWhole f r p
            let s := if f.kind = .arm then (if f.aux = [2] then s else s.register f.team f.split r.line) else s.noteRead f r
            let s := s.modFlight fid fun f => { f with reqs := lmod f.reqs k fun r => { r with st := .done, lanes := ls, early := ahead } }
            let s := if f.acquires then (s.redo f).acquired f.core f.group f.team f.scope f.agent else s
            match p with
            | .slc (some c) => s.overlaySeen c r.line
            | _ => s
    | none => s

/-- R281, R282: a store to a hardware-coherent line stands in the issuing core's L1 copy, where the agents of that core
see it; the SLC performs it later. -/
def State.seeTurn (s : State) (fid line : Nat) : State :=
  match s.flight? fid with
  | none => s
  | some f =>
    match f.reqs.find? fun (r : LineReq) => decide (r.line = line) && decide (r.space = .glob) with
    | some r =>
      (match s.l1Line f.core line with
        | some y =>
          if s.mayPerform f r ∧ r.st = .ready ∧ r.cc = 0 ∧ f.kind = .store ∧
              r.sectors.all (fun k => y.has k && !(y.dirty.getLsbD k)) = true then
            let s := s.noticeWrite (.l1 f.core) line f.agent
            let s := r.lanes.foldl (fun s a => match s.l1Line f.core line with
              | some y => s.putL1 f.core { y with data := setBits y.data (8 * a.off) (8 * f.n) a.data }
              | none => s) s
            let (mark, s) := s.fresh
            s.modFlight fid fun f => { f with reqs := f.reqs.map fun (q : LineReq) =>
              if q.space = .glob ∧ q.line = line then { q with st := .seen, mark := mark } else q }
          else s
        | none => s)
    | none => s

/-- Perform every line request of an access that may be performed. -/
def State.performAll (s : State) (fid : Nat) : State :=
  match s.flight? fid with
  | none => s
  | some f => (List.range f.reqs.length).foldl (fun s k => s.performReq fid k) s

/-! ### Returning (R125, R136) -/

/-- R125: a team's in-flight counter of a path. -/
def State.counter (s : State) (tid path : Nat) : Nat :=
  (s.flights.filter fun f => decide (f.team = tid) && decide (f.path = path)).length

/-- An access whose lines are all performed returns (R125, R136); a load that ran ahead of an acquire only once that has
been performed (R277). -/
def State.returnFlight (s : State) (fid : Nat) : State :=
  match s.flight? fid with
  | none => s
  | some f =>
    if f.returned ∨ !f.performed ∨ (f.reqs.any fun r => r.early) = true ∧ ((s.earlier f).any fun e => e.acquires && !e.performed) = true then s
    else s.endFlight f

/-- R279: the loads and atomics of a split that have brought back results and have not returned. -/
def State.sampled (s : State) (tid uid : Nat) : List Nat :=
  (s.flights.filter fun e => decide (e.team = tid) && decide (e.split = uid) && decide (e.dst ≠ none) && !e.returned &&
    e.reqs.any fun r => decide (r.st = .done)).map (·.id)

/-- Put a new access of a team in flight; `owed` is the register result it will write. -/
def State.launch (s : State) (f : Flight) (owed : Option Await) : State :=
  let (core, group) := match s.team? f.team with | some t => (t.core, t.group) | none => (0, 0)
  let f := { f with core := core, group := group, after := if f.kind.isLoad then [] else s.sampled f.team f.split }
  let s := { s with flights := s.flights ++ [f] }
  match owed with
  | none => s
  | some a => s.modTeam f.team fun t => { t with awaits := t.awaits ++ [a] }

end Sys2Proof.Machine
end

