-- ==== Sys2Proof/Decode.lean ====
section
/-!
DEFINITION. The decoder (R36 to R39, R44, R45), total on any words, and the encoder beside it.
An encoding is rejected by name only where its word names no instruction at all (codes 0, 1 and 2 of R45); every other
encoding fault depends on the instruction's own entry and on the state, and is raised when the instruction issues.
-/
namespace Sys2Proof

/-- R45: why a word names no instruction. -/
inductive DecodeError where
  /-- code 0: primary opcode 0x37 -/
  | reservedOpcode
  /-- code 1: NOP, JOIN, RET, LAND, EXIT or YIELD with non-zero bits in [23:0] -/
  | nonZeroOperands (op : Nat)
  /-- code 2: a function value that is not listed -/
  | reservedFunction (op fn : Nat)
  deriving DecidableEq, Repr

/-- R45: the code of a decode error. -/
def DecodeError.code : DecodeError → Nat
  | .reservedOpcode => 0
  | .nonZeroOperands _ => 1
  | .reservedFunction _ _ => 2

/-- R36: M. -/
def wM (w : Word) : Bool := w.getLsbD 31
/-- R36: OP. -/
def wOp (w : Word) : BitVec 7 := w.extractLsb' 24 7
/-- R37: the three operand bytes of the R format. -/
def wD (w : Word) : Byte := w.extractLsb' 16 8
def wA (w : Word) : Byte := w.extractLsb' 8 8
def wB (w : Word) : Byte := w.extractLsb' 0 8

def toFR (w : Word) : FR := ⟨wM w, wD w, wA w, wB w⟩
def toFF (w : Word) : FF := ⟨wM w, wD w, wA w⟩
def toFI (e : Option ExtWord) (w : Word) : FI := ⟨wM w, e, wD w, wA w, wB w⟩
def toFIF (e : Option ExtWord) (w : Word) : FIF := ⟨wM w, e, wD w, wA w⟩
def toFK (e : Option ExtWord) (w : Word) : FK := ⟨wM w, e, wD w, w.extractLsb' 0 16⟩
def toFJ (w : Word) : FJ := ⟨wM w, w.extractLsb' 0 24⟩
def toFJC (w : Word) : FJC := ⟨wM w, wD w, w.extractLsb' 0 16⟩
def toFJM (w : Word) : FJM := ⟨wM w, w.extractLsb' 20 4, w.extractLsb' 0 20⟩
def toFMem (w : Word) : FMem := ⟨wM w, wD w, wA w, w.extractLsb' 3 5, w.extractLsb' 0 3⟩
def toFL (w : Word) : FL := ⟨wM w, wD w, wA w, w.extractLsb' 3 5, w.extractLsb' 0 3⟩
def toFE (w : Word) : FE := ⟨wM w, wD w, wA w, w.extractLsb' 4 4⟩
def toFFence (e : Option ExtWord) (w : Word) : FFence :=
  ⟨wM w, e, wD w, wA w, w.extractLsb' 5 3, w.extractLsb' 0 3⟩

/-- R44: the instructions whose bits [23:0] must be 0. -/
def nullary (w : Word) (i : FN → Instr) : Except DecodeError Instr :=
  if w.extractLsb' 0 24 = 0#24 then .ok (i ⟨wM w⟩) else .error (.nonZeroOperands (wOp w).toNat)

/-- R44: the functions of OP 0x13. -/
def decodeIun (w : Word) : Except DecodeError Instr :=
  match (wB w).toNat with
  | 0 => .ok (.popc (toFF w))
  | 1 => .ok (.clz (toFF w))
  | 2 => .ok (.ctz (toFF w))
  | 3 => .ok (.brev (toFF w))
  | 4 => .ok (.not (toFF w))
  | 5 => .ok (.neg (toFF w))
  | 6 => .ok (.iabs (toFF w))
  | 7 => .ok (.sext8 (toFF w))
  | 8 => .ok (.sext16 (toFF w))
  | 9 => .ok (.zext8 (toFF w))
  | 10 => .ok (.zext16 (toFF w))
  | f => .error (.reservedFunction (wOp w).toNat f)

/-- R44: the functions of OP 0x2F. -/
def decodeFun (w : Word) : Except DecodeError Instr :=
  match (wB w).toNat with
  | 0 => .ok (.frcp (toFF w))
  | 1 => .ok (.frsq (toFF w))
  | 2 => .ok (.fsqrt (toFF w))
  | 3 => .ok (.fexp2 (toFF w))
  | 4 => .ok (.flog2 (toFF w))
  | 5 => .ok (.fsinpi (toFF w))
  | 6 => .ok (.fcospi (toFF w))
  | 7 => .ok (.ftanh (toFF w))
  | 8 => .ok (.ffloor (toFF w))
  | 9 => .ok (.fceil (toFF w))
  | 10 => .ok (.ftrunc (toFF w))
  | 11 => .ok (.frint (toFF w))
  | 12 => .ok (.fabs (toFF w))
  | 13 => .ok (.fneg (toFF w))
  | 14 => .ok (.fclass (toFF w))
  | f => .error (.reservedFunction (wOp w).toNat f)

/-- R44: the functions of OP 0x3B. -/
def decodeVote (e : Option ExtWord) (w : Word) : Except DecodeError Instr :=
  match (wB w).toNat with
  | 0 => .ok (.voteAny (toFIF e w))
  | 1 => .ok (.voteAll (toFIF e w))
  | 2 => .ok (.voteBallot (toFIF e w))
  | f => .error (.reservedFunction (wOp w).toNat f)

/-- R44: the functions of OP 0x72. -/
def decodeFence (e : Option ExtWord) (w : Word) : Except DecodeError Instr :=
  match (w.extractLsb' 3 2).toNat with
  | 0 => .ok (.fenceFull (toFFence e w))
  | 1 => .ok (.fenceAcq (toFFence e w))
  | 2 => .ok (.fenceRel (toFFence e w))
  | 3 => .ok (.fenceStrict (toFFence e w))
  | f => .error (.reservedFunction (wOp w).toNat f)

/-- R44: the functions of OP 0x7B. -/
def decodeRay (w : Word) : Except DecodeError Instr :=
  match (w.extractLsb' 0 4).toNat with
  | 0 => .ok (.tpload (toFE w))
  | 1 => .ok (.rres (toFE w))
  | 2 => .ok (.rpoll (toFE w))
  | 3 => .ok (.boxu (toFE w))
  | 4 => .ok (.sah (toFE w))
  | 5 => .ok (.npack (toFE w))
  | 6 => .ok (.rast (toFE w))
  | 7 => .ok (.atlnext (toFE w))
  | 8 => .ok (.atldone (toFE w))
  | 9 => .ok (.visrd (toFE w))
  | 10 => .ok (.vrsl (toFE w))
  | 11 => .ok (.samp (toFE w))
  | f => .error (.reservedFunction (wOp w).toNat f)

/-- R44: the functions of OP 0x7C. -/
def decodeMat (w : Word) : Except DecodeError Instr :=
  match (w.extractLsb' 0 4).toNat with
  | 0 => .ok (.grid (toFE w))
  | 1 => .ok (.ungrid (toFE w))
  | 2 => .ok (.mzero (toFE w))
  | 3 => .ok (.mlda (toFE w))
  | 4 => .ok (.msta (toFE w))
  | 5 => .ok (.mrd (toFE w))
  | 6 => .ok (.mwr (toFE w))
  | 7 => .ok (.mstat (toFE w))
  | 8 => .ok (.mwait (toFE w))
  | 9 => .ok (.macc (toFE w))
  | f => .error (.reservedFunction (wOp w).toNat f)

/-- R44: the functions of OP 0x7D. -/
def decodeEng (w : Word) : Except DecodeError Instr :=
  match (w.extractLsb' 0 4).toNat with
  | 0 => .ok (.copy (toFE w))
  | 1 => .ok (.copy2d (toFE w))
  | 2 => .ok (.gather (toFE w))
  | 3 => .ok (.scatter (toFE w))
  | 4 => .ok (.coll (toFE w))
  | 5 => .ok (.waitp (toFE w))
  | 6 => .ok (.waitt (toFE w))
  | 7 => .ok (.tlget (toFE w))
  | 8 => .ok (.gres (toFE w))
  | 9 => .ok (.binit (toFE w))
  | 10 => .ok (.barv (toFE w))
  | 11 => .ok (.bwait (toFE w))
  | 12 => .ok (.bstat (toFE w))
  | 13 => .ok (.yjoin (toFE w))
  | 14 => .ok (.yleave (toFE w))
  | 15 => .ok (.qres (toFE w))
  | f => .error (.reservedFunction (wOp w).toNat f)

/-- R44: the functions of OP 0x7E. -/
def decodeSys (w : Word) : Except DecodeError Instr :=
  match (w.extractLsb' 0 4).toNat with
  | 0 => .ok (.sread (toFE w))
  | 1 => .ok (.swrite (toFE w))
  | 2 => .ok (.trap (toFE w))
  | 3 => .ok (.tret (toFE w))
  | 4 => .ok (.region (toFE w))
  | 5 => .ok (.rpc (toFE w))
  | 6 => .ok (.rpcwait (toFE w))
  | 7 => .ok (.claim (toFE w))
  | 8 => .ok (.release (toFE w))
  | 9 => .ok (.setperf (toFE w))
  | 10 => .ok (.node (toFE w))
  | 11 => .ok (.emit (toFE w))
  | 12 => .ok (.bkpt (toFE w))
  | 13 => .ok (.tmark (toFE w))
  | 14 => .ok (.jcadd (toFE w))
  | 15 => .ok (.halt (toFE w))
  | f => .error (.reservedFunction (wOp w).toNat f)

/-- R44: the primary opcode map; `e` is the EXT word in front of an I- or K-format word. -/
def decodeWord (e : Option ExtWord) (w : Word) : Except DecodeError Instr :=
  match (wOp w).toNat with
  | 0x00 => nullary w .nop
  | 0x01 => .ok (.add (toFR w))
  | 0x02 => .ok (.sub (toFR w))
  | 0x03 => .ok (.mul (toFR w))
  | 0x04 => .ok (.mulh (toFR w))
  | 0x05 => .ok (.mad (toFR w))
  | 0x06 => .ok (.min (toFR w))
  | 0x07 => .ok (.max (toFR w))
  | 0x08 => .ok (.absd (toFR w))
  | 0x09 => .ok (.and (toFR w))
  | 0x0A => .ok (.or (toFR w))
  | 0x0B => .ok (.xor (toFR w))
  | 0x0C => .ok (.andn (toFR w))
  | 0x0D => .ok (.shl (toFR w))
  | 0x0E => .ok (.shr (toFR w))
  | 0x0F => .ok (.sar (toFR w))
  | 0x10 => .ok (.rot (toFR w))
  | 0x11 => .ok (.bfx (toFR w))
  | 0x12 => .ok (.bfi (toFR w))
  | 0x13 => decodeIun w
  | 0x14 => .ok (.addi (toFI e w))
  | 0x15 => .ok (.muli (toFI e w))
  | 0x16 => .ok (.andi (toFI e w))
  | 0x17 => .ok (.ori (toFI e w))
  | 0x18 => .ok (.xori (toFI e w))
  | 0x19 => .ok (.shli (toFI e w))
  | 0x1A => .ok (.shri (toFI e w))
  | 0x1B => .ok (.sari (toFI e w))
  | 0x1C => .ok (.movk (toFK e w))
  | 0x1D => .ok (.movkh (toFK e w))
  | 0x1E => .ok (.mov (toFR w))
  | 0x1F => .ok (.movf (toFR w))
  | 0x20 => .ok (.ceq (toFR w))
  | 0x21 => .ok (.cne (toFR w))
  | 0x22 => .ok (.clt (toFR w))
  | 0x23 => .ok (.cle (toFR w))
  | 0x24 => .ok (.cun (toFR w))
  | 0x25 => .ok (.ceqi (toFI e w))
  | 0x26 => .ok (.clti (toFI e w))
  | 0x27 => .ok (.clei (toFI e w))
  | 0x28 => .ok (.fadd (toFR w))
  | 0x29 => .ok (.fsub (toFR w))
  | 0x2A => .ok (.fmul (toFR w))
  | 0x2B => .ok (.fma (toFR w))
  | 0x2C => .ok (.fnma (toFR w))
  | 0x2D => .ok (.fmin (toFR w))
  | 0x2E => .ok (.fmax (toFR w))
  | 0x2F => decodeFun w
  | 0x30 => .ok (.fdot2 (toFR w))
  | 0x31 => .ok (.idot4 (toFR w))
  | 0x32 => .ok (.fscale (toFR w))
  | 0x33 => .ok (.cvt (toFI e w))
  | 0x34 => .ok (.pack (toFR w))
  | 0x35 => .ok (.unpk (toFI e w))
  | 0x36 => .ok (.mxscl (toFR w))
  | 0x38 => .ok (.shfl (toFR w))
  | 0x39 => .ok (.shflx (toFR w))
  | 0x3A => .ok (.perm (toFR w))
  | 0x3B => decodeVote e w
  | 0x3C => .ok (.tred (toFI e w))
  | 0x3D => .ok (.tscan (toFI e w))
  | 0x3E => .ok (.wid (toFI e w))
  | 0x3F => .ok (.setmode (toFK e w))
  | 0x40 => .ok (.mand (toFR w))
  | 0x41 => .ok (.mor (toFR w))
  | 0x42 => .ok (.mxor (toFR w))
  | 0x43 => .ok (.mandn (toFR w))
  | 0x44 => .ok (.mcnt (toFR w))
  | 0x45 => .ok (.mfind (toFR w))
  | 0x46 => .ok (.mget (toFR w))
  | 0x47 => .ok (.mset (toFR w))
  | 0x48 => .ok (.mexec (toFR w))
  | 0x49 => .ok (.msts (toFL w))
  | 0x4A => .ok (.mlds (toFL w))
  | 0x4B => .ok (.setmodeh (toFK e w))
  | 0x4C => .ok (.mloop (toFR w))
  | 0x4D => .ok (.mxv (toFR w))
  | 0x4E => .ok (.trace (toFR w))
  | 0x4F => .ok (.rbox (toFR w))
  | 0x50 => .ok (.bra (toFJ w))
  | 0x51 => .ok (.brnz (toFJC w))
  | 0x52 => .ok (.brz (toFJC w))
  | 0x53 => .ok (.brany (toFJM w))
  | 0x54 => .ok (.brnone (toFJM w))
  | 0x55 => .ok (.jset (toFJ w))
  | 0x56 => .ok (.brm (toFJM w))
  | 0x57 => .ok (.jmpi (toFR w))
  | 0x58 => nullary w .join
  | 0x59 => .ok (.call (toFJ w))
  | 0x5A => .ok (.calli (toFR w))
  | 0x5B => nullary w .ret
  | 0x5C => nullary w .land
  | 0x5D => nullary w .exit
  | 0x5E => .ok (.bar (toFI e w))
  | 0x5F => nullary w .yield
  | 0x60 => .ok (.ld (toFMem w))
  | 0x61 => .ok (.st (toFMem w))
  | 0x62 => .ok (.lda (toFMem w))
  | 0x63 => .ok (.str (toFMem w))
  | 0x64 => .ok (.ldk (toFMem w))
  | 0x65 => .ok (.lds (toFL w))
  | 0x66 => .ok (.sts (toFL w))
  | 0x67 => .ok (.ldy (toFL w))
  | 0x68 => .ok (.sty (toFL w))
  | 0x69 => .ok (.ldl (toFL w))
  | 0x6A => .ok (.stl (toFL w))
  | 0x6B => .ok (.ldp (toFL w))
  | 0x6C => .ok (.stp (toFL w))
  | 0x6D => .ok (.atom (toFMem w))
  | 0x6E => .ok (.atagg (toFMem w))
  | 0x6F => .ok (.latom (toFL w))
  | 0x70 => .ok (.arm (toFMem w))
  | 0x71 => .ok (.waitmon (toFI e w))
  | 0x72 => decodeFence e w
  | 0x73 => .ok (.cmaint (toFI e w))
  | 0x74 => .ok (.icinv (toFR w))
  | 0x75 => .ok (.promote (toFR w))
  | 0x76 => .ok (.demote (toFR w))
  | 0x77 => .ok (.bset (toFR w))
  | 0x78 => .ok (.bget (toFR w))
  | 0x79 => .ok (.bnar (toFR w))
  | 0x7A => .ok (.bld (toFMem w))
  | 0x7B => decodeRay w
  | 0x7C => decodeMat w
  | 0x7D => decodeEng w
  | 0x7E => decodeSys w
  | _ => .error .reservedOpcode

/-- R37, R44: the opcodes of I- and K-format words, the ones an EXT word may precede. -/
def isIK (w : Word) : Bool :=
  [0x14, 0x15, 0x16, 0x17, 0x18, 0x19, 0x1a, 0x1b, 0x1c, 0x1d, 0x25, 0x26, 0x27, 0x33, 0x35, 0x3b, 0x3c, 0x3d, 0x3e, 0x3f, 0x4b, 0x5e, 0x71, 0x72, 0x73].contains (wOp w).toNat

/-- R39: decode the word at the PC, and the one after it where it is an EXT word. The answer carries the
instruction's length in words. DESIGN CHOICE (log 10): an EXT before a word that no I or K format has, be it opcode 0x37 or a word
with a fault of its own, is the term .ext and reports 10 or 11; the spec does not say whether that word's own reasons count. -/
def decode (w0 w1 : Word) : Except DecodeError (Instr × Nat) :=
  if wOp w0 = 0x7F#7 then
    if isIK w1 then (decodeWord (some ⟨wM w0, w0.extractLsb' 0 24⟩) w1).map (·, 2)
    else .ok (.ext ⟨wM w0, w0.extractLsb' 0 24, w1⟩, 2)
  else (decodeWord none w0).map (·, 1)

/-- R4: the little-endian word at the head of a list of bytes; missing bytes read 0. -/
def bytesWord (l : List Byte) : Word :=
  (l.getD 3 0) ++ (l.getD 2 0) ++ (l.getD 1 0) ++ (l.getD 0 0)

/-- R4, R36: decode the bytes that stand at the PC, lowest address first. -/
def decodeBytes (l : List Byte) : Except DecodeError (Instr × Nat) :=
  decode (bytesWord l) (bytesWord (l.drop 4))

/-- The bytes of a number, lowest first (R4). -/
def natBytes : Nat → Nat → List Byte
  | 0, _ => []
  | k + 1, n => BitVec.ofNat 8 n :: natBytes k (n / 256)

/-- What the decoder reads from an instruction whose bits, numbered as spec/opcode_table.json numbers them, are `w`;
the bits above `nbits` are 0. -/
def decodeTableWord (nbits w : Nat) : Option Instr :=
  match decodeBytes (natBytes 8 (w % 2 ^ nbits)) with
  | .ok (i, _) => some i
  | .error _ => none

/-! ### The encoder -/

/-- R36: put M, OP and the 24 operand bits together. -/
def encM (m : Bool) (op : Nat) (x : BitVec 24) : Word := BitVec.ofBool m ++ BitVec.ofNat 7 op ++ x

def encFN (op : Nat) (o : FN) : Word := encM o.m op 0
def encFR (op : Nat) (o : FR) : Word := encM o.m op (o.d ++ o.a ++ o.b)
def encFF (op fn : Nat) (o : FF) : Word := encM o.m op (o.d ++ o.a ++ BitVec.ofNat 8 fn)
def encFI (op : Nat) (o : FI) : Word := encM o.m op (o.d ++ o.a ++ o.i)
def encFIF (op fn : Nat) (o : FIF) : Word := encM o.m op (o.d ++ o.a ++ BitVec.ofNat 8 fn)
def encFK (op : Nat) (o : FK) : Word := encM o.m op (o.d ++ o.k)
def encFJ (op : Nat) (o : FJ) : Word := encM o.m op o.j
def encFJC (op : Nat) (o : FJC) : Word := encM o.m op (o.a ++ o.off)
def encFJM (op : Nat) (o : FJM) : Word := encM o.m op (o.mask ++ o.off)
def encFMem (op : Nat) (o : FMem) : Word := encM o.m op (o.d ++ o.a ++ (o.r ++ o.w))
def encFL (op : Nat) (o : FL) : Word := encM o.m op (o.d ++ o.a ++ (o.s ++ o.w))
def encFE (op fn : Nat) (o : FE) : Word := encM o.m op (o.d ++ o.a ++ (o.gs ++ BitVec.ofNat 4 fn))
def encFFence (op fn : Nat) (o : FFence) : Word :=
  encM o.m op (o.d ++ o.a ++ (o.z ++ (BitVec.ofNat 2 fn ++ o.scope)))

/-- R39: the words of an instruction with its EXT word, where it has one. -/
def withExt (e : Option ExtWord) (w : Word) : List Word :=
  match e with
  | none => [w]
  | some x => [encM x.marked 0x7F x.imm, w]

/-- R37, R44: the words of an instruction; an event has none. -/
def encode : Instr → List Word
  | .nop o => [encFN 0x00 o]
  | .add o => [encFR 0x01 o]
  | .sub o => [encFR 0x02 o]
  | .mul o => [encFR 0x03 o]
  | .mulh o => [encFR 0x04 o]
  | .mad o => [encFR 0x05 o]
  | .min o => [encFR 0x06 o]
  | .max o => [encFR 0x07 o]
  | .absd o => [encFR 0x08 o]
  | .and o => [encFR 0x09 o]
  | .or o => [encFR 0x0A o]
  | .xor o => [encFR 0x0B o]
  | .andn o => [encFR 0x0C o]
  | .shl o => [encFR 0x0D o]
  | .shr o => [encFR 0x0E o]
  | .sar o => [encFR 0x0F o]
  | .rot o => [encFR 0x10 o]
  | .bfx o => [encFR 0x11 o]
  | .bfi o => [encFR 0x12 o]
  | .popc o => [encFF 0x13 0 o]
  | .clz o => [encFF 0x13 1 o]
  | .ctz o => [encFF 0x13 2 o]
  | .brev o => [encFF 0x13 3 o]
  | .not o => [encFF 0x13 4 o]
  | .neg o => [encFF 0x13 5 o]
  | .iabs o => [encFF 0x13 6 o]
  | .sext8 o => [encFF 0x13 7 o]
  | .sext16 o => [encFF 0x13 8 o]
  | .zext8 o => [encFF 0x13 9 o]
  | .zext16 o => [encFF 0x13 10 o]
  | .addi o => withExt o.ext (encFI 0x14 o)
  | .muli o => withExt o.ext (encFI 0x15 o)
  | .andi o => withExt o.ext (encFI 0x16 o)
  | .ori o => withExt o.ext (encFI 0x17 o)
  | .xori o => withExt o.ext (encFI 0x18 o)
  | .shli o => withExt o.ext (encFI 0x19 o)
  | .shri o => withExt o.ext (encFI 0x1A o)
  | .sari o => withExt o.ext (encFI 0x1B o)
  | .movk o => withExt o.ext (encFK 0x1C o)
  | .movkh o => withExt o.ext (encFK 0x1D o)
  | .mov o => [encFR 0x1E o]
  | .movf o => [encFR 0x1F o]
  | .ceq o => [encFR 0x20 o]
  | .cne o => [encFR 0x21 o]
  | .clt o => [encFR 0x22 o]
  | .cle o => [encFR 0x23 o]
  | .cun o => [encFR 0x24 o]
  | .ceqi o => withExt o.ext (encFI 0x25 o)
  | .clti o => withExt o.ext (encFI 0x26 o)
  | .clei o => withExt o.ext (encFI 0x27 o)
  | .fadd o => [encFR 0x28 o]
  | .fsub o => [encFR 0x29 o]
  | .fmul o => [encFR 0x2A o]
  | .fma o => [encFR 0x2B o]
  | .fnma o => [encFR 0x2C o]
  | .fmin o => [encFR 0x2D o]
  | .fmax o => [encFR 0x2E o]
  | .frcp o => [encFF 0x2F 0 o]
  | .frsq o => [encFF 0x2F 1 o]
  | .fsqrt o => [encFF 0x2F 2 o]
  | .fexp2 o => [encFF 0x2F 3 o]
  | .flog2 o => [encFF 0x2F 4 o]
  | .fsinpi o => [encFF 0x2F 5 o]
  | .fcospi o => [encFF 0x2F 6 o]
  | .ftanh o => [encFF 0x2F 7 o]
  | .ffloor o => [encFF 0x2F 8 o]
  | .fceil o => [encFF 0x2F 9 o]
  | .ftrunc o => [encFF 0x2F 10 o]
  | .frint o => [encFF 0x2F 11 o]
  | .fabs o => [encFF 0x2F 12 o]
  | .fneg o => [encFF 0x2F 13 o]
  | .fclass o => [encFF 0x2F 14 o]
  | .fdot2 o => [encFR 0x30 o]
  | .idot4 o => [encFR 0x31 o]
  | .fscale o => [encFR 0x32 o]
  | .cvt o => withExt o.ext (encFI 0x33 o)
  | .pack o => [encFR 0x34 o]
  | .unpk o => withExt o.ext (encFI 0x35 o)
  | .mxscl o => [encFR 0x36 o]
  | .shfl o => [encFR 0x38 o]
  | .shflx o => [encFR 0x39 o]
  | .perm o => [encFR 0x3A o]
  | .voteAny o => withExt o.ext (encFIF 0x3B 0 o)
  | .voteAll o => withExt o.ext (encFIF 0x3B 1 o)
  | .voteBallot o => withExt o.ext (encFIF 0x3B 2 o)
  | .tred o => withExt o.ext (encFI 0x3C o)
  | .tscan o => withExt o.ext (encFI 0x3D o)
  | .wid o => withExt o.ext (encFI 0x3E o)
  | .setmode o => withExt o.ext (encFK 0x3F o)
  | .mand o => [encFR 0x40 o]
  | .mor o => [encFR 0x41 o]
  | .mxor o => [encFR 0x42 o]
  | .mandn o => [encFR 0x43 o]
  | .mcnt o => [encFR 0x44 o]
  | .mfind o => [encFR 0x45 o]
  | .mget o => [encFR 0x46 o]
  | .mset o => [encFR 0x47 o]
  | .mexec o => [encFR 0x48 o]
  | .msts o => [encFL 0x49 o]
  | .mlds o => [encFL 0x4A o]
  | .setmodeh o => withExt o.ext (encFK 0x4B o)
  | .mloop o => [encFR 0x4C o]
  | .mxv o => [encFR 0x4D o]
  | .trace o => [encFR 0x4E o]
  | .rbox o => [encFR 0x4F o]
  | .bra o => [encFJ 0x50 o]
  | .brnz o => [encFJC 0x51 o]
  | .brz o => [encFJC 0x52 o]
  | .brany o => [encFJM 0x53 o]
  | .brnone o => [encFJM 0x54 o]
  | .jset o => [encFJ 0x55 o]
  | .brm o => [encFJM 0x56 o]
  | .jmpi o => [encFR 0x57 o]
  | .join o => [encFN 0x58 o]
  | .call o => [encFJ 0x59 o]
  | .calli o => [encFR 0x5A o]
  | .ret o => [encFN 0x5B o]
  | .land o => [encFN 0x5C o]
  | .exit o => [encFN 0x5D o]
  | .bar o => withExt o.ext (encFI 0x5E o)
  | .yield o => [encFN 0x5F o]
  | .ld o => [encFMem 0x60 o]
  | .st o => [encFMem 0x61 o]
  | .lda o => [encFMem 0x62 o]
  | .str o => [encFMem 0x63 o]
  | .ldk o => [encFMem 0x64 o]
  | .lds o => [encFL 0x65 o]
  | .sts o => [encFL 0x66 o]
  | .ldy o => [encFL 0x67 o]
  | .sty o => [encFL 0x68 o]
  | .ldl o => [encFL 0x69 o]
  | .stl o => [encFL 0x6A o]
  | .ldp o => [encFL 0x6B o]
  | .stp o => [encFL 0x6C o]
  | .atom o => [encFMem 0x6D o]
  | .atagg o => [encFMem 0x6E o]
  | .latom o => [encFL 0x6F o]
  | .arm o => [encFMem 0x70 o]
  | .waitmon o => withExt o.ext (encFI 0x71 o)
  | .fenceFull o => withExt o.ext (encFFence 0x72 0 o)
  | .fenceAcq o => withExt o.ext (encFFence 0x72 1 o)
  | .fenceRel o => withExt o.ext (encFFence 0x72 2 o)
  | .fenceStrict o => withExt o.ext (encFFence 0x72 3 o)
  | .cmaint o => withExt o.ext (encFI 0x73 o)
  | .icinv o => [encFR 0x74 o]
  | .promote o => [encFR 0x75 o]
  | .demote o => [encFR 0x76 o]
  | .bset o => [encFR 0x77 o]
  | .bget o => [encFR 0x78 o]
  | .bnar o => [encFR 0x79 o]
  | .bld o => [encFMem 0x7A o]
  | .tpload o => [encFE 0x7B 0 o]
  | .rres o => [encFE 0x7B 1 o]
  | .rpoll o => [encFE 0x7B 2 o]
  | .boxu o => [encFE 0x7B 3 o]
  | .sah o => [encFE 0x7B 4 o]
  | .npack o => [encFE 0x7B 5 o]
  | .rast o => [encFE 0x7B 6 o]
  | .atlnext o => [encFE 0x7B 7 o]
  | .atldone o => [encFE 0x7B 8 o]
  | .visrd o => [encFE 0x7B 9 o]
  | .vrsl o => [encFE 0x7B 10 o]
  | .samp o => [encFE 0x7B 11 o]
  | .grid o => [encFE 0x7C 0 o]
  | .ungrid o => [encFE 0x7C 1 o]
  | .mzero o => [encFE 0x7C 2 o]
  | .mlda o => [encFE 0x7C 3 o]
  | .msta o => [encFE 0x7C 4 o]
  | .mrd o => [encFE 0x7C 5 o]
  | .mwr o => [encFE 0x7C 6 o]
  | .mstat o => [encFE 0x7C 7 o]
  | .mwait o => [encFE 0x7C 8 o]
  | .macc o => [encFE 0x7C 9 o]
  | .copy o => [encFE 0x7D 0 o]
  | .copy2d o => [encFE 0x7D 1 o]
  | .gather o => [encFE 0x7D 2 o]
  | .scatter o => [encFE 0x7D 3 o]
  | .coll o => [encFE 0x7D 4 o]
  | .waitp o => [encFE 0x7D 5 o]
  | .waitt o => [encFE 0x7D 6 o]
  | .tlget o => [encFE 0x7D 7 o]
  | .gres o => [encFE 0x7D 8 o]
  | .binit o => [encFE 0x7D 9 o]
  | .barv o => [encFE 0x7D 10 o]
  | .bwait o => [encFE 0x7D 11 o]
  | .bstat o => [encFE 0x7D 12 o]
  | .yjoin o => [encFE 0x7D 13 o]
  | .yleave o => [encFE 0x7D 14 o]
  | .qres o => [encFE 0x7D 15 o]
  | .sread o => [encFE 0x7E 0 o]
  | .swrite o => [encFE 0x7E 1 o]
  | .trap o => [encFE 0x7E 2 o]
  | .tret o => [encFE 0x7E 3 o]
  | .region o => [encFE 0x7E 4 o]
  | .rpc o => [encFE 0x7E 5 o]
  | .rpcwait o => [encFE 0x7E 6 o]
  | .claim o => [encFE 0x7E 7 o]
  | .release o => [encFE 0x7E 8 o]
  | .setperf o => [encFE 0x7E 9 o]
  | .node o => [encFE 0x7E 10 o]
  | .emit o => [encFE 0x7E 11 o]
  | .bkpt o => [encFE 0x7E 12 o]
  | .tmark o => [encFE 0x7E 13 o]
  | .jcadd o => [encFE 0x7E 14 o]
  | .halt o => [encFE 0x7E 15 o]
  | .ext o => [encM o.marked 0x7F o.imm, o.second]
  | .loadDataReturn _ => []
  | .storePerformed _ => []
  | .slcRequest _ => []
  | .monitorRegistration _ => []
  | .l1Invalidation _ => []
  | .fenceComplete _ => []
  | .waitmonTimeout _ => []
  | .pageWalkComplete _ => []
  | .faultReply _ => []
  | .parkedReplay _ => []
  | .translationInvalidation _ => []
  | .invalidationAck => []
  | .hostReadShared _ => []
  | .hostReadForOwnership _ => []
  | .hostWrite _ => []
  | .hostAtomic _ => []
  | .snoopResponse _ => []
  | .frameClean _ => []
  | .frameCleanComplete => []
  | .cmaintComplete _ => []
  | .icinvComplete _ => []
  | .bankAccess _ => []
  | .perBankRefresh _ => []
  | .bankSegmentRequest _ => []
  | .segmentWritebackDone _ => []
  | .segmentCopyDone _ => []
  | .engineCommandStart _ => []
  | .engineTransfer _ => []
  | .engineCommandComplete _ => []
  | .yjoinComplete _ => []
  | .yleaveComplete _ => []
  | .gridTake _ => []
  | .ungridComplete _ => []
  | .tokenGrant => []
  | .tokenIdleRelease _ => []
  | .matrixCommandStart _ => []
  | .mloopStep _ => []
  | .matrixCommandFinish _ => []
  | .mxvFinish _ => []
  | .rboxFinish _ => []
  | .tploadSlotLoad _ => []
  | .rayStart _ => []
  | .rayMicroOpStep _ => []
  | .rastCommandStart _ => []
  | .rastTriangle _ => []
  | .requestPassStart _ => []
  | .requestPassSample _ => []
  | .vrslLatch _ => []
  | .claimGrant _ => []
  | .splitRotation _ => []
  | .splitReload _ => []
  | .teamGranuleReturn _ => []
  | .groupEnd _ => []
  | .spawnWrite _ => []
  | .nodeDispatch _ => []
  | .tileStaging _ => []
  | .groupPlacement _ => []
  | .nodeComplete _ => []
  | .levelMove _ => []
  | .levelMoveComplete _ => []
  | .droopTrigger _ => []
  | .droopStretchEnd _ => []
  | .droopHalvingEnd _ => []
  | .bayPowerGate _ => []
  | .bayWakeComplete _ => []
  | .corePowerGate _ => []
  | .coreWakeComplete _ => []
  | .skinTemperatureInterval _ => []
  | .governorEstimate _ => []
  | .rtimerExpiry _ => []
  | .wallDeadlineExpiry _ => []
  | .asyncTrapEntry _ => []
  | .poisonedRegisterRead _ => []
  | .teamStop _ => []
  | .teamRestore _ => []
  | .groupEviction _ => []
  | .groupRestore _ => []
  | .partitionHalt _ => []
  | .partitionSwap _ => []
  | .ctxCreate _ => []
  | .ctxSet _ => []
  | .ctxDestroy _ => []
  | .rpcReply _ => []
  | .coreRetirement _ => []
  | .powerOnReset _ => []
  | .memoryTrainingComplete _ => []
  | .fwgo _ => []
  | .firmwareVerification => []
  | .corePowerUp _ => []
  | .getMeasurements _ => []
  | .ideKmKeySet _ => []
  | .lockInterfaceRequest _ => []
  | .getDeviceInterfaceReport _ => []
  | .startInterfaceRequest _ => []
  | .stopInterfaceRequest _ => []
  | .frozenConfigurationWrite _ => []
  | .ideIntegrityFailure _ => []
  | .stopreqSet => []
  | .stopreqClear => []
  | .haltdbgClear => []
  | .dropsClear _ => []
  | .registerWrite _ => []
  | .chargeWindowAging _ => []
  | .idleBayCycle _ => []

/-- The word that carries the instruction's opcode and fields: the second of a prefixed pair. -/
def Instr.word (i : Instr) : Word := (encode i).getLastD 0

/-- R36: the primary opcode. -/
def Instr.op (i : Instr) : Nat := (wOp i.word).toNat

/-- R45: the function or selector value of an R-, I- or E-format word as CAUSE.DETAIL reports it, 0 where none exists.
DESIGN CHOICE (log 10): the kind of FENCE, the operation of CMAINT, the element of UNPK and the B field of PROMOTE are no
such values: DETAIL[15:8] is 0 for them; the spec does not say which fields count. -/
def wordFunction (w : Word) : Nat :=
  match (wOp w).toNat with
  | 0x13 | 0x2F | 0x36 | 0x33 | 0x3B | 0x3C | 0x3D | 0x3E | 0x5E => (wB w).toNat
  | 0x7B | 0x7C | 0x7D | 0x7E => (w.extractLsb' 0 4).toNat
  | _ => 0

end Sys2Proof
end

