-- ==== Sys2Proof/Machine/Operands.lean ====
section
/-!
DEFINITION. Operand forms: what each operand field of each instruction must name (R24, R28, R29 and the entries), the
element types each entry accepts (R32), and the encoding fault that a well-decoded instruction raises (R45).
-/
namespace Sys2Proof.Machine

/-- What a field must hold. -/
inductive Kind where
  /-- a value with a rule of its own -/
  | val
  /-- must be 0 (fault 9) -/
  | zero
  | vg | v | g | m
  /-- a b register index 0 to 31 (fault 16) -/
  | brec
  deriving DecidableEq, Repr

/-- An operand field: how many registers it names, at what multiple they start, whether they are read and written. -/
structure Fld where
  kind : Kind
  cnt : Nat := 1
  align : Nat := 1
  r : Bool := false
  w : Bool := false
  deriving DecidableEq, Repr

/-- The operand form of an instruction: its fields, whether R28's fault 5 applies, the ETYPEs accepted (none: any),
whether a guard slot is accepted, and further encoding faults of the entry. -/
structure Shape where
  d : Fld := ⟨.val, 1, 1, false, false⟩
  a : Fld := ⟨.val, 1, 1, false, false⟩
  b : Fld := ⟨.val, 1, 1, false, false⟩
  lane : Bool := false
  etypes : List Nat := []
  gs : Bool := true
  codes : List Nat := []
  deriving DecidableEq, Repr

def fVal : Fld := ⟨.val, 1, 1, false, false⟩
def fZero : Fld := ⟨.zero, 1, 1, false, false⟩
/-- n registers read, starting at a multiple of n. -/
def fR (k : Kind) (n : Nat) : Fld := ⟨k, n, n, true, false⟩
def fW (k : Kind) (n : Nat) : Fld := ⟨k, n, n, false, true⟩
def fRW (k : Kind) (n : Nat) : Fld := ⟨k, n, n, true, true⟩

/-- R176: the types. -/
def etInt : List Nat := [0, 1, 3, 4, 7, 8, 9, 10]
def etScalar : List Nat := [0, 1, 3, 4]
def etFloat : List Nat := [2, 5, 6]
def etPacked : List Nat := [5, 6, 7, 8, 9, 10, 11, 12]
def et64 (et : Nat) : Bool := decide (et = 3 ∨ et = 4)
/-- R176: a 64-bit type makes a register operand a pair. -/
def etRegs (et : Nat) : Nat := if et64 et then 2 else 1
/-- R194: the elements a unit of a type holds. -/
def etElems (et : Nat) : Nat := if 9 ≤ et then 4 else if 5 ≤ et then 2 else 1
/-- R194: the registers each side of a CVT uses. -/
def cvtRegs (src dst : Nat) : Nat × Nat :=
  let k := max (etElems src) (etElems dst)
  (k / etElems src * etRegs src, k / etElems dst * etRegs dst)

/-- A code when a condition holds. -/
def when (c : Bool) (code : Nat) : List Nat := if c then [code] else []

/-- R134: the registers of a load's or store's data by width code. -/
def wRegs (w : Nat) : Nat := match w with | 5 => 2 | 6 => 4 | _ => 1
/-- R38: fault 7 for W = 7, fault 8 for a width the entry does not accept. -/
def wCodes (w : Nat) (accepted : List Nat) : List Nat := if w = 7 then [7] else when (!accepted.contains w) 8

/-- R133: a reserved engine selector. -/
def selReserved (x : Nat) : Bool :=
  decide (5 ≤ x % 8) || x.testBit 3 || decide (64 ≤ x) || (decide (x / 16 % 4 ≠ 0) && decide (x % 8 ≠ 2))

/-- R39: the faults of an EXT word in front: M set, and for a K word a set bit in IMM24[23:16]. `no` adds the fault of
an entry that takes no prefix. -/
def extCodes (e : Option ExtWord) (kword no : Bool) : List Nat :=
  match e with
  | none => []
  | some x => when x.marked 10 ++ when (kword && decide (x.imm.toNat / 65536 ≠ 0)) 12 ++ when no 21

/-- R145: the registers of an atomic's operand. -/
def atomRegs (op et : Nat) : Nat := atomWidth et / 4 * (if op = 7 then 2 else 1)

def shR2 (et : Nat) (rd : Bool) (etypes : List Nat) (bcnt : Nat) : Shape :=
  let n := etRegs et
  { d := ⟨.vg, n, n, rd, true⟩, a := fR .vg n, b := fR .vg bcnt, lane := true, etypes := etypes }
def shR1 (et : Nat) (etypes : List Nat) : Shape :=
  let n := etRegs et
  { d := fW .vg n, a := fR .vg n, lane := true, etypes := etypes }
def shI (et : Nat) (o : FI) : Shape := { shR1 et etScalar with codes := extCodes o.ext false false }
def shCmp (et : Nat) (etypes : List Nat) : Shape :=
  { d := fW .m 1, a := fR .vg (etRegs et), b := fR .vg (etRegs et), etypes := etypes }
def shCmpI (et : Nat) (o : FI) : Shape :=
  { d := fW .m 1, a := fR .vg (etRegs et), etypes := etScalar, codes := extCodes o.ext false false }
def shF (n : Nat) (rd : Bool) : Shape :=
  { d := ⟨.vg, 1, 1, rd, true⟩, a := fR .vg 1, b := if n = 2 then fR .vg 1 else fVal, lane := true, etypes := etFloat }
def shLoad (o : FMem) (acc : List Nat) : Shape :=
  { d := fW .vg (wRegs o.w.toNat), a := fR .vg 1, lane := true, codes := wCodes o.w.toNat acc }
def shStore (o : FMem) (acc : List Nat) : Shape :=
  { d := fR .vg (wRegs o.w.toNat), a := fR .vg 1, codes := wCodes o.w.toNat acc }
def wAll : List Nat := [0, 1, 2, 3, 4, 5, 6]
def wStores : List Nat := [0, 2, 4, 5, 6]
def shLLoad (o : FL) (k : Kind) : Shape :=
  { d := fW k (wRegs o.w.toNat), a := fR .vg 1, lane := true, codes := wCodes o.w.toNat wAll }
def shLStore (o : FL) (k : Kind) : Shape :=
  { d := fR k (wRegs o.w.toNat), a := fR .vg 1, codes := wCodes o.w.toNat wStores }
/-- A uniform E-format entry with no guard slot. -/
def shE (o : FE) (d a : Fld) : Shape := { d := d, a := a, codes := when (decide (o.gs.toNat ≠ 0)) 3 }
/-- The command form COPY to COLL, RRES, RAST: g pair, g block of 8, a guard slot. -/
def shCmd : Shape := { d := fW .g 2, a := fR .g 8 }
/-- The extra rule of BOXU, SAH and NPACK, and of a 64-bit CAS (R24): an odd block is fault 17. -/
def oddCode (x : Byte) : List Nat := when (x.getLsbD 0) 17

/-- The operand form of an instruction under an element type, from its entry. Events have none. An odd D of a 64-bit CAS
names a 64-bit operand, the compare value, and is fault 17 by R24, not only a misplaced block, fault 21 (DEDUCED, log 10). -/
def shape (i : Instr) (et : Nat) : Shape :=
  match i with
  -- R178 to R184
  | .add _ | .sub _ | .mul _ | .mulh _ | .min _ | .max _ | .absd _ => shR2 et false etInt (etRegs et)
  | .mad _ => shR2 et true etInt (etRegs et)
  | .and _ | .or _ | .xor _ | .andn _ => shR2 et false [] (etRegs et)
  | .shl _ | .shr _ | .sar _ | .rot _ => shR2 et false etInt 1
  | .bfx _ => shR2 et false etScalar 1
  | .bfi _ => shR2 et true etScalar 1
  | .popc _ | .clz _ | .ctz _ | .brev _ | .not _ | .neg _ | .iabs _ => shR1 et etInt
  | .sext8 _ | .sext16 _ | .zext8 _ | .zext16 _ => shR1 et etScalar
  | .addi o | .muli o | .andi o | .ori o | .xori o | .shli o | .shri o | .sari o => shI et o
  | .movk o => { d := fW .vg 1, codes := extCodes o.ext true false }
  | .movkh o => { d := fRW .vg 1, codes := extCodes o.ext true true }
  | .mov _ => { shR1 et [] with b := fZero }
  | .movf _ => { d := fW .g (etRegs et), a := fR .vg (etRegs et), b := fZero }
  -- R185
  | .ceq _ | .cne _ | .clt _ | .cle _ => shCmp et [0, 1, 2, 3, 4]
  | .cun _ => shCmp et [2]
  | .ceqi o | .clti o | .clei o => shCmpI et o
  -- R186 to R193
  | .fadd _ | .fsub _ | .fmul _ | .fmin _ | .fmax _ | .fscale _ => shF 2 false
  | .fma _ | .fnma _ => shF 2 true
  | .frcp _ | .frsq _ | .fsqrt _ | .fexp2 _ | .flog2 _ | .fsinpi _ | .fcospi _ | .ftanh _ | .ffloor _ | .fceil _
  | .ftrunc _ | .frint _ | .fabs _ | .fneg _ | .fclass _ => shF 1 false
  | .fdot2 _ => { shF 2 true with etypes := [5, 6] }
  | .idot4 _ => { shF 2 true with etypes := [9, 10] }
  -- R194 to R197
  | .cvt o =>
    let (ns, nt) := if o.i.toNat ≤ 12 then cvtRegs o.i.toNat et else (1, 1)
    { d := fW .vg nt, a := fR .vg ns, lane := true, codes := extCodes o.ext false true ++ when (decide (12 < o.i.toNat)) 2 }
  | .pack _ =>
    let n := if 9 ≤ et then 2 else 1
    { d := fW .vg 1, a := fR .vg n, b := fR .vg n, lane := true, etypes := etPacked }
  | .unpk o =>
    { d := fW .vg 1, a := fR .vg 1, lane := true, etypes := etPacked,
      codes := extCodes o.ext false true ++ when (decide (etElems et ≤ o.i.toNat)) 21 }
  | .mxscl o => { d := fW .v 1, a := fR .v 1, lane := true, etypes := [2], codes := when (decide (o.b.toNat < 5 ∨ 7 < o.b.toNat)) 2 }
  -- R199 to R204
  | .shfl _ | .shflx _ => { d := fW .vg (etRegs et), a := fR .vg (etRegs et), b := fR .vg 1, lane := true }
  | .perm _ => { d := fRW .vg 1, a := fR .vg 1, b := fR .vg 1, lane := true }
  | .voteAny o | .voteAll o => { d := fW .vg 1, a := fR .v 1, codes := extCodes o.ext false true }
  | .voteBallot o => { d := fW .m 1, a := fR .v 1, codes := extCodes o.ext false true }
  | .tred o =>
    { d := fW .vg (etRegs et), a := fR .vg (etRegs et), etypes := if o.i.toNat ≤ 2 then [0, 1, 2, 3, 4] else etScalar,
      codes := extCodes o.ext false true ++ when (decide (5 < o.i.toNat)) 2 }
  | .tscan o =>
    { d := fW .v (etRegs et), a := fR .vg (etRegs et), lane := true, etypes := [0, 1, 2, 3, 4],
      codes := extCodes o.ext false true ++ when (decide (3 < o.i.toNat)) 2 }
  | .wid o => { d := fW .vg 1, a := fZero, codes := extCodes o.ext false true ++ when (decide (7 < o.i.toNat)) 2 }
  -- R35
  | .setmode o => { d := fZero, codes := extCodes o.ext true false }
  | .setmodeh o => { d := fZero, codes := (match o.ext with | none => [] | some x => when x.marked 10 ++ when (decide (x.imm.toNat / 65536 ≠ 0)) 12 ++ [13]) }
  -- R206 to R210
  | .mand _ | .mor _ | .mxor _ | .mandn _ => { d := fW .m 1, a := fR .m 1, b := fR .m 1 }
  | .mcnt _ => { d := fW .vg 1, a := fR .m 1, b := fZero }
  | .mfind _ => { d := fW .vg 1, a := fR .m 1, b := fR .g 1 }
  | .mget o => { d := fW .vg 1, a := fR .m 1, b := if o.d.toNat < 192 then fZero else fR .g 1 }
  | .mset o =>
    if o.a.toNat < 192 then { d := fRW .m 1, a := fR .vg 1, b := fZero } else { d := fRW .m 1, a := fR .vg 1, b := fR .g 1 }
  | .mexec _ => { d := fW .m 1, a := fR .m 1, b := fZero }
  | .msts o => { d := fR .m 1, a := fR .g 1, codes := wCodes o.w.toNat [4] }
  | .mlds o => { d := fR .g 1, a := fW .m 1, codes := wCodes o.w.toNat [4] }
  -- R217, MXV, R251, R260
  | .mloop _ => { d := fR .g 1, a := fR .g 8, b := fR .vg 1 }
  | .mxv _ => { d := fW .v 1, a := fR .g 8, b := fR .vg 1 }
  | .trace _ => { d := fW .g 2, a := fR .g 8, b := fR .v 8 }
  | .rbox _ => { d := fW .v 1, a := fR .g 8, b := fR .v 8 }
  -- R302
  | .bra _ | .jset _ | .call _ => {}
  | .brnz _ | .brz _ => { a := fR .g 1 }
  | .brany _ | .brnone _ | .brm _ => {}
  | .jmpi _ => { d := fZero, a := fR .vg 1, b := fZero }
  | .calli _ => { d := fZero, a := fR .g 1, b := fZero }
  | .nop _ | .join _ | .ret _ | .land _ | .exit _ | .yield _ => {}
  | .bar o => { d := fZero, a := fZero, codes := extCodes o.ext false true ++ when (decide (15 < o.i.toNat)) 2 }
  -- R134, R135
  | .ld o => shLoad o wAll
  | .ldk o => shLoad o wAll
  | .lda o => shLoad o [4, 5]
  | .st o => shStore o wStores
  | .str o => shStore o [4, 5]
  -- R141
  | .lds o => shLLoad o .vg
  | .ldy o => shLLoad o .vg
  | .ldl o => shLLoad o .vg
  | .ldp o => shLLoad o .v
  | .sts o => shLStore o .vg
  | .sty o => shLStore o .vg
  | .stl o => shLStore o .vg
  | .stp o => shLStore o .v
  -- R144 to R150
  | .atom o =>
    let n := atomRegs o.w.toNat et
    { d := fRW .v n, a := fR .vg 1, codes := when (!(atomAccepts o.w.toNat et)) 15 ++ (if n = 4 then oddCode o.d else []) }
  | .atagg o =>
    { d := fRW .v (etRegs et), a := fR .g 1, etypes := etScalar, codes := wCodes o.w.toNat [0] }
  | .latom o =>
    let op := o.s.toNat / 4
    { d := fRW .v (atomRegs op et), a := fR .vg 1,
      codes := when (!(atomAccepts op et)) 15 ++ (if atomRegs op et = 4 then oddCode o.d else []) ++ when (decide (o.s.toNat % 4 = 3)) 2 ++ when (decide (o.w.toNat ≠ 0)) 9 }
  | .arm o => { d := fZero, a := fR .g 1, codes := wCodes o.w.toNat [4] }
  | .waitmon o => { d := fW .g 1, a := fR .g 1, codes := extCodes o.ext false true ++ when (decide (o.i.toNat ≠ 0)) 9 }
  | .fenceFull o | .fenceAcq o | .fenceRel o | .fenceStrict o =>
    { d := fZero, a := fZero, codes := extCodes o.ext false true ++ when (decide (o.z.toNat ≠ 0)) 9 }
  -- R104, R106, R69
  | .cmaint o =>
    let ext := o.i.toNat / 32
    let opn := o.i.toNat / 8 % 4
    { d := fZero, a := fR .g 2, codes := extCodes o.ext false true ++ when (decide (3 ≤ ext ∨ opn = 3)) 2 ++
        when (decide (ext = 2 ∧ opn = 1)) 21 }
  | .icinv _ => { d := fZero, a := fR .g 2, b := fR .g 1 }
  | .promote o => { d := fW .g 1, a := fR .g 2, codes := when (decide (2 ≤ o.b.toNat)) 9 }
  | .demote _ => { d := fW .g 1, a := fR .g 2, b := fZero }
  -- R80 to R82
  | .bset _ => { d := fW .brec 1, a := fR .g 4, b := fZero }
  | .bget _ => { d := fW .g 4, a := fR .brec 1, b := fZero }
  | .bnar _ => { d := fW .brec 1, a := fR .brec 1, b := fR .g 2 }
  | .bld o => { d := fW .brec 1, a := fR .g 1, codes := wCodes o.w.toNat [6] }
  -- chapter 11, 12
  | .tpload _ => { d := fW .g 2, a := fR .g 4 }
  | .rres _ => shCmd
  | .rpoll o => shE o (fW .g 1) fZero
  | .boxu o => { shE o ⟨.v, 6, 2, true, true⟩ ⟨.v, 6, 2, true, false⟩ with codes := when (decide (o.gs.toNat ≠ 0)) 3 ++ oddCode o.d ++ oddCode o.a }
  | .sah o => { shE o (fW .v 1) ⟨.v, 7, 8, true, false⟩ with codes := when (decide (o.gs.toNat ≠ 0)) 3 ++ oddCode o.a }
  | .npack o => { shE o ⟨.v, 16, 16, false, true⟩ ⟨.v, 30, 32, true, false⟩ with codes := when (decide (o.gs.toNat ≠ 0)) 3 ++ oddCode o.d ++ oddCode o.a }
  | .rast _ => shCmd
  | .atlnext o => shE o (fW .g 4) (fW .v 1)
  | .atldone o => shE o fZero (fR .g 1)
  | .visrd o => shE o (fRW .v 4) (fR .g 4)
  | .vrsl o => shE o (fW .g 1) (fR .g 4)
  | .samp o => shE o (fRW .v 2) (fR .g 8)
  -- R237
  | .grid o => { shE o fVal fZero with codes := when (decide (o.gs.toNat ≠ 0)) 3 ++ when (decide (2 < o.d.toNat)) 21 }
  | .ungrid o => shE o fZero fZero
  | .mzero o => shE o fZero (fR .g 1)
  | .mlda o => shE o (fR .g 1) (fR .g 4)
  | .msta o => shE o (fR .g 1) (fR .g 4)
  | .mrd o => shE o (fW .v 1) (fR .g 2)
  | .mwr o => shE o (fR .g 2) (fR .v 1)
  | .mstat o => shE o (fW .g 2) (fR .g 1)
  | .mwait o => shE o fZero (fR .g 1)
  | .macc o => shE o (fR .g 1) (fR .g 1)
  -- R133
  | .copy _ | .copy2d _ | .gather _ | .scatter _ | .coll _ => shCmd
  | .waitp o => { shE o fVal (fR .g 1) with codes := when (decide (o.gs.toNat ≠ 0)) 3 ++ when (decide (7 < o.d.toNat)) 2 }
  | .waitt o => { shE o fVal (fR .g 2) with codes := when (decide (o.gs.toNat ≠ 0)) 3 ++ when (selReserved o.d.toNat) 2 }
  | .tlget o => { shE o (fW .g 4) fVal with codes := when (decide (o.gs.toNat ≠ 0)) 3 ++ when (selReserved o.a.toNat) 2 }
  | .gres o => { d := fZero, a := fR .g 1, codes := when (decide (o.gs.toNat = 0)) 21 }
  | .binit o => shE o (fR .g 1) (fR .g 1)
  | .barv o => shE o (fW .g 1) (fR .g 1)
  | .bwait o => shE o (fR .g 1) (fR .g 1)
  | .bstat o => shE o (fW .g 1) (fR .g 1)
  | .yjoin o => shE o (fW .g 1) (fR .g 1)
  | .yleave o => shE o (fW .g 1) fZero
  | .qres o => { shE o fVal (fR .g 1) with codes := when (decide (o.gs.toNat ≠ 0)) 3 ++ when (selReserved o.d.toNat) 2 }
  -- R46, R357, R388, R312, R337, R324, R326, R402, R319
  | .sread o => { shE o (fW .vg 1) fVal with codes := when (decide (o.gs.toNat ≠ 0)) 3 ++ when (decide (0x1F ≤ o.a.toNat)) 18 }
  | .swrite o => { shE o fVal (fR .g 1) with codes := when (decide (o.gs.toNat ≠ 0)) 3 ++ when (decide (0x1F ≤ o.d.toNat)) 18 }
  | .trap o =>
    { shE o fVal (if o.a.toNat = 0 then fVal else fR .g 1) with
      codes := when (decide (o.gs.toNat ≠ 0)) 3 ++ when (decide (31 < o.d.toNat)) 21 }
  | .tret o => shE o fZero fZero
  | .region o => shE o fZero fZero
  | .rpc o => shE o (fW .g 1) (fR .g 8)
  | .rpcwait o => shE o (fW .g 2) (fR .g 1)
  | .claim o => shE o (fW .g 1) (fR .g 1)
  | .release o => shE o (fW .g 1) (fR .g 1)
  | .setperf o => shE o fZero (fR .g 1)
  | .node o => shE o (fW .g 2) (fR .g 8)
  -- R326: NODE's operand faults, an odd D among them
  | .emit o => shE o ⟨.g, 1, 2, true, true⟩ (fR .g 8)
  | .bkpt o => shE o fVal fZero
  | .tmark o => shE o fZero (fR .g 1)
  | .jcadd o => shE o fZero (fR .g 2)
  | .halt o => { shE o fVal fVal with codes := when (decide (o.gs.toNat ≠ 0)) 3 ++ [20] }
  | .ext o => { codes := when o.marked 10 ++ [11] }
  | _ => {}

/-! ### Encoding faults (R45) -/

/-- The faults of one field holding x: the wrong file or index, a misplaced or overlong pair or block, a vector
register at or above the allotment, a value that must be 0. -/
def Fld.codes (f : Fld) (x gran : Nat) : List Nat :=
  let misplaced := when (decide (x % f.align ≠ 0)) (if f.align = 2 then 17 else 21)
  -- R28: 192 and above name no v register, so none of them lies above the allotment
  let beyond := when (decide (8 * gran < min 192 (x + f.cnt))) 4
  let vRegs := misplaced ++ when (decide (192 < x + f.cnt)) 17 ++ beyond
  -- g(n) is encoded as 192 + n, and 192 is a multiple of every alignment
  let gRegs := misplaced ++ when (decide (256 < x + f.cnt)) 17
  match f.kind with
  | .val => []
  | .zero => when (decide (x ≠ 0)) 9
  | .vg => if x < 192 then vRegs else gRegs
  | .v => if x < 192 then vRegs else [16]
  | .g => if x < 192 then [16] ++ beyond else gRegs
  | .m => when (decide (15 < x)) 6
  | .brec => when (decide (31 < x)) 16

/-- The three operand bytes of the word that carries the opcode. -/
def fieldsOf (i : Instr) : Nat × Nat × Nat :=
  let w := i.word.toNat
  (w / 65536 % 256, w / 256 % 256, w % 256)

/-- JC words carry their register in [23:16]. -/
def fieldAOf (i : Instr) : Nat :=
  match i with
  | .brnz o => o.a.toNat
  | .brz o => o.a.toNat
  | _ => (fieldsOf i).2.1

/-- R45: every encoding fault of an instruction of a split with this ETYPE and allotment. -/
def encodingFaults (i : Instr) (et gran : Nat) : List Nat :=
  let sh := shape i et
  let (d, _, b) := fieldsOf i
  let a := (fieldAOf i)
  sh.codes ++ sh.d.codes d gran ++ sh.a.codes a gran ++ sh.b.codes b gran ++
  when (!sh.etypes.isEmpty && !sh.etypes.contains et) 15 ++
  when (sh.lane && decide (192 ≤ d) && ((sh.a.r && decide (sh.a.kind = .vg ∨ sh.a.kind = .v) && decide (a < 192)) ||
    (sh.b.r && decide (sh.b.kind = .vg ∨ sh.b.kind = .v) && decide (b < 192)))) 5

/-- R45: the lowest code, where several reasons apply. -/
def lowest : List Nat → Option Nat
  | [] => none
  | c :: cs => match lowest cs with | none => some c | some k => some (min c k)

/-- R45: CAUSE.DETAIL of an encoding fault. -/
def encodingDetail (i : Instr) : Nat := i.op + 256 * wordFunction i.word

/-! ### Registers an instruction reads and writes -/

/-- The registers a field names, when it names registers of a file. -/
def Fld.regs (f : Fld) (x : Nat) : List (RFile × Nat) :=
  match f.kind with
  | .vg | .v | .g => (List.range f.cnt).map fun k => if x < 192 then (.v, x + k) else (.g, x + k - 192)
  | .m => [(.m, x)]
  | .brec => [(.b, x)]
  | _ => []

/-- R40, R42, R365: the registers an instruction reads by its fields, its guard apart. -/
def reads (i : Instr) (et : Nat) : List (RFile × Nat) :=
  let sh := shape i et
  let (d, _, b) := fieldsOf i
  (if sh.d.r then sh.d.regs d else []) ++ (if sh.a.r then sh.a.regs (fieldAOf i) else []) ++ (if sh.b.r then sh.b.regs b else []) ++
  (match i with
    | .brany o => [(.m, o.mask.toNat)]
    | .brnone o => [(.m, o.mask.toNat)]
    | .brm o => [(.m, o.mask.toNat)]
    | .ret _ => [(.g, 62)]
    | _ => [])

/-- The registers an instruction writes. -/
def writes (i : Instr) (et : Nat) : List (RFile × Nat) :=
  let sh := shape i et
  let (d, _, b) := fieldsOf i
  (if sh.d.w then sh.d.regs d else []) ++ (if sh.a.w then sh.a.regs (fieldAOf i) else []) ++ (if sh.b.w then sh.b.regs b else []) ++
  (match i with
    | .call _ => [(.g, 62)]
    | .calli _ => [(.g, 62)]
    | .bar _ => []
    | _ => [])

end Sys2Proof.Machine
end

