-- ==== Sys2Proof/Machine/Flags.lean ====
section
/-!
DEFINITION. Exceptions of arithmetic and their traps (R174), and how an instruction issues: whether it is marked (R41),
in which form it passes the bays (R292), its charge (R338).
-/
namespace Sys2Proof.Machine

/-! ### Arithmetic exceptions (R174) -/

/-- R174: the type group of an ETYPE. -/
def typeGroup (et : Nat) : Nat :=
  match et with
  | 0 | 1 => 0
  | 2 => 4
  | 3 | 4 => 1
  | 5 => 5
  | 6 => 6
  | 7 | 8 => 2
  | 9 | 10 => 3
  | _ => 7

/-- R46: STICKY.TRAPEN. -/
def Team.trapEn (t : Team) : Nat := t.sticky.toNat / 65536 % 32

/-- The OR of the flags of all lanes. -/
def orFlags (l : List (Nat × Nat)) : Nat := l.foldl (fun a p => Nat.lor a p.2) 0

/-- R174: the highest exception 0 to 4 that is raised and enabled. -/
def enabledException (flags en : Nat) : Option Nat :=
  [4, 3, 2, 1, 0].find? fun x => flags.testBit x && en.testBit x

/-- R174: the lanes that raised exception x. -/
def lanesRaising (l : List (Nat × Nat)) (x : Nat) : LaneMask :=
  maskOf 1024 ((l.filter fun p => p.2.testBit x).map (·.1))

/-! ### The marker (R40, R41) -/

/-- R41, R358, R364: what acts as if marked whatever its M bit. -/
def actsMarked (i : Instr) : Bool :=
  match i with
  | .brm _ | .jmpi _ | .join _ | .bar _ | .exit _ | .tret _ | .region _ => true
  | _ => false

def isMarked (i : Instr) : Bool := wM i.word || actsMarked i

/-! ### Passes (R292) -/

/-- R292: how an instruction passes the bays. -/
inductive Form where
  /-- one pass per non-empty word of EXEC, word w on bay w mod 4 -/
  | lanes
  /-- one pass per non-empty word, all on one bay -/
  | sweep
  /-- one pass on one bay -/
  | once
  deriving DecidableEq, Repr

/-- R175, R292: the form of an instruction. -/
def formOf (i : Instr) : Form :=
  let (d, a, _) := fieldsOf i
  match i with
  | .ceq _ | .cne _ | .clt _ | .cle _ | .cun _ | .ceqi _ | .clti _ | .clei _ => .sweep
  | .movf _ => if a < 192 then .sweep else .once
  | .voteAny _ | .voteAll _ | .voteBallot _ | .tscan _ | .mcnt _ | .mfind _ => .sweep
  | .tred _ => if 192 ≤ d ∧ 192 ≤ a then .once else .sweep
  | .shfl _ | .shflx _ => if d < 192 then .sweep else .once
  | .mget _ => if d < 192 then .sweep else .once
  | .mset _ => if a < 192 then .sweep else .once
  | .ld _ | .lda _ | .ldk _ | .lds _ | .ldy _ | .ldl _ => if d < 192 then .lanes else .once
  | .st _ | .str _ | .sts _ | .sty _ | .stl _ => if d < 192 ∨ a < 192 then .lanes else .once
  | .ldp _ | .stp _ | .atom _ | .atagg _ | .latom _ => .lanes
  | .boxu _ | .sah _ | .npack _ | .visrd _ | .samp _ => .lanes
  | .mxscl _ | .mxv _ | .rbox _ => .lanes
  | .sread _ => if d < 192 then .lanes else .once
  | .add _ | .sub _ | .mul _ | .mulh _ | .mad _ | .min _ | .max _ | .absd _ | .and _ | .or _ | .xor _ | .andn _
  | .shl _ | .shr _ | .sar _ | .rot _ | .bfx _ | .bfi _ | .popc _ | .clz _ | .ctz _ | .brev _ | .not _ | .neg _
  | .iabs _ | .sext8 _ | .sext16 _ | .zext8 _ | .zext16 _ | .addi _ | .muli _ | .andi _ | .ori _ | .xori _
  | .shli _ | .shri _ | .sari _ | .movk _ | .movkh _ | .mov _ | .fadd _ | .fsub _ | .fmul _ | .fma _ | .fnma _
  | .fmin _ | .fmax _ | .frcp _ | .frsq _ | .fsqrt _ | .fexp2 _ | .flog2 _ | .fsinpi _ | .fcospi _ | .ftanh _
  | .ffloor _ | .fceil _ | .ftrunc _ | .frint _ | .fabs _ | .fneg _ | .fclass _ | .fdot2 _ | .idot4 _ | .fscale _
  | .cvt _ | .pack _ | .unpk _ | .perm _ | .wid _ => if d < 192 then .lanes else .once
  | _ => .once

/-- R212: a pass of chapter "Lane Arithmetic" in lane or reducing form, which a gridded quad holds. WID is not held: the
program of R407 issues it in a team that holds the grid (DEDUCED, log 34). -/
def heldByGrid (i : Instr) : Bool :=
  let op := i.op
  (decide (1 ≤ op ∧ op ≤ 0x3E) || decide (0x44 ≤ op ∧ op ≤ 0x47)) &&
  (match i with
    | .wid _ => false
    | .mcnt _ | .mfind _ | .mget _ => true
    | _ => decide (formOf i ≠ .once))

/-- The words of a mask that have a set bit, ascending, for a team of n lanes. -/
def maskWords (x : LaneMask) (n : Nat) : List Nat :=
  (List.range (n / 32)).filter fun w => decide (x.extractLsb' (32 * w) 32 ≠ 0#32)

/-- R292: the passes of an instruction under an EXEC: bay of the home quad and mask word. -/
def passesOf (i : Instr) (exec : LaneMask) (n : Nat) : List (Nat × Nat) :=
  let ws := maskWords exec n
  let b := ws.headD 0
  match formOf i with
  | .once => [(b % 4, b)]
  | .sweep => if ws = [] then [(0, 0)] else ws.map fun w => (b % 4, w)
  | .lanes => if ws = [] then [(0, 0)] else ws.map fun w => (w % 4, w)

/-- R338: the charge weight. -/
def weightOf (i : Instr) : Nat :=
  let op := i.op
  let f := wordFunction i.word
  match op with
  | 0 => 0
  | 0x03 | 0x04 | 0x05 | 0x15 => 4
  | 0x28 | 0x29 | 0x2A | 0x2D | 0x2E | 0x6D | 0x6E | 0x6F => 4
  | 0x2B | 0x2C => 5
  | 0x30 | 0x31 | 0x36 => 6
  | 0x2F => if f < 8 then 8 else 3
  | 0x32 | 0x33 | 0x34 | 0x35 => 3
  | 0x3F | 0x4B => 1
  | 0x7B => match f with | 3 => 4 | 4 => 6 | 5 => 6 | 11 => 3 | _ => 1
  | _ =>
    if op ≤ 0x27 then 2
    else if 0x38 ≤ op ∧ op ≤ 0x3E then 3
    else if 0x40 ≤ op ∧ op ≤ 0x4A then 2
    else if 0x60 ≤ op ∧ op ≤ 0x6C then 3
    else 1

end Sys2Proof.Machine
end

