-- ==== Sys2Proof/Machine/Issue.lean ====
section
/-!
DEFINITION. How an instruction issues: what it waits for and what it traps on before it acts (R40 to R45, R155, R212,
R305, R331, R355, R365, R400), and what issuing adds beside its effect: passes, charges, the lane-cycle record (R292, R331,
R338, R397), and what the cycles of a core do (R297, R334, R339, R340, R343, R344).
-/
namespace Sys2Proof.Machine

/-! ### What an instruction's meaning is given -/

/-- The issue of one instruction: its team as the instruction reads it (R34, R40), its split, its group, its active
lanes (R31), its length in bytes (R39). -/
structure Ctx where
  i : Instr
  tid : Nat
  uid : Nat
  team : Team
  sp : Split
  grp : Group
  act : LaneMask
  len : Nat
  nonce : Nat
  deriving DecidableEq, Repr

/-- R90: what a replaying instruction had read of a register. -/
def Split.captured (p : Split) (f : RFile) (r : Nat) : Option (List (Nat × Nat)) :=
  (p.caps.find? fun q => decide (q.1 = f) && decide (q.2.1 = r)).map (·.2.2)

/-- R31: G of a split, as its team's masks read. -/
def guardOf (t : Team) (p : Split) (nonce uid : Nat) : LaneMask :=
  if p.modeGuard = 0 then BitVec.allOnes 1024
  else
    let m := BitVec.ofNat 1024 (match p.captured .m p.modeGuard with
      | some vals => sget 0 vals 0
      | none => t.read nonce uid .m p.modeGuard 0)
    if p.modeGinv then ~~~m else m

def mkCtx (i : Instr) (t : Team) (p : Split) (g : Group) (nonce : Nat) : Ctx :=
  { i := i, tid := t.id, uid := p.uid, team := t, sp := p, grp := g,
    act := p.exec &&& guardOf t p nonce p.uid, len := 4 * (encode i).length, nonce := nonce }

/-- The active lanes, ascending. -/
def Ctx.lanes (c : Ctx) : List Nat := c.team.lanes c.act
def Ctx.et (c : Ctx) : Nat := c.sp.modeEtype
/-- Read a register lane of a file. -/
def Ctx.rd (c : Ctx) (f : RFile) (r l : Nat) : Nat :=
  match c.sp.captured f r with
  | some vals => sget 0 vals l
  | none => c.team.read c.nonce c.uid f r l
/-- R28: read a v or g field; a g register is the same value in every lane. -/
def Ctx.src (c : Ctx) (x l : Nat) : Nat := if x < 192 then c.rd .v x l else c.rd .g (x - 192) 0
/-- A g field. -/
def Ctx.g (c : Ctx) (x : Byte) : Nat := c.rd .g (x.toNat - 192) 0
/-- A g field, k registers further on. -/
def Ctx.gAt (c : Ctx) (x : Byte) (k : Nat) : Nat := c.rd .g (x.toNat - 192 + k) 0
def Ctx.m (c : Ctx) (r : Nat) : LaneMask := BitVec.ofNat 1024 (c.rd .m r 0)
def Ctx.core (c : Ctx) : Nat := c.team.core
/-- R273: the split as an agent. -/
def Ctx.agent (c : Ctx) : Agent := .split c.core c.grp.id c.tid c.uid
/-- R199: the lane whose A a lane of SHFL or SHFLX takes: the one B names, when it is present, else its own. -/
def Ctx.sourceLane (c : Ctx) (cross : Bool) (b : Byte) (l : Nat) : Nat :=
  let k := if cross then Nat.xor l (c.src b.toNat l % 1024) else c.src b.toNat l
  if k < c.team.size ∧ c.team.present.getLsbD k then k else l

/-! ### Outstanding results and traps (R41) -/

/-- R41: an access of the team whose lanes are all written or parked: what has come back is written, poison and all (R365),
and the parked lanes alone are left to it. -/
def State.flushParked (s : State) (tid : Nat) : State :=
  let fs := s.flights.filter fun f => decide (f.team = tid) && f.onlyParked && !f.returned && !f.kind.whole
  fs.foldl (fun s f =>
    match f.dst with
    | none => s
    | some (file, _) =>
      let (cols, bad) := f.donePart.results
      let s := s.modTeam tid fun t =>
        (cols.foldl (fun (t : Team) (c : Nat × List (Nat × Nat)) => t.land f.id f.split file c.1 c.2 (some f.path)) t).mark (t.spoilt f.id file cols bad)
      s.modFlight f.id Flight.openPart) s

/-- R41: the team has register results that have not been written, parked lanes apart. -/
def State.outstanding (s : State) (t : Team) : Bool :=
  t.awaits.any fun a => !(s.flights.any fun f => decide (f.id = a.tok) && f.onlyParked)

/-- R150: the registrations of a split's earlier ARMs that are still on their way register nothing. -/
def State.dropArms (s : State) (tid uid : Nat) : State :=
  { s with flights := s.flights.map fun f =>
      if f.team = tid ∧ f.split = uid ∧ f.kind = .arm ∧ f.performed = false then { f with aux := [2] } else f }
/-- R150: a registration of the split is still on its way. -/
def State.arming (s : State) (tid uid : Nat) : Bool :=
  s.flights.any fun f => decide (f.team = tid) && decide (f.split = uid) && decide (f.kind = .arm) && !f.performed && decide (f.aux ≠ [2])

/-- R371: what a stop does to a split. A waiting WAITMON will report 2, or 0 where a deferral has fired its monitor (R152);
`arming` says that a registration is on its way, whose monitor then counts as fired (DEDUCED, log 34). -/
def Split.stop (p : Split) (arming : Bool) : Split :=
  let p := match p.st with
    | .monWait => { p with monWait := p.monWait.map fun w => { w with reason := some (w.reason.getD (if p.mon = .fired then 0 else 2)) } }
    | .blocked => p.rewound
    | _ => p
  if p.mon = .armed ∨ arming then { p with mon := .fired } else p

/-- R233: the words that a team's matrix commands have read ahead are discarded with its operand panels. -/
def Group.dropPanels (g : Group) (tid : Nat) : Group :=
  { g with engs := g.engs.map fun e =>
      if e.1 % 8 = 2 then (e.1, { e.2 with cmds := e.2.cmds.map fun c => if c.team = tid then { c with ahead := [] } else c }) else e }

/-- R339: the cells of a grid compute nothing. -/
def State.cellsIdle (s : State) (core : Nat) (g : GridSt) : Bool :=
  match s.core? core with | some k => g.quads.all fun q => decide ((sget {} k.quads q).clocks = 0) | none => true
/-- R233: a stop of the team falls at a step boundary of its sequencers. -/
def State.betweenSteps (s : State) (t : Team) : Bool :=
  match t.grid with | some g => g.retake || s.cellsIdle t.core g | none => true

/-- R371: stop a team. Fences are discarded, queues left, the grid released to be taken again (R233). -/
def State.stopTeam (s : State) (tid : Nat) (res : Residence) : State :=
  match s.team? tid with
  | none => s
  | some t =>
    let s := (s.flushParked tid).leaveQueues tid
    let all := t.live ++ t.handler.toList
    let s := all.foldl (fun s p => s.discardFence tid p.uid) s
    let arms := (all.filter fun p => s.arming tid p.uid).map (·.uid)
    let s := (arms.foldl (fun s u => s.dropArms tid u) s).modGroup t.group fun g => g.dropPanels tid
    let stop (p : Split) : Split := p.stop (arms.contains p.uid)
    let held := match t.grid with | some g => g.tokens | none => 0
    let s := { s.modTeam tid (fun t => { t.settleAll with
        splits := t.splits.map stop
        deferred := t.deferred.map stop
        handler := t.handler.map stop
        residence := res
        loop := []
        grid := t.grid.map fun g => { g with tokens := 0, idle := 0, retake := true } }) with
      monRegs := s.monRegs.filter fun r => r.2.1 ≠ tid }
    { s with gov := s.gov.returnTokens held s.tokensHeld }

/-- R399, R401: the stop records of a team, one for each live split. -/
def State.stopRecords (s : State) (t : Team) (cause : Nat) : State :=
  let asid := match s.group? t.group with | some g => g.asid | none => 0
  let splits := (maskOf 8 (t.splits.map (·.slot))).toNat + t.deferred.length * 256 + t.joins.length * 65536
  (t.live ++ t.handler.toList).foldl (fun s p =>
    s.traceRecord t.id p.uid ([4 + 160 * 256, asid, t.teamReg, p.pc.toNat, cause, splits, s.shownSlot t p, 0] ++
      (List.range 32).map fun w => (p.exec.extractLsb' (32 * w) 32).toNat)) s

/-- R401: stop a team for the debugger; `trap` is the trap that stopped it, taken when the debugger lets it go. -/
def State.debugStop (s : State) (tid cause : Nat) (trap : Option (Nat × Nat × Nat × LaneMask × Bool × Word)) : State :=
  match s.team? tid with
  | none => s
  | some t => ((s.stopRecords t cause).stopTeam tid .debugStopped).modTeam tid fun t => { t with stopTrap := trap }

/-- R41, R155, R353: a precise trap of split `uid` with a number of lanes. None: it waits for outstanding results of the
team or for the split's own incomplete fence. With HALTDBG the debug codes stop the team (R401). -/
def State.raise (s : State) (tid uid code detail : Nat) (lanes : LaneMask) (skip : Bool) (epc : Word) : Option State :=
  match s.team? tid with
  | none => some s
  | some t =>
    match t.split? uid with
    | none => some s
    | some f =>
      let asid := match s.group? t.group with | some g => g.asid | none => 0
      let stops := decide (159 ≤ code ∧ code ≤ 161) && s.dbg.haltdbg && decide (s.dbg.asid = asid)
      if s.outstanding t ∨ f.fence ≠ none ∨ (stops && !(s.betweenSteps t)) = true then none
      else
        let s := (s.flushParked tid).modSplit tid uid fun p => { p with caps := [] }
        some (if stops then
          s.debugStop tid (detail % 65536 * 65536 + code) (some (uid, code, detail, lanes, skip, epc))
        else s.takeTrap tid uid code detail lanes skip epc false)

/-! ### Poison (R365) -/

/-- R365: an instruction reads a poisoned register: the region restarts, or the group takes the group path. -/
def State.poisonHit (s : State) (tid uid : Nat) (reg : RFile × Nat) : State :=
  match s.team? tid with
  | none => s
  | some t =>
    match t.region with
    | some q =>
      if t.depth = 0 ∧ q.written.contains reg then
        if q.restarts < 4 then
          if s.outstanding t then s
          else
            let s := (s.flushParked tid).leaveQueues tid (!(s.cellWork t))
            let p := (t.split? uid).getD { uid := uid }
            let s := s.discardFence tid uid
            let s := (s.flights.filter fun f => decide (f.team = tid) && f.parked).foldl (fun s f => s.abandonFlight f.id) s
            let one : Split := { uid := uid, pc := t.regpc, own := q.own &&& t.present, exec := q.exec &&& t.present, mode := q.mode,
                                 mon := p.mon, monLine := p.monLine, age := p.age, res := t.cycle % 2 ^ 32, psig := q.psig }
            s.modTeam tid fun t => { t.settleAll with
              splits := [one], deferred := [], joins := [], rotCount := 0, rotDue := 0
              region := some { q with written := [], restarts := q.restarts + 1, again := true }
              poison := t.poison.filter fun x => !(q.written.contains (x.1, x.2.1)) }
        else s.groupPath t.group 341 0 true true
      else s.groupPath t.group 337 0 true true
    | none => s.groupPath t.group 337 0 true true

/-! ### Passes and cycles (R292, R297, R331, R334, R338 to R344, R397) -/

/-- R393, R396: the context's TDI is locked or running, so the debug window does not reach it. -/
def State.protected (s : State) (asid : Nat) : Bool :=
  match (s.ctx? asid).bind (·.tdi) with
  | none => false
  | some t => match s.tdis.find? fun q => decide (q.1 = t) with
    | some (_, d) => decide (d.st = .locked ∨ d.st = .run)
    | none => false

/-- The instruction at a split's PC, where its team's loop buffer holds it. -/
def State.buffered (s : State) (t : Team) (p : Split) : Option Instr :=
  match s.group? t.group with
  | none => none
  | some g =>
    match t.loop.find? fun l => decide (l.asid = g.asid) && decide (l.va = (g.codeBase + p.pc.toNat) % 2 ^ 48) with
    | some l => (match decode l.w0 (l.w1.getD 0) with | .ok (i, _) => some i | .error _ => none)
    | none => none

/-- R344: a READY split of a team homed on the bay's quad has a pass for the bay, or a pass waits for it. -/
def State.bayWanted (s : State) (core bay : Nat) : Bool :=
  (match s.core? core with | some k => k.passes.any fun p => decide (p.bay = bay) | none => false) ||
  s.teams.any fun t => decide (t.core = core) && decide (t.quad = bay / 4) && decide (t.residence = .resident) &&
    (t.handler.elim t.splits fun h => [h]).any fun (p : Split) =>
      decide (p.st = SState.ready) && (match s.buffered t p with
        | some i => (passesOf i p.exec t.size).any fun q => decide (q.1 = bay % 4)
        | none => false)

/-- R297, R334: a resident cycle of a team. `busy` says that its matrix context has unfinished work or it runs MXV. -/
def Team.tick (t : Team) (busy : Bool) : Team :=
  if t.residence = .resident then
    let counts := decide (t.deferred ≠ []) && t.handler.isNone
    { t with
      cycle := t.cycle + 1
      rtimer := if t.rtimer = 0 then 0 else t.rtimer - 1
      async := if t.rtimer = 1 && !(t.async.contains 321) then t.async ++ [321] else t.async
      rotCount := if counts then t.rotCount + 1 else t.rotCount
      rotDue := if counts && decide ((t.rotCount + 1) % 4096 = 0) then t.rotDue + 1 else t.rotDue
      lastSlot := none
      raised := 0
      splits := t.splits.map fun p => if p.reload = 0 then p else { p with reload := p.reload - 1 }
      grid := t.grid.map fun g => { g with idle := if busy then 0 else g.idle + 1 } }
  else { t with lastSlot := none, raised := 0 }

/-- R228: the team's matrix context, that of its home quad or one that holds its commands (R376), has unfinished MLOOP or MACC
commands, or the team runs MXV. -/
def State.gridBusy (s : State) (t : Team) : Bool :=
  ((t.splits ++ t.handler.toList).any fun p => match p.busy with | some (.mxv _, _ :: _ :: _) => true | _ => false) ||
  (match s.group? t.group with
    | some g => g.engs.any fun e => decide (e.1 % 8 = 2) &&
        (decide (e.1 / 16 = t.quad) || e.2.cmds.any fun c => decide (c.team = t.id) && c.unfinished) &&
        e.2.cmds.any fun c => decide (c.op = .mloop ∨ c.op = .macc) && c.unfinished
    | none => false)

/-- R343: a cycle of a droop sequence. The trigger's own cycle counts with the stretched ones. -/
def Droop.tick (d : Droop) : Droop :=
  match d with
  | .none => .none
  | .stretched k => if 1 < k then .stretched (k - 1) else .halved 64
  | .halved k => if 1 < k then .halved (k - 1) else .none

/-- R344: a cycle of a bay ends, in which a candidate, if there was one, has issued (R331); `wanted` says that a READY split
has a pass for it. -/
def Bay.tick (b : Bay) (wanted : Bool) : Bay :=
  { b with idle := if b.used || decide (b.gate ≠ .awake) then 0 else b.idle + 1
           gate := match b.gate with | .waking k => if 1 < k then .waking (k - 1) else .awake | g => g
           need := if wanted ∧ b.gate = .gated then b.need + 1 else 0
           prev := b.used
           used := false
           counted := false }

/-- R397: where a count goes. -/
def Lcr.bin (l : Lcr) (pc : Word) : Nat :=
  let b := (pc - l.base).toNat / 2 ^ l.shift
  if b < 63 then b else 63
def Lcr.count (l : Lcr) (bin k n : Nat) : Lcr :=
  let add (m : List (Nat × Dword)) : List (Nat × Dword) := sset 0 m (5 * bin + k) (sget 0 m (5 * bin + k) + BitVec.ofNat 64 n)
  { l with counts := add l.counts, now := add l.now }

/-- R397: an idle cycle of a bay. -/
def State.lcrIdle (s : State) (l : Lcr) (b : Bay) : Lcr :=
  if b.counted then l
  else
    let bin := match b.last with
      | none => 63
      | some (t, p, pc) => l.bin (match (s.team? t).bind (·.split? p) with | some q => q.pc | none => pc)
    l.count bin 4 32

/-- R397: an issued pass. R21 has lane-cycle samples name the team; the record's layout has no field for it, and the layout
is followed (log 32). -/
def Lcr.pass (l : Lcr) (p : Pass) : Lcr :=
  (p.lanes.zipIdx).foldl (fun l x => l.count (l.bin p.pc) x.2 x.1) l

/-- R331, R343, R344: the bay may issue a pass in this cycle. -/
def Core.openBay (c : Core) (b : Nat) : Bool :=
  let y := sget {} c.bays b
  decide (y.gate = .awake) && !y.used && !(y.prev && (match c.droop with | .halved _ => true | _ => false))

/-- R331, R338, R397: a pass issues on its bay. -/
def Core.issuePass (c : Core) (lcren : Bool) (p : Pass) : Core :=
  { c with
    passes := c.passes.erase p
    charges := if p.charge = 0 then c.charges else (c.cycle, p.charge) :: c.charges
    lcr := if lcren && p.shown then c.lcr.pass p else c.lcr
    bays := sset {} c.bays p.bay { sget {} c.bays p.bay with
      used := true, counted := lcren && p.shown, idle := 0, last := some (p.team, p.split, p.next) } }

/-- R292: in a new cycle the next pass of a synchronising instruction follows at once on its bay; `held` says of a quad that
it is gridded, which holds vector passes (R212). -/
def Core.sweep (c : Core) (lcren : Bool) (held : Nat → Bool) : Core :=
  (List.range 16).foldl (fun c b =>
    match c.passes.find? fun p => p.sync && decide (p.bay = b) && !(p.vec && held (b / 4)) with
    | some p => if c.openBay b then c.issuePass lcren p else c
    | none => c) c

/-- R339: a clock of the gridded cells that compute. -/
def Quad.tick (q : Quad) : Quad := { q with clocks := q.clocks - 1 }
def Core.gridCharge (c : Core) : Nat := 1536 * (c.quads.filter fun q => decide (q.2.clocks ≠ 0)).length

/-- R344: of the gated bays of a quad that are needed, the one needed longest starts to wake, the lowest on a tie, when no
bay of the quad is waking. -/
def Core.wakeBay (k : Core) (quad : Nat) (need : Nat → Bool) : Core :=
  let bay (b : Nat) : Bay := sget {} k.bays b
  let mine := (List.range 4).map (4 * quad + ·)
  let waking := mine.any fun b => match (bay b).gate with | .waking _ => true | _ => false
  match waking, mine.filter fun b => decide ((bay b).gate = .gated) && need b with
  | false, b :: bs =>
    let b := bs.foldl (fun a x => if (bay a).need < (bay x).need then x else a) b
    { k with bays := sset {} k.bays b { bay b with gate := .waking 8, need := 0 } }
  | _, _ => k
def State.wakeBay (s : State) (core quad : Nat) (need : List Nat) : State :=
  s.modCore core fun k => k.wakeBay quad fun b => need.contains b || s.bayWanted core b

/-- R331: an open bay that has not issued had no candidate, so the losses there begin again. -/
def Team.unlost (t : Team) (bays : List Nat) : Team :=
  let clear (p : Split) : Split := if p.lost = [] then p else { p with lost := p.lost.filter fun q => !(bays.contains q.1) }
  if bays = [] then t else { t with splits := t.splits.map clear, handler := t.handler.map clear }

/-- A core's cycle ends and its next begins: its counters, windows, gates and teams (R297, R334, R339, R340, R343, R344,
R397). -/
def State.cycleOn (s : State) (core : Nat) : State :=
  let next (c : Core) : Core :=
    let c := { c with
      cycle := c.cycle + 1
      charges := (if c.gridCharge = 0 then [] else [(c.cycle, c.gridCharge)]) ++ c.charges.filter fun (q : Nat × Nat) => decide (c.cycle < q.1 + 256)
      droop := c.droop.tick
      lcr := { (if s.dbg.lcren then (List.range 16).foldl (fun l b => s.lcrIdle l (sget {} c.bays b)) c.lcr else c.lcr) with now := [] }
      quads := c.quads.map fun (q : Nat × Quad) => (q.1, q.2.tick)
      bays := (List.range 16).foldl (fun (l : List (Nat × Bay)) b => sset {} l b ((sget {} c.bays b).tick (s.bayWanted core b))) c.bays }
    ((List.range 4).foldl (fun (c : Core) q => c.wakeBay q (s.bayWanted core)) c).sweep s.dbg.lcren fun q => (s.gridder core q).isSome
  { s with
    cores := s.cores.map fun c => if c.id = core then next c else c
    teams := s.teams.map fun t =>
      if t.core = core then
        (t.tick (s.gridBusy t)).unlost (match s.core? core with
          | some c => ((List.range 4).map (4 * t.quad + ·)).filter c.openBay
          | none => [])
      else t }

/-- n cycles of a core pass. -/
def State.passCycles (s : State) (core : Nat) : Nat → State
  | 0 => s
  | n + 1 => (s.cycleOn core).passCycles core n

/-- R292, R338: the passes an instruction issues in. -/
def Ctx.bookings (c : Ctx) (shown : Bool) (weight : Nat) : List Pass :=
  let k (w : Nat) (m : LaneMask) : Nat := popcount 32 (m.toNat / 2 ^ (32 * w))
  (passesOf c.i c.sp.exec c.team.size).map fun (q : Nat × Nat) =>
    { team := c.tid, split := c.uid, bay := 4 * c.team.quad + q.1, sync := decide (formOf c.i = .sweep)
      charge := match formOf c.i with | .once => weight | _ => weight * k q.2 c.act
      pc := c.sp.pc, next := c.sp.pc + BitVec.ofNat 32 c.len
      lanes := [k q.2 c.act, k q.2 (c.team.present &&& ~~~c.sp.exec), k q.2 (c.sp.exec &&& ~~~c.act), 32 - k q.2 c.team.present]
      shown := shown
      vec := heldByGrid c.i }

/-- What issuing an instruction adds beside its effect: its passes wait for their bays. One that has waited BLOCKED took
them when it issued. -/
def State.book (s : State) (c : Ctx) (weight : Nat) : State :=
  if c.sp.st = .blocked then s
  else (s.modCore c.core fun k => { k with passes := k.passes ++ c.bookings (!(s.protected c.grp.asid)) weight }).modTeam c.tid fun t =>
    { t with lastSlot := some c.sp.slot }
def State.account (s : State) (c : Ctx) : State := s.book c (weightOf c.i)

/-! ### May it issue (R331, R344, R354) -/

/-- R46: SPLITS, PC and state allow an issue: the core runs and is not halted, the team is resident, and only a handler split issues while there is one. -/
def State.issuable (s : State) (t : Team) (p : Split) : Bool :=
  (match s.core? t.core with
    | some c => decide (c.power = .on) && decide (c.moving = none) &&
      -- R292: every pass of its earlier instruction has issued
      !(c.passes.any fun x => decide (x.team = t.id) && decide (x.split = p.uid))
    | none => false) &&
  (match s.group? t.group with | some g => s.coreHolds g | none => false) &&
  decide (t.residence = .resident) &&
  (match t.grid with | some g => !g.retake | none => true) &&
  decide (p.st = .ready ∨ p.st = .blocked) && !p.awaitsEvent && p.park.isNone && decide (p.reload = 0) &&
  -- R154 kind 3, R106
  (match p.fence with | some f => decide (f.kind ≠ 3) && f.trap.isNone | none => true) && p.icinv.isNone &&
  !(t.deferred.any fun q => decide (q.uid = p.uid)) &&
  (match t.handler with | some h => decide (h.uid = p.uid) | none => true)

/-- The bays of the core that an instruction's passes need. -/
def Ctx.needs (c : Ctx) : List Nat :=
  ((passesOf c.i c.sp.exec c.team.size).map fun p => 4 * c.team.quad + p.1).eraseDups

/-- R331, R344: some bay may begin the instruction in this cycle; the others issue their passes when they may. -/
def State.canPass (s : State) (c : Ctx) : Bool :=
  decide (c.sp.st = .blocked) ||
  match s.core? c.core with
  | none => true
  | some k => c.needs.any k.openBay

/-- R400: the lowest enabled breakpoint that matches the fetch address under the context's ASID. -/
def State.breakpoint (s : State) (c : Ctx) : Option Nat :=
  if c.sp.exempt || s.protected c.grp.asid then none
  else
    let va := (c.grp.codeBase + c.sp.pc.toNat) % 2 ^ 48
    (List.range 8).find? fun n =>
      let x := (sget 0 s.dbg.bp n).toNat
      s.dbg.bpen.getLsbD n && decide (x / 2 ^ 48 = c.grp.asid) && decide (x / 4 % 2 ^ 46 = va / 4)

/-- R355: what raises 151 in a handler split whatever its operands. -/
def forbiddenInHandler (i : Instr) : Bool :=
  match i with
  | .jset _ | .join _ | .bar _ | .yield _ | .claim _ | .release _ | .region _ | .node _ => true
  | _ => false

/-- R359: CAUSE.DETAIL of code 151. -/
def detail151 (i : Instr) : Nat := i.op + 256 * (wordFunction i.word % 16)

/-- R155: what waits for the split's own fence of kind 0, 1 or 2; stores into a full queue and traps wait elsewhere. -/
def parksAtFence (i : Instr) : Bool :=
  isMarked i ||
  (match i with
    | .atom _ | .atagg _ | .latom _ | .bar _ | .emit _ | .rpc _ | .region _ => true
    -- its own: a split does not divide, merge or end before its fence completes
    | .brm _ | .jmpi _ | .join _ | .exit _ => true
    | .fenceFull _ | .fenceAcq _ | .fenceRel _ | .fenceStrict _ => true
    | .mloop _ | .mxv _ | .trace _ | .rbox _ => true
    | _ => decide (0x7B ≤ i.op ∧ i.op ≤ 0x7D))

/-- R31: the instruction's effect depends on its guard. -/
def readsGuard (i : Instr) : Bool :=
  decide (formOf i ≠ .once) || (match i with
    | .brany _ | .brnone _ | .brm _ | .jmpi _ | .mexec _ | .trace _ | .mxv _ | .rbox _ | .mloop _ => true
    | _ => false)

/-- Every register an instruction reads, its guard and its record included. -/
def readsAll (i : Instr) (p : Split) : List (RFile × Nat) :=
  reads i p.modeEtype ++
  (if readsGuard i ∧ p.modeGuard ≠ 0 then [(.m, p.modeGuard)] else []) ++
  (match i with
    | .ld o | .st o | .lda o | .str o | .ldk o | .atom o | .atagg o | .arm o | .bld o => [(.b, o.r.toNat)]
    | _ => [])

/-- R34: a b register is owed to the split. -/
def Team.interlocked (t : Team) (p : Split) : Bool :=
  t.awaits.any fun a => decide (a.owner = p.uid) && decide (a.file = .b)

/-- R117, R218: the block of an instruction and the words of it that name an operand. -/
def operandWords (i : Instr) : Option (Byte × List Nat) :=
  match i with
  | .copy o | .copy2d o | .gather o | .scatter o => some (o.a, [0, 2])
  | .mloop o => some (o.a, [0, 1, 7])
  | .mxv o | .rbox o => some (o.a, [0])
  | .mlda o | .msta o | .tpload o | .visrd o | .vrsl o => some (o.a, [0])
  | .rast o => some (o.a, [1, 3])
  | .samp o => some (o.a, [0, 3])
  | _ => none
/-- R117, R218: the records that the block of an instruction names. -/
def Ctx.blockRegs (c : Ctx) : List (RFile × Nat) :=
  match operandWords c.i with
  | some (a, ks) => (ks.filterMap fun k =>
      let w := c.gAt a k
      if w / 2 ^ 29 = 0 then some (RFile.b, w / 2 ^ 24 % 32) else none).eraseDups
  | none => []

/-- The registers an instruction reads, each with the lanes it reads: the active ones, of a guard those of EXEC, of a mask
operand all, the source lanes of a shuffle (R198), the lanes of the x registers that MXV's block names (R236); and the records
that its block names. -/
def Ctx.readLanes (c : Ctx) : List ((RFile × Nat) × LaneMask) :=
  let shf (cross : Bool) (o : FR) : List ((RFile × Nat) × LaneMask) :=
    (fR .vg (etRegs c.et)).regs o.a.toNat |>.map fun r => (r, maskOf 1024 (c.lanes.map (c.sourceLane cross o.b)))
  (match c.i with
    | .shfl o => shf false o
    | .shflx o => shf true o
    | .mxv o =>
      let k := min (c.gAt o.a 2 % 65536) (192 * c.team.size)
      if c.lanes = [] then [] else (List.range ((k + c.team.size - 1) / c.team.size)).map fun j =>
        ((.v, c.gAt o.a 3 % 256 + j), lanesBelow (min c.team.size (k - j * c.team.size)))
    | _ => []) ++
  ((readsAll c.i c.sp).filter fun r => match c.i with
    | .shfl o | .shflx o => !(((fR .vg (etRegs c.et)).regs o.a.toNat).contains r) || ((fR .vg 1).regs o.b.toNat).contains r
    | _ => true).map (fun r =>
      (r, if r.1 = .m then (if (reads c.i c.et).contains r then c.team.present else c.sp.exec) else c.act)) ++
  c.blockRegs.map fun r => (r, c.act)

/-- R41: lanes of a result that are parked are not outstanding. -/
def State.parkedLanes (s : State) (tok : Nat) : LaneMask :=
  match s.flight? tok with
  | some f => maskOf 1024 ((f.reqs.filter fun (r : LineReq) => decide (r.st = .parked)).flatMap fun r => r.lanes.map (·.lane))
  | none => 0

/-- R42: the bits of a mask that a result owed to it will write: those of the words that are not parked (R41). -/
def State.owedBits (s : State) (tok : Nat) : LaneMask :=
  match s.flight? tok with
  | some f => if f.kind = .loadMask then ~~~(wordBits (bitsBelow (s.parkedLanes tok) 32)) else BitVec.allOnes 1024
  | none => BitVec.allOnes 1024

/-- R42: the lanes of a register, among some, that have an outstanding write; of a g register the active lanes. -/
def Ctx.outstandingLanes (c : Ctx) (s : State) (t : Team) (r : RFile × Nat) (ls : LaneMask) : Bool × LaneMask :=
  let owed := t.awaits.filter fun a => decide (a.file = r.1) && decide (a.reg ≤ r.2) && decide (r.2 < a.reg + a.count)
  let sets := t.unset.filter fun e => decide (e.file = r.1) && decide (e.reg = r.2) && !e.settled &&
    Config.stillOutstanding (c.nonce * 256 + r.2)
  if r.1 = .b then (false, 0)
  else if r.1 = .v then
    let x := (owed.foldl (fun m a => m ||| (a.lanes &&& ~~~(s.parkedLanes a.tok))) 0 |||
      sets.foldl (fun m e => m ||| maskOf 1024 (e.olds.map (·.1))) 0) &&& ls
    (decide (x ≠ 0), x)
  else if r.1 = .m then
    let x := (owed.foldl (fun m a => m ||| s.owedBits a.tok) 0 ||| sets.foldl (fun m e => m ||| e.bits) 0) &&& ls
    (decide (x ≠ 0), x)
  else if (owed.any fun a => decide (a.lanes &&& ~~~(s.parkedLanes a.tok) ≠ 0)) || !sets.isEmpty then (true, c.act)
  else (false, 0)

/-- R42: the outstanding writes that an instruction under HCHK would read: the field value of the first register, and the
lanes concerned of all of them. -/
def Ctx.hazard (c : Ctx) (s : State) (t : Team) : Option (Nat × LaneMask) :=
  let field (r : RFile × Nat) : Nat := match r.1 with | .g => 192 + r.2 | _ => r.2
  if t.awaits = [] ∧ t.unset = [] then none
  else
    match (c.readLanes.map fun r => (r.1, c.outstandingLanes s t r.1 r.2)).filter (·.2.1) with
    | [] => none
    | h :: hs => some (field h.1, (h :: hs).foldl (fun m q => m ||| q.2.2) 0)

/-- R365: the first poisoned register lane an instruction reads. -/
def Ctx.poisoned (c : Ctx) : Option (RFile × Nat) :=
  if c.team.poison = [] then none
  else (c.readLanes.find? fun r => c.team.poison.any fun q =>
    decide (q.1 = r.1.1) && decide (q.2.1 = r.1.2) && (decide (r.1.1 ≠ .v) || r.2.getLsbD q.2.2)).map (·.1)

/-! ### The gate -/

/-- What stands before an instruction's own effect. -/
inductive Admission where
  /-- no split issues -/
  | noIssuer
  /-- it does not issue now -/
  | stay (s : State)
  /-- it traps before it acts -/
  | trap (c : Ctx) (code detail : Nat) (lanes : LaneMask)
  /-- it issues -/
  | go (s : State) (c : Ctx)

/-- R305: the landing pad. -/
def landsHere (i : Instr) : Bool := match i with | .land _ => true | _ => false

/-- R40 rules 4 and 6, R43: the team with what accesses have brought back and not yet returned: an unmarked read gets the old
value or the new one, lane by lane. -/
def State.arriving (s : State) (t : Team) : Team :=
  t.awaits.foldl (fun t a =>
    match s.flight? a.tok with
    | some f =>
      let part := f.arrivedPart
      (match f.dst with
        | none | some (.b, _) => t
        | some (.m, r) => part.results.1.foldl (fun t c =>
            let bits := part.arrivedBits &&& ~~~(maskOf 1024 ((List.range t.size).filter fun l => t.covered a.tok .m r l))
            if bits = 0 then t else t.writeBits a.owner r bits (BitVec.ofNat 1024 ((c.2.headD (0, 0)).2))) t
        | some (file, _) => part.results.1.foldl (fun t c =>
            t.write a.owner 32 file c.1 (c.2.filter fun p => !(t.covered a.tok file c.1 p.1))) t)
    | none => t) t

/-- The team as an instruction of split `p` reads it: a marked one waits for the split's results (R40 rule 2); under HCHK
an unmarked one sees only results that have been waited for (R42). -/
def issueTeam (i : Instr) (s : State) (t : Team) (p : Split) : Team :=
  if isMarked i then (s.arriving t).settle p.uid
  else if p.modeHchk then { t with unset := t.unset.filter (·.settled) } else s.arriving t

/-- The checks of an instruction about to issue, in order: a bay that may issue, the landing pad (R305), breakpoints (R400), the
encoding faults (R45), the handler's limits (R355), the marker (R40), interlocks, fences (R155), grids (R212), register
hazards (R42), poison (R365). -/
def gateOf (i : Instr) (s : State) (t : Team) (p : Split) (g : Group) : Admission :=
  let marked := isMarked i
  let c := mkCtx i (issueTeam i s t p) p g s.nonce
  if !(s.issuable t p) then .stay s
  else if !(s.canPass c) then .stay (s.wakeBay t.core t.quad c.needs)
  else if p.landCheck && !(landsHere i) then .trap c 144 2 p.own
  else
    match s.breakpoint c with
    | some n => .trap c 159 n c.act
    | none =>
      match lowest (encodingFaults i p.modeEtype t.gran) with
      | some k => .trap c k (encodingDetail i) c.act
      | none =>
        if t.handler.isSome && forbiddenInHandler i then .trap c 151 (detail151 i) c.act
        else if marked && t.owes p.uid then .stay s
        else if t.interlocked p then .stay s
        else if p.fence.isSome && parksAtFence i then .stay s
        else if heldByGrid i && (s.gridder t.core t.quad).isSome then .stay s
        else
          match (if p.modeHchk && !marked then c.hazard s t else none) with
          | some (field, lanes) => .trap c 154 field lanes
          | none =>
            match c.poisoned with
            | some r => .stay (s.poisonHit t.id p.uid r)
            | none =>
              .go { s.modTeam t.id (fun x => (if marked then x.settle p.uid else x).modSplit p.uid fun q =>
                { q with exempt := false, landCheck := false }) with nonce := s.nonce + 1 } c

def gate (i : Instr) (s : State) : Admission :=
  match s.cur with
  | none => .noIssuer
  | some (tid, uid) =>
    match s.team? tid with
    | none => .noIssuer
    | some t =>
      match t.split? uid, s.group? t.group with
      | some p, some g => gateOf i s t p g
      | _, _ => .noIssuer

/-! ### Issue -/

/-- How an instruction's own effect ends. -/
inductive Res where
  /-- it completes and the split goes on behind it -/
  | done (s : State)
  /-- it completes and has set the PC itself -/
  | jump (s : State)
  /-- it has taken a nested trap with a code (R356) -/
  | nested (s : State) (code : Nat)
  /-- it raises a precise trap; the state holds the effects above the trap -/
  | trap (s : State) (code detail : Nat) (lanes : LaneMask) (skip : Bool)
  /-- it waits and issues again later -/
  | hold (s : State)

/-- The split goes on behind the instruction. -/
def State.advance (s : State) (c : Ctx) : State :=
  s.modSplit c.tid c.uid fun p => { p with pc := p.pc + BitVec.ofNat 32 c.len, st := .ready, busy := none, caps := [] }
/-- The split goes on at an address. -/
def State.goto (s : State) (c : Ctx) (pc : Word) : State :=
  s.modSplit c.tid c.uid fun p => { p with pc := pc, st := .ready, busy := none, caps := [] }

/-- What issuing an instruction leaves, from the state before it and how its effect ended. -/
def finish (s : State) (c : Ctx) (r : Res) : State :=
  match r with
  | .done t => (t.advance c).account c
  | .jump t => t.account c
  -- R338: an encoding fault charges nothing
  | .nested t code => if code ≤ 21 then t.book c 0 else t.account c
  | .trap t code detail lanes skip =>
    match t.raise c.tid c.uid code detail lanes skip c.sp.pc with
    | some u => if code ≤ 21 then u.book c 0 else u.account c
    | none => s
  | .hold t => t.modSplit c.tid c.uid fun p => { p with exempt := c.sp.exempt }

/-- A trap raised before the instruction acts: it has no pass and charges nothing. The target of a JMPI has now been fetched (R305). -/
def State.gateTrap (s : State) (c : Ctx) (code detail : Nat) (lanes : LaneMask) : State :=
  let s := s.modSplit c.tid c.uid fun p => { p with landCheck := false }
  (s.raise c.tid c.uid code detail lanes false c.sp.pc).getD (s.modSplit c.tid c.uid fun p => { p with landCheck := c.sp.landCheck })

/-- Issue an instruction: its gate, then its own effect. -/
def issue (i : Instr) (s : State) (body : State → Ctx → Res) : Host.Outcome State Fault Refusal :=
  match gate i s with
  | .noIssuer => .fault .noIssuer
  | .stay t => .next t
  | .trap c code detail lanes => .next (s.gateTrap c code detail lanes)
  | .go t c => .next (finish s c (body t c))

/-! ### Register results -/

/-- Write lanes of a v or g field; the values are register contents. -/
def State.wrField (s : State) (c : Ctx) (x ew : Nat) (vals : List (Nat × Nat)) : State :=
  s.modTeam c.tid fun t =>
    if x < 192 then t.write c.uid ew .v x vals else t.write c.uid ew .g (x - 192) vals
/-- Write g registers from an index on, one value each. -/
def State.wrG (s : State) (c : Ctx) (x : Byte) (vals : List Nat) : State :=
  s.modTeam c.tid fun t => (vals.zipIdx).foldl (fun t p => t.write c.uid 32 .g (x.toNat - 192 + p.2) [(0, p.1)]) t
def State.wrM (s : State) (c : Ctx) (r : Nat) (x : LaneMask) : State :=
  s.modTeam c.tid fun t => t.write c.uid 32 .m r [(0, x.toNat)]
def State.wrB (s : State) (c : Ctx) (r : Nat) (x : BufRec) : State :=
  s.modTeam c.tid fun t => t.write c.uid 32 .b r [(0, x.toNat)]

/-- An event ends the instruction a split waits in: it goes on behind it. -/
def State.complete (s : State) (tid uid : Nat) : State :=
  match s.team? tid with
  | none => s
  | some t =>
    match (t.split? uid).bind (·.busy) with
    | some _ => s.modSplit tid uid Split.proceed
    | none => s

/-- R294, R371: what an instruction that waits has read, where it waits already. -/
def Ctx.asIssued (c : Ctx) (now : List Nat) : List Nat :=
  match c.sp.busy with
  | some (i, v :: vs) => if i = c.i then v :: vs else now
  | _ => now

/-- The split waits at its instruction (R294), which has issued. -/
def Ctx.blocked (c : Ctx) (s : State) (vals : List Nat) : Res := .hold ((s.block c.tid c.uid c.i vals).account c)

end Sys2Proof.Machine
end

