-- ==== Sys2Proof/Machine/Form.lean ====
section
/-!
DEFINITION. How an access of an instruction is formed, checked, coalesced, translated and put in flight: buffer records
(R72 to R75), the global order of checks (R76 to R79, R86, R89, R91, R400), local locations (R107 to R115, R142), fault
reports to the host (R387).
-/
namespace Sys2Proof.Machine

/-! ### Buffer records (R72 to R75) -/

/-- n bits of a record from bit lo. -/
def bufBits (r : BufRec) (lo n : Nat) : Nat := r.toNat / 2 ^ lo % 2 ^ n
def bufWord (r : BufRec) (k : Nat) : Nat := bufBits r (32 * k) 32
def bufBase (r : BufRec) : Nat := bufBits r 0 48
def bufStride (r : BufRec) : Nat := bufBits r 48 16
def bufExtent (r : BufRec) : Nat := bufBits r 64 32
def bufEsize (r : BufRec) : Nat := bufBits r 96 4
def bufSwz (r : BufRec) : Nat := bufBits r 100 4
def bufSwzp (r : BufRec) : Nat := bufBits r 104 8
def bufV (r : BufRec) : Bool := r.getLsbD 112
def bufW (r : BufRec) : Bool := r.getLsbD 113
def bufTb (r : BufRec) : Bool := r.getLsbD 114
def bufK (r : BufRec) : Bool := r.getLsbD 115
def bufKind (r : BufRec) : Nat := bufBits r 116 2

/-- R73, R75: a record that is null or ill-formed. -/
def bufInvalid (r : BufRec) : Bool :=
  let p := bufSwzp r
  !bufV r || decide (bufBits r 118 10 ≠ 0) || decide (4 < bufEsize r) || decide (bufKind r = 3) || (bufK r && bufW r) ||
  (match bufSwz r with
    | 0 => decide (p ≠ 0)
    | 1 => decide (p < 6 ∨ 30 < p)
    | 2 => decide (p < 1 ∨ 8 < p ∨ bufKind r ≠ 1)
    | 3 => decide (p < 10 ∨ 28 < p)
    | _ => true)

/-- R74: E and S of a record. -/
def bufE (r : BufRec) : Nat := 2 ^ bufEsize r
def bufS (r : BufRec) : Nat := if bufStride r ≠ 0 then bufStride r else bufE r
/-- R74: width and height. -/
def bufWdt (r : BufRec) : Nat := bufBits r 64 16
def bufHgt (r : BufRec) : Nat := bufBits r 80 16
/-- R74, R81: log2 of the block side: 3 for tiles, SWZP for Morton images, 0 for rows. -/
def bufBlock (r : BufRec) : Nat := if bufKind r = 2 then 3 else if bufSwz r = 2 then bufSwzp r else 0
/-- R74: the row pitch of an image or tile record. -/
def bufPitch (r : BufRec) : Nat :=
  let n := bufBlock r
  if bufStride r ≠ 0 then bufStride r else (bufWdt r + 2 ^ n - 1) / 2 ^ n * 4 ^ n * bufE r

/-- R74: bit i of x at 2i, bit i of y at 2i + 1, for n bits. -/
def morton (x y : Nat) : Nat → Nat
  | 0 => 0
  | n + 1 => x % 2 + 2 * (y % 2) + 4 * morton (x / 2) (y / 2) n

/-- R74: the unswizzled address of image or tile element (x, y). -/
def bufXY (r : BufRec) (x y : Nat) : Nat :=
  let n := bufBlock r
  let within := if bufKind r = 2 then y % 8 * 8 + x % 8 else morton (x % 2 ^ n) (y % 2 ^ n) n
  (bufBase r + y / 2 ^ n * bufPitch r + x / 2 ^ n * 4 ^ n * bufE r + within * bufE r) % 2 ^ 48

/-- R75: bits [lo+n-1:lo] of u and [hi+n-1:hi] exchanged. -/
def swapBits (u lo hi n : Nat) : Nat :=
  let a := u / 2 ^ lo % 2 ^ n
  let b := u / 2 ^ hi % 2 ^ n
  u - a * 2 ^ lo - b * 2 ^ hi + b * 2 ^ lo + a * 2 ^ hi

/-- R75: the swizzles that permute address bits. -/
def bufSwizzle (r : BufRec) (u : Nat) : Nat :=
  let p := bufSwzp r % 32
  match bufSwz r with
  | 1 => Nat.xor u (u / 2 ^ p % 4 * 16)
  | 3 => swapBits u 6 p 4
  | _ => u

/-- R74, R75: whether an index is in bounds, and its address. -/
def bufAddr (r : BufRec) (idx : Nat) : Bool × Nat :=
  if bufKind r = 0 then (decide (idx < bufExtent r), bufSwizzle r ((bufBase r + idx * bufS r) % 2 ^ 48))
  else
    let x := idx % 65536
    let y := idx / 65536 % 65536
    (decide (x < bufWdt r ∧ y < bufHgt r), bufSwizzle r (bufXY r x y))

/-! ### Fault reports (R89, R387) -/

/-- R387: the source word of a team. -/
def Team.sourceWord (t : Team) : Word := BitVec.ofNat 32 (t.core * 2 ^ 22 + t.teamReg % 2 ^ 22)

/-- One of the tickets [lo, hi) that are free; no rule says which. -/
def State.freeTicket (s : State) (lo hi : Nat) : Option Nat :=
  let l := ((List.range (hi - lo)).map (lo + ·)).filter fun k => !(s.tickets.any fun q => decide (q.1 = k))
  l[Config.openValue 1 s.nextId % l.length]?

/-- R387: report a fault to the host, or queue it for a ticket. -/
def State.reportFault (s : State) (f : FaultMsg) : State :=
  match s.freeTicket 0 32 with
  | some k => ({ s with tickets := s.tickets ++ [(k, TicketUse.fault f)], nextId := s.nextId + 1 }).send (.fault k f.asid s.gen f.va f.path f.write f.word)
  | none => { s with faultQ := s.faultQ ++ [f] }

/-- R90: what an instruction has read, for its replay. -/
def Ctx.capture (c : Ctx) : List (RFile × Nat × List (Nat × Nat)) :=
  ((c.readLanes.map (·.1)).eraseDups).map fun r =>
    (r.1, r.2, (if r.1 = .v then c.team.lanes c.team.present else [0]).map fun l => (l, c.rd r.1 r.2 l))

/-- R89, R90: park a split at its instruction and report the address; one that will replay whole keeps what it has read. -/
def State.parkSplit (s : State) (c : Ctx) (kind : ParkKind) (va path : Nat) (write : Bool) : State :=
  let caps := if kind = .whole then c.capture else []
  let s := s.modSplit c.tid c.uid fun p => { p with st := .parked, busy := if kind = .whole then some (c.i, []) else none, ahead := [], clocked := false, park := some ⟨kind, va, path, write, false, false, false⟩, caps := caps }
  s.reportFault ⟨.split c.tid c.uid, c.grp.asid, va, path, write, c.team.sourceWord⟩

/-! ### Formation of an access -/

/-- What an access is: path (R79), width, whether it writes, what its leaf must permit (R86), whether it is uniform
(R138), the record's number for CAUSE.DETAIL (R359). -/
structure AccSpec where
  path : Nat
  n : Nat
  store : Bool := false
  need : Need := { r := true }
  uniform : Bool := false
  recNo : Nat := 0
  deriving DecidableEq, Repr

/-- R79: the code of a memory fault. -/
def memCode (path kind : Nat) : Nat := 48 + 6 * path + kind

/-- How the formation of an access ends: a trap; a wait; the group path; or the lanes' addresses, the suppressed lanes
and the line requests. -/
inductive Formed where
  | trap (s : State) (code detail : Nat) (lanes : LaneMask)
  | hold (s : State)
  | dead (s : State) (code : Nat)
  | ok (s : State) (suppressed : List Nat) (reqs : List LineReq)

/-- R78: group per-lane accesses by a key, in the order of the first lane. -/
def groupBy (l : List (Nat × LaneAcc)) : List (Nat × List LaneAcc) :=
  ((l.map (·.1)).eraseDups).map fun k => (k, (l.filter fun p => decide (p.1 = k)).map (·.2))

/-- What translating a line of an access gives. -/
inductive LineT where
  | busy
  | absent
  | bad (kind : Nat)
  | unbacked
  | alien
  | ok (cc line pte : Nat)
  deriving DecidableEq, Repr

/-- R86, R91, R60, R393: translate and check one virtual line for a core. -/
def State.lineOf (s : State) (core : Option Nat) (asid va : Nat) (need : Need) : State × LineT :=
  match s.translate core asid va with
  | (s, none) => (s, .busy)
  | (s, some none) => (s, .absent)
  | (s, some (some e)) =>
    if e.alien then (s, .alien)
    else match e.fault need core with
    | some k => (s, .bad k)
    | none =>
      let pa := e.pa (va % 2 ^ 48)
      if !s.backed pa then (s, .unbacked)
      else if !need.anyKey && !s.ownerOk asid pa then (s, .alien)
      else (s, .ok e.cc (pa / 64) e.pte)

/-- R400: the lowest watchpoint that a global access matches, with the matching lanes. -/
def State.watchpoint (s : State) (c : Ctx) (path n : Nat) (write reads : Bool) (accs : List (Nat × Nat)) : Option (Nat × LaneMask) :=
  if c.sp.exempt || s.protected c.grp.asid || !(path = 0 || path = 1 || path = 6) then none
  else (List.range 8).findSome? fun k =>
    let w := (sget 0 s.dbg.wp k).toNat
    let ctl := (sget 0 s.dbg.wpctl k).toNat
    let lo := w % 2 ^ 48
    let len := 2 ^ (ctl / 16 % 64)
    if ctl % 2 = 1 ∧ w / 2 ^ 48 = c.grp.asid ∧ ((write ∧ ctl / 4 % 2 = 1) ∨ (reads ∧ ctl / 2 % 2 = 1)) then
      match accs.filter fun a => decide (a.2 < lo + len) && decide (lo < a.2 + n) with
      | [] => none
      | hit => some (k, maskOf 1024 (hit.map (·.1)))
    else none

/-- Translate every line of an access: the requests, or the trap that outranks (R91). -/
def State.formLines (s : State) (c : Ctx) (a : AccSpec) (lines : List (Nat × List LaneAcc)) (suppressed : List Nat) : Formed :=
  let (s, ts) := lines.foldl (fun (q : State × List (Nat × List LaneAcc × LineT)) l =>
    let (s, t) := q.1.lineOf (some c.core) c.grp.asid (l.1 * 64) a.need
    (s, q.2 ++ [(l.1, l.2, t)])) (s, [])
  let lanesOf (p : LineT → Bool) : LaneMask :=
    if a.uniform then c.act else maskOf 1024 ((ts.filter fun t => p t.2.2).flatMap fun t => t.2.1.map (·.lane))
  let kinds := ts.filterMap fun t => match t.2.2 with | .bad k => some k | _ => none
  if ts.any fun t => decide (t.2.2 = .busy) then .hold s
  else match lowest kinds with
    | some k => .trap s (memCode a.path k) a.recNo (lanesOf fun t => decide (t = .bad k))
    | none =>
      if ts.any fun t => decide (t.2.2 = .unbacked) then
        .trap s 336 (a.path + (if a.store then 8 else 0)) (lanesOf fun t => decide (t = .unbacked))
      else if ts.any fun t => decide (t.2.2 = .alien) then .dead s 342
      else .ok s suppressed (ts.map fun t => match t.2.2 with
        | .ok cc line pte => { space := .glob, va := t.1, line := line, cc := cc, lanes := t.2.1, pte := some pte, gen := s.gen }
        | _ => { space := .glob, va := t.1, line := 0, lanes := t.2.1, st := .parked, gen := s.gen })

/-- R76: form a record-indexed access: `idx` gives each lane's index and the data its request carries. -/
def State.formGlobal (s : State) (c : Ctx) (a : AccSpec) (r : BufRec) (konst : Bool) (idx : List (Nat × LaneAcc)) : Formed :=
  if bufInvalid r || (konst && !bufK r) then .trap s (memCode a.path 5) a.recNo c.act
  else if a.store && !bufW r then .trap s (memCode a.path 2) a.recNo c.act
  else
    let addrs := idx.map fun p => (p.2.lane, bufAddr r p.1, p.2)
    let out := (addrs.filter fun p => !p.2.1.1).map (·.1)
    if out ≠ [] ∧ bufTb r then .trap s (memCode a.path 0) a.recNo (if a.uniform then c.act else maskOf 1024 out)
    else
      let s := if out = [] then s else s.modTeam c.tid fun t => t.stick bBOUND
      let ins := addrs.filter fun p => p.2.1.1
      let mis := (ins.filter fun p => decide (p.2.1.2 % a.n ≠ 0)).map (·.1)
      if mis ≠ [] then .trap s (memCode a.path 1) a.recNo (if a.uniform then c.act else maskOf 1024 mis)
      else
        match s.watchpoint c a.path a.n a.store (!a.store) (ins.map fun p => (p.1, p.2.1.2)) with
        | some (k, lanes) => .trap s 160 k (if a.uniform then c.act else lanes)
        | none => s.formLines c a (groupBy (ins.map fun p => (p.2.1.2 / 64, { p.2.2 with off := p.2.1.2 % 64 }))) out

/-! ### Local locations (R107 to R115, R142) -/

/-- R107: the local levels. -/
inductive Level where
  | win | yard | loft | priv
  deriving DecidableEq, Repr

/-- R107: the path of a level. -/
def Level.path : Level → Nat
  | .win => 2
  | .yard => 3
  | .loft => 4
  | .priv => 5

/-- R111: the yard a group is a member of, with its member entry. -/
def State.yardOf (s : State) (gid : Nat) : Option (Yard × YMember) :=
  s.yards.findSome? fun y => (y.members.find? fun m => decide (m.group = gid)).map fun m => (y, m)

/-- R112, R113: the member of a yard at an index, which may be leaving. -/
def Yard.member (y : Yard) (idx : Nat) : Option YMember :=
  y.members.find? fun m => decide (m.idx = idx)

/-- R142: where an offset of a level lies, and what is wrong with it: 0 bounds, 1 alignment, 2 permission, 5 target. -/
def State.locate1 (s : State) (c : Ctx) (lvl : Level) (base disp n align lane : Nat) (write : Bool) : Except Nat (Space × Nat) :=
  match lvl with
  | .win =>
    let o := base + disp
    if c.grp.ws < o + n then .error 0 else if o % align ≠ 0 then .error 1 else if write ∧ o < 256 then .error 2 else .ok (.win c.grp.id, o)
  | .priv =>
    let o := base + disp
    if c.grp.privBytes < o + n then .error 0 else if o % align ≠ 0 then .error 1
    else .ok (.priv c.tid, lane * c.grp.privBytes + o)
  | .loft =>
    let o := base + disp
    let x := s.ctx? c.grp.asid
    let lw := match x with | some x => x.loftSize | none => 0
    let lb := match x with | some x => x.loftBase | none => 0
    if lw < o + n then .error 0 else if o % align ≠ 0 then .error 1 else .ok (.loft, lb + o)
  | .yard =>
    let o := base % 2 ^ 24 + disp
    if base / 2 ^ 27 ≠ 0 then .error 0
    else
      match (s.yardOf c.grp.id).bind fun y => y.1.member (base / 2 ^ 24 % 8) with
      | none => .error 5
      | some m =>
        match s.group? m.group with
        | none => .error 5
        | some g => if g.xb < o + n then .error 0 else if m.leaving then .error 5 else if o % align ≠ 0 then .error 1 else .ok (.win g.id, 256 + o)

/-- R142 step 1: the level does not exist for the group. -/
def State.levelAbsent (s : State) (c : Ctx) (lvl : Level) : Bool :=
  match lvl with
  | .yard => (s.yardOf c.grp.id).isNone
  | .loft => (match s.ctx? c.grp.asid with | some x => decide (x.loftSize = 0) | none => true)
  | _ => false

/-- R142: form a local access: each lane's base and the data its request carries. -/
def State.formLocal (s : State) (c : Ctx) (lvl : Level) (disp n align : Nat) (write uniform : Bool) (bases : List (Nat × LaneAcc)) : Formed :=
  let p := lvl.path
  if s.levelAbsent c lvl then .trap s (memCode p 5) 0 c.act
  else
    let locs := bases.map fun b => (b.2, s.locate1 c lvl b.1 disp n align b.2.lane write)
    let failing (k : Nat) : List Nat := (locs.filter fun l => match l.2 with | .error e => decide (e = k) | .ok _ => false).map (·.1.lane)
    match [0, 5, 1, 2].find? fun k => decide (failing k ≠ []) with
    | some k => .trap s (memCode p k) 0 (if uniform then c.act else maskOf 1024 (failing k))
    | none =>
      let oks := locs.filterMap fun l => match l.2 with | .ok x => some (x, l.1) | .error _ => none
      .ok s [] (((oks.map fun o => (o.1.1, o.1.2 / 64)).eraseDups).map fun k =>
        { space := k.1, line := k.2,
          lanes := (oks.filter fun o => decide (o.1.1 = k.1 ∧ o.1.2 / 64 = k.2)).map fun o => { o.2 with off := o.1.2 % 64 } })

/-! ### Putting an access in flight -/

/-- R155: the entries of the team's store queue that are taken. -/
def State.heldEntries (s : State) (tid : Nat) : Nat :=
  ((s.flights.filter fun f => decide (f.team = tid) && f.held).map fun f =>
    if f.path = 1 then f.reqs.length else 1).sum

/-- R284: the lines a split would hold in its read set with these requests added. -/
def State.readSetFull (s : State) (c : Ctx) (reqs : List LineReq) : Bool :=
  match c.sp.fence with
  | none => false
  | some f =>
    if 2 ≤ f.kind then false
    else
      let pend := (s.flights.filter fun x => decide (x.team = c.tid) && decide (x.split = c.uid) && x.kind.isLoad && decide (f.before ≤ x.id) && !x.returned).flatMap
        fun x => x.reqs.map fun r => (r.space, r.line)
      decide (64 < ((f.readSet ++ pend ++ reqs.map fun r => (r.space, r.line)).eraseDups).length)

/-- A register result an access owes: its file and register, how many, in which lanes. -/
structure Owed where
  file : RFile
  reg : Nat
  count : Nat
  lanes : LaneMask
  deriving DecidableEq, Repr

/-- R125, R89, R155: put a formed access in flight; parked lines park the split. `mk` gives the access its kind and data
from its identifier; `owed` the register result. -/
def depart (c : Ctx) (a : AccSpec) (f : Formed) (owed : Option Owed) (mk : Flight → Flight) : Res :=
  match f with
  | .trap s code detail lanes => .trap s code detail lanes false
  | .hold s => .hold s
  | .dead s code => .hold (s.groupPath c.grp.id code 0 true true)
  | .ok s suppressed reqs =>
    let hold := c.sp.fence.isSome && a.store && !a.need.r
    if hold && decide (64 < s.heldEntries c.tid + (if a.path = 1 then reqs.length else 1)) then .hold s
    else if !a.store && s.readSetFull c reqs then .hold s
    else
      let (id, s) := s.fresh
      let fl := mk { id := id, team := c.tid, split := c.uid, path := a.path, kind := .store, n := a.n, zero := suppressed, reqs := reqs,
                     held := hold, pc := c.sp.pc, recNo := a.recNo, uniform := a.uniform, lanes := c.act, dst := owed.map fun o => (o.file, o.reg) }
      let s := s.launch fl (owed.map fun o => ⟨id, c.uid, o.file, o.reg, o.count, o.lanes⟩)
      match reqs.find? fun r => decide (r.st = .parked) with
      | some r => .jump (s.parkSplit c (.access id) (r.va * 64) a.path a.store)
      | none => .done s

/-- R125: a counter at 63 keeps the next instruction on its path from issuing; else go on. -/
def State.onPath (s : State) (c : Ctx) (path : Nat) (f : Unit → Res) : Res :=
  if 63 ≤ s.counter c.tid path then .hold s else f ()

end Sys2Proof.Machine
end

