-- ==== Sys2Proof/Machine/Global.lean ====
section
/-!
DEFINITION. Global loads and stores (R134 to R140), the record instructions (R80 to R82), PROMOTE and DEMOTE (R67 to R70).
-/
namespace Sys2Proof.Machine

/-! ### Registers an access names -/

/-- n registers of a field in a lane, as one little-endian number. -/
def Ctx.data (c : Ctx) (x : Byte) (l n : Nat) : Nat :=
  (List.range n).foldl (fun a k => a + c.src (x.toNat + k) l * 2 ^ (32 * k)) 0

/-- The register result a load owes. -/
def Ctx.owes (c : Ctx) (d : Byte) (n : Nat) : Owed :=
  if d.toNat < 192 then ⟨.v, d.toNat, n, c.act⟩ else ⟨.g, d.toNat - 192, n, 1⟩

/-! ### LD, LDA, LDK, ST, STR (R137 to R140) -/

/-- R137, R138: a record-indexed load. `atScope` marks LDA, which is performed at its scope (R140). -/
def globalLoad (s : State) (c : Ctx) (o : FMem) (path : Nat) (konst atScope : Bool) : Res :=
  s.onPath c path fun _ =>
    let uni := decide (192 ≤ o.d.toNat ∧ 192 ≤ o.a.toNat)
    let lanes := if uni then [0] else c.lanes
    let w := o.w.toNat
    let a : AccSpec := { path := path, n := wBytes w, uniform := uni, recNo := o.r.toNat }
    depart c a
      (s.formGlobal c a (BitVec.ofNat 128 (c.rd .b o.r.toNat 0)) konst (lanes.map fun l => (c.src o.a.toNat l, { lane := l, off := 0 })))
      (some (c.owes o.d (wRegs w)))
      fun f => { f with kind := .load w, order := if atScope then c.sp.modeOrder else 0,
                        scope := if atScope then c.sp.modeScope else 0, aux := if atScope then [1] else [] }

/-- R137, R138: a record-indexed store. -/
def globalStore (s : State) (c : Ctx) (o : FMem) (atScope : Bool) : Res :=
  s.onPath c 1 fun _ =>
    let w := o.w.toNat
    let a : AccSpec := { path := 1, n := wBytes w, store := true, need := { w := true }, recNo := o.r.toNat }
    depart c a
      (s.formGlobal c a (BitVec.ofNat 128 (c.rd .b o.r.toNat 0)) false (c.lanes.map fun l =>
        (c.src o.a.toNat l, { lane := l, off := 0, data := c.data o.d l (wRegs w) % 256 ^ wBytes w })))
      none
      fun f => { f with kind := .store, zero := [], order := if atScope then c.sp.modeOrder else 0,
                        scope := if atScope then c.sp.modeScope else 0, aux := if atScope then [1] else [] }

def execLd (o : FMem) (s : State) : Host.Outcome State Fault Refusal := issue (.ld o) s fun s c =>
  globalLoad s c o 0 false false
def execSt (o : FMem) (s : State) : Host.Outcome State Fault Refusal := issue (.st o) s fun s c =>
  globalStore s c o false
def execLda (o : FMem) (s : State) : Host.Outcome State Fault Refusal := issue (.lda o) s fun s c =>
  globalLoad s c o 0 false true
def execStr (o : FMem) (s : State) : Host.Outcome State Fault Refusal := issue (.str o) s fun s c =>
  globalStore s c o true
def execLdk (o : FMem) (s : State) : Host.Outcome State Fault Refusal := issue (.ldk o) s fun s c =>
  globalLoad s c o 6 true false

/-! ### Records (R80 to R82) -/

/-- R80: the record of four g registers. -/
def execBset (o : FR) (s : State) : Host.Outcome State Fault Refusal := issue (.bset o) s fun s c =>
  .done (s.wrB c o.d.toNat (BitVec.ofNat 128 (c.data o.a 0 4)))
def execBget (o : FR) (s : State) : Host.Outcome State Fault Refusal := issue (.bget o) s fun s c =>
  let r := BitVec.ofNat 128 (c.rd .b o.a.toNat 0)
  .done (s.wrG c o.d ((List.range 4).map fun k => bufWord r k))

/-- A record with new base, stride and extent. -/
def bufWith (r : BufRec) (base stride extent : Nat) : BufRec :=
  BitVec.ofNat 128 (base % 2 ^ 48 + stride % 65536 * 2 ^ 48 + extent % 2 ^ 32 * 2 ^ 64 + bufWord r 3 * 2 ^ 96)

/-- R81: the narrowed record; none raises fault 53. -/
def bufNarrow (r : BufRec) (off ext : Nat) : Option BufRec :=
  if bufInvalid r then none
  else if bufKind r = 0 then
    let k := min off (bufExtent r)
    some (bufWith r (bufBase r + k * bufS r) (bufStride r) (min ext (bufExtent r - k)))
  else
    let n := bufBlock r
    let ox := min (off % 65536) (bufWdt r) / 2 ^ n * 2 ^ n
    let oy := min (off / 65536) (bufHgt r) / 2 ^ n * 2 ^ n
    if bufStride r = 0 ∧ 65535 < bufPitch r then none
    else some (bufWith r (bufXY r ox oy) (if bufStride r = 0 then bufPitch r else bufStride r)
      (min (ext % 65536) (bufWdt r - ox) + min (ext / 65536) (bufHgt r - oy) * 65536))

def execBnar (o : FR) (s : State) : Host.Outcome State Fault Refusal := issue (.bnar o) s fun s c =>
  match bufNarrow (BitVec.ofNat 128 (c.rd .b o.a.toNat 0)) (c.gAt o.b 0) (c.gAt o.b 1) with
  | none => .trap s 53 0 c.act false
  | some r => .done (s.wrB c o.d.toNat r)

/-- R82: a record loaded as one lane; the split's later instructions wait for it (R34). -/
def execBld (o : FMem) (s : State) : Host.Outcome State Fault Refusal := issue (.bld o) s fun s c =>
  s.onPath c 0 fun _ =>
    let a : AccSpec := { path := 0, n := 16, uniform := true, recNo := o.r.toNat }
    depart c a
      (s.formGlobal c a (BitVec.ofNat 128 (c.rd .b o.r.toNat 0)) false [(c.g o.a, { lane := 0, off := 0 })])
      (some ⟨.b, o.d.toNat, 1, 1⟩) fun f => { f with kind := .loadRec }

/-! ### PROMOTE, DEMOTE (R67 to R70) -/

/-- R68: a status word. -/
def promoteResult (slot status : Nat) : Nat := slot * 65536 + status

/-- R67: the requests queued in a channel. -/
def State.channelQueue (s : State) (ch : Nat) : Nat :=
  ((s.banks.filter fun b => decide (b.1 / 16 = ch)).map fun b =>
    (b.2.queue.filter fun q => match q with | .access .. => false | _ => true).length +
    (match b.2.running with | some _ => 1 | none => 0)).sum

/-- R69, R70: translate the page, then queue a request at its bank; g[D] is owed until the controller answers. -/
def promoteAt (s : State) (c : Ctx) (d a : Byte) (mk : Nat → Nat → BankReq) : Res :=
  let va := (c.gAt a 0 + c.gAt a 1 % 65536 * 2 ^ 32) / 4096 * 4096
  match s.lineOf (some c.core) c.grp.asid va { r := true, anyOwner := true, anyKey := true } with
  | (s, .busy) => .hold s
  | (s, .alien) => .jump (s.groupPath c.grp.id 342 0 true true)
  | (s, .absent) => .jump (s.parkSplit c .whole va 0 false)
  | (s, .bad k) => .trap s (memCode 0 k) 0 c.act false
  | (s, .unbacked) => .trap s 336 0 c.act false
  | (s, .ok _ line _) =>
    match s.backing (line * 64), s.locate (line * 64) with
    | .near _, _ => .done (s.wrG c d [promoteResult 0 4])
    | _, some (ch, b, row) =>
      if 16 ≤ s.channelQueue ch then .hold s
      else
        let (tok, s) := s.fresh
        let k := ch * 16 + b
        let bank := s.bank k
        let s := s.putBank k { bank with queue := bank.queue ++ [mk row tok] }
        .done (s.modTeam c.tid fun t => { t with awaits := t.awaits ++ [⟨tok, c.uid, .g, d.toNat - 192, 1, 1⟩] })
    | _, none => .hold s

def execPromote (o : FR) (s : State) : Host.Outcome State Fault Refusal := issue (.promote o) s fun s c =>
  promoteAt s c o.d o.a fun row tok => .promote row (o.b.getLsbD 0) tok c.tid
def execDemote (o : FR) (s : State) : Host.Outcome State Fault Refusal := issue (.demote o) s fun s c =>
  promoteAt s c o.d o.a fun row tok => .demote row tok c.tid

end Sys2Proof.Machine
end

