-- ==== Sys2Proof/Machine/Local.lean ====
section
/-!
DEFINITION. Local loads and stores (R141 to R143) and the atomics (R144 to R149).
-/
namespace Sys2Proof.Machine

/-! ### Local loads and stores (R141, R142) -/

/-- R142: a load of a local level; a uniform one acts once (R138). -/
def localLoad (s : State) (c : Ctx) (o : FL) (lvl : Level) : Res :=
  s.onPath c lvl.path fun _ =>
    let uni := decide (192 ≤ o.d.toNat ∧ 192 ≤ o.a.toNat)
    let lanes := if uni then [0] else c.lanes
    let w := o.w.toNat
    let n := wBytes w
    depart c ⟨lvl.path, n, false, { r := true }, uni, 0⟩
      (s.formLocal c lvl (4 * o.s.toNat) n n false uni (lanes.map fun l => (c.src o.a.toNat l, { lane := l, off := 0 })))
      (some (c.owes o.d (wRegs w))) fun f => { f with kind := .load w }

/-- R142: a store to a local level. -/
def localStore (s : State) (c : Ctx) (o : FL) (lvl : Level) : Res :=
  s.onPath c lvl.path fun _ =>
    let w := o.w.toNat
    let n := wBytes w
    depart c ⟨lvl.path, n, true, {}, false, 0⟩
      (s.formLocal c lvl (4 * o.s.toNat) n n true false (c.lanes.map fun l =>
        (c.src o.a.toNat l, { lane := l, off := 0, data := c.data o.d l (wRegs w) % 256 ^ n })))
      none fun f => { f with kind := .store }

def execLds (o : FL) (s : State) : Host.Outcome State Fault Refusal := issue (.lds o) s fun s c => localLoad s c o .win
def execSts (o : FL) (s : State) : Host.Outcome State Fault Refusal := issue (.sts o) s fun s c => localStore s c o .win
def execLdy (o : FL) (s : State) : Host.Outcome State Fault Refusal := issue (.ldy o) s fun s c => localLoad s c o .yard
def execSty (o : FL) (s : State) : Host.Outcome State Fault Refusal := issue (.sty o) s fun s c => localStore s c o .yard
def execLdl (o : FL) (s : State) : Host.Outcome State Fault Refusal := issue (.ldl o) s fun s c => localLoad s c o .loft
def execStl (o : FL) (s : State) : Host.Outcome State Fault Refusal := issue (.stl o) s fun s c => localStore s c o .loft
def execLdp (o : FL) (s : State) : Host.Outcome State Fault Refusal := issue (.ldp o) s fun s c => localLoad s c o .priv
def execStp (o : FL) (s : State) : Host.Outcome State Fault Refusal := issue (.stp o) s fun s c => localStore s c o .priv

/-! ### Atomics (R144 to R149) -/

/-- R145: a lane's operands: the value, and for CAS the compare value with the new value. -/
def atomOperands (c : Ctx) (op et : Nat) (d : Byte) (l : Nat) : LaneAcc :=
  let k := atomWidth et / 4
  if op = 7 then { lane := l, off := 0, cmp := c.data d l k, data := c.src (d.toNat + k) l + (if k = 2 then c.src (d.toNat + 3) l * 2 ^ 32 else 0) }
  else { lane := l, off := 0, data := c.data d l k }

def execAtom (o : FMem) (s : State) : Host.Outcome State Fault Refusal := issue (.atom o) s fun s c =>
  s.onPath c 1 fun _ =>
    let op := o.w.toNat
    let n := atomWidth c.et
    let a : AccSpec := { path := 1, n := n, store := true, need := { r := true, w := true }, recNo := o.r.toNat }
    depart c a
      (s.formGlobal c a (BitVec.ofNat 128 (c.rd .b o.r.toNat 0)) false (c.lanes.map fun l => (c.src o.a.toNat l, atomOperands c op c.et o.d l)))
      (some ⟨.v, o.d.toNat, n / 4, c.act⟩)
      fun f => { f with kind := .atomic op c.et, order := c.sp.modeOrder, scope := c.sp.modeScope }

/-- R148: the lanes' contributions are summed, added once, and each lane gets its own base. -/
def execAtagg (o : FMem) (s : State) : Host.Outcome State Fault Refusal := issue (.atagg o) s fun s c =>
  s.onPath c 1 fun _ =>
    let n := atomWidth c.et
    let a : AccSpec := { path := 1, n := n, store := true, need := { r := true, w := true }, uniform := true, recNo := o.r.toNat }
    let parts := c.lanes.map fun l => (l, c.data o.d l (n / 4))
    let sum := (parts.map (·.2)).sum % 256 ^ n
    let f := s.formGlobal c a (BitVec.ofNat 128 (c.rd .b o.r.toNat 0)) false [(c.g o.a, { lane := 0, off := 0, data := sum })]
    match f with
    | .ok s suppressed _ =>
      -- with no lane it is done before BOUND is set
      if parts = [] then depart c a (.ok (s.modTeam c.tid fun t => { t with sticky := c.team.sticky }) [] []) none fun x =>
        { x with kind := .atagg c.et }
      else depart c a f (some ⟨.v, o.d.toNat, n / 4, c.act⟩) fun x =>
        { x with kind := .atagg c.et, contrib := parts, zero := if suppressed = [] then [] else c.lanes,
                 order := c.sp.modeOrder, scope := c.sp.modeScope }
    | f => depart c a f none id

/-- R149: the level of LATOM. -/
def latomLevel (x : Nat) : Level := match x with | 0 => .win | 1 => .yard | _ => .loft

def execLatom (o : FL) (s : State) : Host.Outcome State Fault Refusal := issue (.latom o) s fun s c =>
  let op := o.s.toNat / 4
  let lvl := latomLevel (o.s.toNat % 4)
  s.onPath c lvl.path fun _ =>
    let n := atomWidth c.et
    depart c ⟨lvl.path, n, true, { r := true, w := true }, false, 0⟩
      (s.formLocal c lvl 0 n n true false (c.lanes.map fun l => (c.src o.a.toNat l, atomOperands c op c.et o.d l)))
      (some ⟨.v, o.d.toNat, n / 4, c.act⟩)
      fun f => { f with kind := .atomic op c.et, order := c.sp.modeOrder, scope := c.sp.modeScope }

end Sys2Proof.Machine
end

