-- ==== Sys2Proof/Machine/Fence.lean ====
section
/-!
DEFINITION. Monitors (R150 to R153), FENCE (R154, R155, R283), CMAINT (R104, R105) and ICINV (R106) as instructions.
-/
namespace Sys2Proof.Machine

/-! ### Monitors (R150, R153) -/

/-- R150: a split's monitor is disarmed and its registration ends. -/
def State.disarm (s : State) (tid uid : Nat) : State :=
  { s.modSplit tid uid (fun p => { p with mon := .disarmed }) with
    monRegs := s.monRegs.filter fun r => !(decide (r.2.1 = tid) && decide (r.2.2.1 = uid)) }

def execArm (o : FMem) (s : State) : Host.Outcome State Fault Refusal := issue (.arm o) s fun s c =>
  s.onPath c 0 fun _ =>
    let s := (s.disarm c.tid c.uid).dropArms c.tid c.uid
    let a : AccSpec := { path := 0, n := 4, uniform := true, recNo := o.r.toNat }
    depart c a (s.formGlobal c a (BitVec.ofNat 128 (c.rd .b o.r.toNat 0)) false [(c.g o.a, { lane := 0, off := 0 })])
      none fun f => { f with kind := .arm, zero := [] }

/-- R153: WAITMON. A registration of the split's own ARM that is still on its way is waited for. -/
def execWaitmon (o : FI) (s : State) : Host.Outcome State Fault Refusal := issue (.waitmon o) s fun s c =>
  if s.arming c.tid c.uid then .hold s
  else
    match c.sp.mon with
    | .fired => .done ((s.wrG c o.d [0]).disarm c.tid c.uid)
    | .disarmed => .done (s.wrG c o.d [4])
    | .armed =>
      let t := c.g o.a
      .jump (s.modSplit c.tid c.uid fun p => { p with
        st := .monWait, monWait := some ⟨o.d.toNat - 192, if t = 0 then none else some (s.time + t), none⟩ })

/-! ### FENCE (R154, R284) -/

/-- R154: a fence. Scope 0 completes at issue; the fifth execution after four restarts is strict (R284). -/
def fenceAt (s : State) (c : Ctx) (kind : Nat) (o : FFence) : Res :=
  if o.scope = 0 then .done s
  else
    let k := if kind ≤ 1 ∧ c.sp.restartPc = c.sp.pc ∧ 4 ≤ c.sp.restarts then 3 else kind
    .done (s.modSplit c.tid c.uid fun p => { p with
      fence := some { kind := k, scope := o.scope.toNat, pc := c.sp.pc, before := s.nextId } })

def execFenceFull (o : FFence) (s : State) : Host.Outcome State Fault Refusal := issue (.fenceFull o) s fun s c =>
  fenceAt s c 0 o
def execFenceAcq (o : FFence) (s : State) : Host.Outcome State Fault Refusal := issue (.fenceAcq o) s fun s c =>
  fenceAt s c 1 o
def execFenceRel (o : FFence) (s : State) : Host.Outcome State Fault Refusal := issue (.fenceRel o) s fun s c =>
  fenceAt s c 2 o
def execFenceStrict (o : FFence) (s : State) : Host.Outcome State Fault Refusal := issue (.fenceStrict o) s fun s c =>
  fenceAt s c 3 o

/-! ### CMAINT (R104) and ICINV (R106) -/

/-- The 48-bit address of a pair of g registers. -/
def Ctx.pair (c : Ctx) (a : Byte) : Nat := c.gAt a 0 + c.gAt a 1 % 65536 * 2 ^ 32

/-- R105: the access that CMAINT keeps on path 1 until it has acted: its lines, and a request that nothing else wants, with the virtual
line and the generation it was translated under. -/
def cmaintFlight (opn extent scope va gen : Nat) (lines : List Nat) (f : Flight) : Flight :=
  { f with kind := .cmaint opn extent scope, zero := lines, reqs := [{ space := .priv 0, va := va, line := 0, lanes := [], gen := gen }] }

def execCmaint (o : FI) (s : State) : Host.Outcome State Fault Refusal := issue (.cmaint o) s fun s c =>
  let i8 := o.i.toNat
  let scope := i8 % 8
  let opn := i8 / 8 % 4
  let extent := i8 / 32
  if scope ≤ 3 then .done s
  else
    s.onPath c 1 fun _ =>
      let a : AccSpec := { path := 1, n := 64, uniform := true, need := { r := true } }
      if extent = 2 then depart c a (.ok s [] []) none (cmaintFlight opn extent scope 0 0 [])
      else
        let size := if extent = 0 then 64 else 4096
        let va := c.pair o.a / size * size
        match s.lineOf (some c.core) c.grp.asid va { r := decide (opn ≠ 1), w := decide (opn = 1), classFirst := true } with
        | (s, .busy) => .hold s
        | (s, .absent) => .done s
        | (s, .bad k) => .trap s (memCode 0 k) 0 c.act false
        | (s, .ok _ line _) => depart c a (.ok s [] []) none (cmaintFlight opn extent scope (va / 64) s.gen ((List.range (size / 64)).map (line + ·)))
        | (s, _) => depart c a (.ok s [] []) none (cmaintFlight opn extent scope 0 s.gen [])

/-- R106: the range is noted; the split issues again when every core has dropped it. -/
def execIcinv (o : FR) (s : State) : Host.Outcome State Fault Refusal := issue (.icinv o) s fun s c =>
  let va := c.pair o.a
  let len := c.g o.b
  let range := if len = 0 then (0, 0) else if 2 ^ 24 < len then (0, 2 ^ 48) else (va / 64 * 64, (va + len + 63) / 64 * 64)
  .done (s.modSplit c.tid c.uid fun p => { p with icinv := some range })

end Sys2Proof.Machine
end

