-- ==== Sys2Proof/Machine/Control.lean ====
section
/-!
DEFINITION. Control flow: uniform branches (R303), divergence (R296, R304, R305), joins (R300, R301), calls (R306), YIELD,
EXIT and the end of a team (R307, R308), group barriers (R309, R310), path signatures and branch records (R398, R399).
-/
namespace Sys2Proof.Machine

/-! ### The path signature (R398) -/

/-- R398: one byte into CRC-64 with the ECMA-182 polynomial, most significant bit first. -/
def crcByte (x : Dword) (b : Nat) : Dword :=
  (List.range 8).foldl (fun x _ => if x.msb then (x <<< 1) ^^^ 0x42F0E1EBA9EA3693#64 else x <<< 1) (x ^^^ (BitVec.ofNat 64 b <<< 56))
/-- R398: fold the 8 bytes of a value, little-endian. -/
def crcFold (sig x : Dword) : Dword :=
  (List.range 8).foldl (fun a i => crcByte a (x.toNat / 256 ^ i % 256)) sig

/-- R398: what a transfer folds. -/
def transferValue (pc target : Word) : Dword := target ++ pc

/-- R399: the team is the armed one. -/
def State.armedTeam (s : State) (c : Ctx) : Bool :=
  let d := s.dbg
  d.bten && decide (d.asid = c.grp.asid) && decide (d.btser = c.team.serial % 65536) &&
  decide (d.btgrp.toNat = c.grp.gamma) &&
  (match s.node? c.grp.node with | some n => decide (n.handle = d.btnode.toNat) | none => false)

/-- R399: a branch record. -/
def State.branchRecord (s : State) (c : Ctx) (slot : Nat) (target : Word) : State :=
  if s.armedTeam c then
    s.traceRecord c.tid c.uid [2 + 16 * 256, c.sp.pc.toNat, target.toNat, slot + c.team.serial % 65536 * 65536]
  else s

/-- R398, R303: a taken transfer of the whole split: its signature, its record, its PC. -/
def State.transfer (s : State) (c : Ctx) (target : Word) : State :=
  ((s.modSplit c.tid c.uid fun p => { p with psig := crcFold p.psig (transferValue c.sp.pc target) }).branchRecord c c.sp.slot target).goto c target

/-! ### Uniform branches (R303) -/

/-- R37: the target at a number of words from the branch. -/
def Ctx.target {n : Nat} (c : Ctx) (off : BitVec n) : Word := c.sp.pc + (off.signExtend 32 <<< 2)

/-- R303: a branch taken or not. -/
def branchIf (s : State) (c : Ctx) (taken : Bool) (target : Word) : Res :=
  if taken then .jump (s.transfer c target) else .done s

def execBra (o : FJ) (s : State) : Host.Outcome State Fault Refusal := issue (.bra o) s fun s c =>
  branchIf s c true (c.target o.j)
def execBrnz (o : FJC) (s : State) : Host.Outcome State Fault Refusal := issue (.brnz o) s fun s c =>
  branchIf s c (decide (c.g o.a ≠ 0)) (c.target o.off)
def execBrz (o : FJC) (s : State) : Host.Outcome State Fault Refusal := issue (.brz o) s fun s c =>
  branchIf s c (decide (c.g o.a = 0)) (c.target o.off)
def execBrany (o : FJM) (s : State) : Host.Outcome State Fault Refusal := issue (.brany o) s fun s c =>
  branchIf s c (decide (c.m o.mask.toNat &&& c.act ≠ 0)) (c.target o.off)
def execBrnone (o : FJM) (s : State) : Host.Outcome State Fault Refusal := issue (.brnone o) s fun s c =>
  branchIf s c (decide (c.m o.mask.toNat &&& c.act = 0)) (c.target o.off)
def execJset (o : FJ) (s : State) : Host.Outcome State Fault Refusal := issue (.jset o) s fun s c =>
  .done (s.modSplit c.tid c.uid fun p => { p with pj := some (c.target o.j) })

/-! ### The split table (R297, R301) -/

/-- R299: the 128-bit word of a spill entry: MON, BARID, STATE, JLINK, PJV, PJPC, AGE, MODE, PC. -/
def Split.entryWord (p : Split) : BitVec 128 :=
  let mon := if p.mon = .disarmed then 0 else 1
  let st := match p.st with | .joinWait => 1 | .barWait => 2 | .monWait => 3 | _ => 0
  BitVec.ofNat 128 (p.pc.toNat / 4 + p.mode.toNat % 2 ^ 21 * 2 ^ 30 + p.age % 2 ^ 32 * 2 ^ 51 +
    (p.pj.getD 0).toNat / 4 * 2 ^ 83 + (if p.pj.isSome then 1 else 0) * 2 ^ 113 + (p.jlink.getD 16) % 32 * 2 ^ 114 +
    st * 2 ^ 119 + p.barid % 16 * 2 ^ 122 + mon * 2 ^ 126)
/-- R299: the fields of a split that its spill entry holds, taken back from it; O is also EXEC. -/
def Split.ofEntry (p : Split) (w : BitVec 128) : Split :=
  let f (lo n : Nat) : Nat := w.toNat / 2 ^ lo % 2 ^ n
  { p with
    exec := p.own
    pc := BitVec.ofNat 32 (f 0 30 * 4)
    mode := BitVec.ofNat 32 (f 30 21)
    age := f 51 32
    pj := if f 113 1 = 1 then some (BitVec.ofNat 32 (f 83 30 * 4)) else none
    jlink := if f 114 5 = 16 then none else some (f 114 5)
    st := match f 119 3 with | 1 => .joinWait | 2 => .barWait | 3 => .monWait | _ => .ready
    barid := f 122 4
    mon := if f 126 1 = 1 then .fired else .disarmed }
/-- R294, R299: a split is written to the spill area: FIRST and RES go, an armed monitor counts as fired, a BLOCKED split is
READY. One in MONWAIT still waits, and finds its monitor fired when it is reloaded (R152, DEDUCED, log 34). -/
def Split.spill (p : Split) : Split :=
  { p.ofEntry p.entryWord with first := false, res := 0, lost := [], busy := none }

/-- R297: the split deferred longest goes to a slot. A WAITMON that it waits in ends, with its monitor fired (R152, R153). -/
def Team.reloadAt (t : Team) (d : Split) (slot : Nat) : Team :=
  let t := { t with splits := t.splits ++ [{ d with slot := slot, res := t.cycle % 2 ^ 32, reload := 16 }] }
  if d.st = .monWait ∧ d.mon = .fired ∧ t.thawed d.uid = true ∧ (d.monWait.bind (·.reason)) = none then t.wake d.uid 0 else t

/-- R297: free slots take the splits deferred longest. The list bounds the recursion. -/
def Team.reloadFree (t : Team) : List Nat → Team
  | [] => t
  | _ :: fuel =>
    match t.deferred, t.freeSlot with
    | d :: ds, some k =>
      ({ t with deferred := ds, rotCount := if ds = [] then 0 else t.rotCount, rotDue := if ds = [] then 0 else t.rotDue }.reloadAt d k).reloadFree fuel
    | _, _ => t

/-- R297: a split leaves the table and its slot frees. -/
def Team.removeSplit (t : Team) (uid : Nat) : Team :=
  ({ t with splits := t.splits.filter fun p => p.uid ≠ uid }).reloadFree (List.range 8)

def Team.joinRec? (t : Team) (j : Nat) : Option JoinRec := (t.joins.find? fun r => decide (r.1 = j)).map (·.2)
def Team.modJoin (t : Team) (j : Nat) (f : JoinRec → JoinRec) : Team :=
  { t with joins := t.joins.map fun r => if r.1 = j then (j, f r.2) else r }
def Team.freeJoin (t : Team) (j : Nat) : Team := { t with joins := t.joins.filter fun r => r.1 ≠ j }

/-- Insert an arrival's signature by its lowest lane. -/
def insertSig (x : Nat × Dword) : List (Nat × Dword) → List (Nat × Dword)
  | [] => [x]
  | y :: ys => if x.1 < y.1 then x :: y :: ys else y :: insertSig x ys

/-- R301: the merge of record j completes at its host. -/
def Team.completeMerge (t : Team) (j : Nat) (r : JoinRec) (h : Nat) : Team :=
  (t.modSplit h fun p => { p with
    pc := r.jpc + 4, exec := p.own, mode := r.smode, jlink := r.parent, pj := none, mon := .disarmed, first := false,
    st := .ready, psig := r.sigs.foldl (fun a x => crcFold a x.2) 0 }).freeJoin j

/-- R301: a record loses a member by an exit: the merge completes, or an empty record is freed and its parent loses one.
The list bounds the recursion: there are 16 records. -/
def Team.memberGone (t : Team) (j : Option Nat) : List Nat → Team
  | [] => t
  | _ :: fuel =>
    match j.bind fun j => (t.joinRec? j).map fun r => (j, r) with
    | none => t
    | some (j, r) =>
      let r := { r with members := r.members - 1 }
      let t := t.modJoin j fun _ => r
      if r.members ≠ 0 then t
      else match r.host with
        | some h => t.completeMerge j r h
        | none => (t.freeJoin j).memberGone r.parent fuel

/-- R301: the lowest lane of a set. -/
def lowLane (x : LaneMask) : Nat := ((bitsBelow x 1024).head?).getD 0

/-- R301: split p arrives at its record j. -/
def Team.arrive (t : Team) (p : Split) (j : Nat) (r : JoinRec) : Team :=
  let r := { r with members := r.members - 1, sigs := insertSig (lowLane p.own, p.psig) r.sigs }
  match r.host with
  | none =>
    let r := { r with host := some p.uid }
    let t := (t.modSplit p.uid fun q => { q with st := .joinWait, first := false }).modJoin j fun _ => r
    if r.members = 0 then t.completeMerge j r p.uid else t
  | some h =>
    -- the entry of a deferred host has one mask, O (R299)
    let away := t.deferred.any fun q => decide (q.uid = h)
    let t := (t.modJoin j fun _ => r).modSplit h fun q => { q with
      own := q.own ||| p.own, exec := if away then q.own ||| p.own else q.exec, age := min q.age p.age, anc := (q.anc ++ p.uid :: p.anc).eraseDups }
    let t := if r.members = 0 then t.completeMerge j r h else t
    t.removeSplit p.uid

/-! ### Group barriers (R309, R310) -/

/-- R309: the teams of a group that have not ended. -/
def State.livingTeams (s : State) (gid : Nat) : List Team :=
  s.teams.filter fun t => decide (t.group = gid) && decide (t.residence ≠ .ended)

/-- R310: what a flip of barrier n does to a team that arrived. -/
def Team.flip (t : Team) (n : Nat) : Team :=
  if t.arrived = some n then
    let f (p : Split) : Split := if p.st = .barWait ∧ p.barid = n then { p with st := .ready, pc := p.pc + 4 } else p
    { t.settleAll with splits := t.splits.map f, deferred := t.deferred.map f, arrived := none }
  else t

/-- R310: the phase of barrier n flips when its count has reached the expected count. -/
def State.flipIfFull (s : State) (gid n : Nat) : State :=
  match s.group? gid with
  | none => s
  | some g =>
    let (ph, k) := sget (0, 0) g.bars n
    let e := (s.livingTeams gid).length
    if k ≠ 0 ∧ k = e then
      let leaves := (s.teams.filter fun t => decide (t.group = gid ∧ t.arrived = some n)).flatMap fun t => t.live.map fun (p : Split) => (t.id, p.uid)
      let s := s.modGroup gid fun g => { g with bars := sset (0, 0) g.bars n (1 - ph, 0) }
      -- leaving is an acquire at group scope
      leaves.foldl (fun s q => s.splitAcquires q.1 q.2 2) { s with teams := s.teams.map fun t => if t.group = gid then t.flip n else t }
    else s

/-- R310: the arrival of a team whose live splits all wait at one barrier, or the mismatch trap. -/
def State.barrierCheck (s : State) (tid : Nat) : State :=
  match s.team? tid with
  | none => s
  | some t =>
    let waits := t.live.filter fun p => decide (p.st = .barWait)
    if t.handler.isSome ∨ t.arrived.isSome ∨ waits = [] then s
    else if t.live.any fun p => decide (p.st ≠ .barWait) && decide (p.st ≠ .joinWait) then s
    else
      let oldest := waits.foldl (fun (a : Split) p => if p.age < a.age then p else a) (waits.headD { uid := 0 })
      if t.live.all fun p => decide (p.st = .barWait ∧ p.barid = oldest.barid) then
        let n := oldest.barid
        let s := (s.modTeam tid fun t => { t with arrived := some n }).modGroup t.group fun g =>
          { g with bars := sset (0, 0) g.bars n ((sget (0, 0) g.bars n).1, (sget (0, 0) g.bars n).2 + 1) }
        s.flipIfFull t.group n
      else
        let lanes := waits.foldl (fun a p => a ||| p.own) 0
        let s := s.modSplit tid oldest.uid fun p => { p with st := .ready }
        (s.raise tid oldest.uid 147 oldest.barid lanes false oldest.pc).getD s

/-- R277: every earlier access of the split has been performed at a scope. -/
def State.performedFor (s : State) (tid uid scope : Nat) : Bool :=
  s.flights.all fun f => !(s.ofSplit tid uid f) || f.performedAt scope
/-- R277: every earlier access of the split has been performed. -/
def State.allPerformed (s : State) (tid uid : Nat) : Bool :=
  s.flights.all fun f => !(s.ofSplit tid uid f) || f.performed

/-- R310: BAR. Its arrival is a release at group scope, so it waits until the split's earlier accesses have been performed
there (R277). -/
def execBar (o : FI) (s : State) : Host.Outcome State Fault Refusal := issue (.bar o) s fun s c =>
  if !(s.performedFor c.tid c.uid 2) then .hold s
  else .jump ((s.modSplit c.tid c.uid fun p => { p with st := .barWait, barid := o.i.toNat }).barrierCheck c.tid)

/-! ### JOIN, YIELD, EXIT (R301, R307, R308) -/

def execJoin (o : FN) (s : State) : Host.Outcome State Fault Refusal := issue (.join o) s fun s c =>
  match c.sp.jlink.bind fun j => (c.team.joinRec? j).map fun r => (j, r) with
  | none => .done s
  | some (j, r) =>
    if r.jpc ≠ c.sp.pc then .done s
    else if s.arming c.tid c.uid then .hold s
    else
      let s := s.modTeam c.tid fun t => t.arrive c.sp j r
      let gone := (match s.team? c.tid with | some t => t.live.filter fun (p : Split) => decide (p.mon = Mon.disarmed) | none => []).map Split.uid
      let s := { s with monRegs := s.monRegs.filter fun q => !(decide (q.2.1 = c.tid) && (gone.contains q.2.2.1 || (r.host.isSome && decide (q.2.2.1 = c.uid)))) }
      .jump (s.barrierCheck c.tid)

def execYield (o : FN) (s : State) : Host.Outcome State Fault Refusal := issue (.yield o) s fun s c =>
  .done (s.modSplit c.tid c.uid fun p => { p with age := c.team.stamp, first := false })

/-- R308: a team ends: its exit record, its grid, its barriers. `pc` is the EXIT's address. -/
def State.endTeam (s : State) (tid : Nat) (pc : Word) : State :=
  match s.team? tid with
  | none => s
  | some t =>
    match s.group? t.group with
    | none => s
    | some g =>
      let handle := match s.node? g.node with | some n => n.handle | none => 0
      let s := if s.dbg.sigrec && decide (s.dbg.asid = g.asid) then
          s.traceRecord tid 0 [1 + 32 * 256, g.asid, handle, g.gamma, t.teamReg, pc.toNat, t.psig.toNat % 2 ^ 32, t.psig.toNat / 2 ^ 32]
        else s
      let s := (s.leaveQueues tid).freeTickets tid
      let s := (s.flights.filter fun f => decide (f.team = tid) && f.parked).foldl (fun s f => s.abandonFlight f.id) s
      let s := { s.modTeam tid (fun t => { t with
          present := 0, splits := [], deferred := [], joins := [], handler := none, residence := .ended, arrived := none, async := [] }) with
        monRegs := s.monRegs.filter fun r => r.2.1 ≠ tid }
      (List.range 16).foldl (fun s n => s.flipIfFull g.id n) s

/-- R308, R355: EXIT ends the issuing split; in a handler, every split of the team. -/
def execExit (o : FN) (s : State) : Host.Outcome State Fault Refusal := issue (.exit o) s fun s c =>
  let s := s.modTeam c.tid fun t => { t with psig := t.psig ^^^ c.sp.psig }
  if c.team.handler.isSome then .jump (s.endTeam c.tid c.sp.pc)
  else
    let s := (s.disarm c.tid c.uid).modTeam c.tid fun t =>
      (({ t with present := t.present &&& ~~~c.sp.own }).removeSplit c.uid).memberGone c.sp.jlink (List.range 17)
    match s.team? c.tid with
    | none => .jump s
    | some t => if t.live = [] then .jump (s.endTeam c.tid c.sp.pc) else .jump (s.barrierCheck c.tid)

/-! ### Divergence (R296, R300, R304, R305) -/

/-- A part of a divergence: its lanes, its PC, whether its target has still to be checked for LAND. -/
structure Part where
  own : LaneMask
  pc : Word
  land : Bool := false
  deriving DecidableEq, Repr

/-- R296: the new splits, from a first identifier and stamp; slots in order, then none. -/
def newSplits (c : Ctx) (cycle : Nat) (jlink : Option Nat) : List Part → List Nat → Nat → Nat → List (Split × Bool)
  | [], _, _, _ => []
  | p :: ps, slots, id, age =>
    let sig := if p.pc = c.sp.pc + 4 then c.sp.psig else crcFold c.sp.psig (transferValue c.sp.pc p.pc)
    ({ uid := id, slot := slots.headD c.sp.slot, pc := p.pc, own := p.own, exec := p.own &&& c.sp.exec, mode := c.sp.mode,
       jlink := jlink, age := age % 2 ^ 32, res := cycle % 2 ^ 32, psig := sig, landCheck := p.land, anc := (c.uid :: c.sp.anc).eraseDups },
      decide (slots ≠ [])) :: newSplits c cycle jlink ps slots.tail (id + 1) (age + 1)

/-- R296, R300: the split is replaced by the parts, the first of which is FIRST. -/
def diverge (s : State) (c : Ctx) (parts : List Part) : Res :=
  match s.team? c.tid with
  | none => .hold s
  | some t =>
    let k := parts.length
    if t.handler.isSome then .trap s 151 (detail151 c.i) c.act false
    else if t.freeSlots + (c.grp.spill - t.deferred.length) < k - 1 then .trap s 145 k c.act false
    else if c.sp.pj.isSome && decide (16 ≤ t.joins.length) then .trap s 146 16 c.act false
    else
      let j := ((List.range 16).find? fun j => (t.joinRec? j).isNone).getD 0
      let link := if c.sp.pj.isSome then some j else c.sp.jlink
      let free := (List.range 8).filter fun i => !(t.splits.any fun p => decide (p.slot = i))
      let new := newSplits c t.cycle link parts (c.sp.slot :: free) s.nextId t.stamp
      let first := s.nextId
      let s := { s with nextId := s.nextId + k
                        monRegs := s.monRegs.filter fun q => !(decide (q.2.1 = c.tid) && decide (q.2.2.1 = c.uid)) }
      let s := s.modTeam c.tid fun t =>
        let t := { t with
          splits := (t.splits.filter fun p => p.uid ≠ c.uid).map (fun p => { p with first := false }) ++
            (new.filter (·.2)).map fun p => { p.1 with first := decide (p.1.uid = first) }
          deferred := (t.deferred.map fun p => { p with first := false }) ++ (new.filter fun p => !p.2).map (·.1.spill)
          rotCount := if t.deferred = [] then 0 else t.rotCount
          rotDue := if t.deferred = [] then 0 else t.rotDue }
        match c.sp.pj with
        | some jpc => { t with joins := t.joins ++ [(j, { jpc := jpc, parent := c.sp.jlink, smode := c.sp.mode, members := k })] }
        | none => match c.sp.jlink with
          | some l => t.modJoin l fun r => { r with members := r.members + (k - 1) }
          | none => t
      .jump (new.foldl (fun s p => if p.1.pc = c.sp.pc + 4 then s else s.branchRecord c (s.shownSlot ((s.team? c.tid).getD t) p.1) p.1.pc) s)

/-- R296: the pending join is consumed. -/
def State.consumeJoin (s : State) (c : Ctx) : State := s.modSplit c.tid c.uid fun p => { p with pj := none }

/-- R304: BRM. -/
def execBrm (o : FJM) (s : State) : Host.Outcome State Fault Refusal := issue (.brm o) s fun s c =>
  let tk := c.act &&& c.m o.mask.toNat
  let nt := c.act &&& ~~~tk
  let target := c.target o.off
  if tk = 0 then .done (s.consumeJoin c)
  else if nt = 0 then .jump ((s.consumeJoin c).goto c target)
  else diverge s c [{ own := c.sp.own &&& ~~~tk, pc := c.sp.pc + 4 }, { own := tk, pc := target }]

/-- R302: the word is LAND, marked or not. -/
def isLand (w : Word) : Bool := decide (w.toNat % 2 ^ 31 = 0x5C000000)

/-- R305: the landing check of a target: it is LAND, it is not, it cannot be read now, or a fetch waits. -/
inductive Landing where
  | land | other | unread | busy
  deriving DecidableEq, Repr
def State.landing (s : State) (c : Ctx) (target : Word) : State × Landing :=
  match s.fetch c.core c.grp.asid (c.grp.codeBase + target.toNat) with
  | (s, .ok w) => (s, if isLand w then .land else .other)
  | (s, .busy) => (s, .busy)
  | (s, _) => (s, .unread)

/-- R305: JMPI. -/
def execJmpi (o : FR) (s : State) : Host.Outcome State Fault Refusal := issue (.jmpi o) s fun s c =>
  if c.lanes = [] then .done (s.consumeJoin c)
  else
    let tg (l : Nat) : Word := BitVec.ofNat 32 (c.src o.a.toNat l)
    let mis := c.lanes.filter fun l => decide ((tg l).toNat % 4 ≠ 0)
    let targets := ((c.lanes.filter fun l => decide ((tg l).toNat % 4 = 0)).map tg).eraseDups
    let (s, ls) := targets.foldl (fun (q : State × List (Word × Landing)) x =>
      let (s, r) := q.1.landing c x
      (s, q.2 ++ [(x, r)])) (s, [])
    let is (x : Word) (r : Landing) : Bool := ls.contains (x, r)
    if ls.any fun r => decide (r.2 = .busy) then .hold s
    else
      let bad := c.lanes.filter fun l => mis.contains l || is (tg l) .other
      if bad ≠ [] then .trap s 144 (if mis ≠ [] then 0 else 1) (maskOf 1024 bad) false
      else
        match targets with
        | [x] => .jump (((s.consumeJoin c).modSplit c.tid c.uid fun p => { p with landCheck := is x .unread }).transfer c x)
        | _ => diverge s c (targets.zipIdx.map fun x =>
            let lanes := maskOf 1024 (c.lanes.filter fun l => decide (tg l = x.1))
            { own := if x.2 = 0 then lanes ||| (c.sp.own &&& ~~~c.act) else lanes, pc := x.1, land := is x.1 .unread })

/-! ### Calls (R303, R306) -/

def execCall (o : FJ) (s : State) : Host.Outcome State Fault Refusal := issue (.call o) s fun s c =>
  .jump ((s.wrG c 254 [(c.sp.pc + 4).toNat]).transfer c (c.target o.j))

def execCalli (o : FR) (s : State) : Host.Outcome State Fault Refusal := issue (.calli o) s fun s c =>
  let x := BitVec.ofNat 32 (c.g o.a)
  if x.toNat % 4 ≠ 0 then .trap s 144 0 c.act false
  else
    match s.landing c x with
    | (s, .busy) => .hold s
    | (s, .other) => .trap s 144 1 c.act false
    | (s, r) =>
      .jump (((s.wrG c 254 [(c.sp.pc + 4).toNat]).modSplit c.tid c.uid fun p => { p with landCheck := decide (r = .unread) }).transfer c x)

def execRet (o : FN) (s : State) : Host.Outcome State Fault Refusal := issue (.ret o) s fun s c =>
  let x := BitVec.ofNat 32 (c.gAt 254 0)
  if x.toNat % 4 ≠ 0 then .trap s 144 0 c.act false else .jump (s.transfer c x)

def execLand (o : FN) (s : State) : Host.Outcome State Fault Refusal := issue (.land o) s fun s _ => .done s

end Sys2Proof.Machine
end

