-- ==== Sys2Proof/Machine/Lanes.lean ====
section
/-!
DEFINITION. What every lane-arithmetic meaning is written from: operand forms (R175), elements (R176), immediates (R39,
R182), results with their flags and traps (R174).
-/
namespace Sys2Proof.Machine

/-- R176: an ETYPE reads its elements as signed. -/
def etSigned (et : Nat) : Bool := decide (et = 0 ∨ et = 3 ∨ et = 7 ∨ et = 9)
/-- R157, R176: the element width of an ETYPE. -/
def etWidth (et : Nat) : Nat := if et64 et then 64 else 32 / etElems et
/-- R158: the floating format of an ETYPE. -/
def etFmt (et : Nat) : Fmt :=
  match et with
  | 2 => f32
  | 5 => f16
  | 6 => bf16
  | 11 => e4m3
  | _ => e5m2
/-- R176: the element kind of an ETYPE. -/
def etKind (et : Nat) : EK :=
  match et with
  | 2 | 5 | 6 | 11 | 12 => .flt (etFmt et)
  | _ => .int (etSigned et) (etWidth et)

/-- R175: the lanes that compute: the active ones, or one in uniform form. -/
def Ctx.computing (c : Ctx) (d : Byte) : List Nat := if d.toNat < 192 then c.lanes else [0]

/-- R175: the lanes that a reduction of A into D takes: the active ones, or one in uniform form. -/
def Ctx.reduced (c : Ctx) (d a : Byte) : List Nat := if d.toNat < 192 ∨ a.toNat < 192 then c.lanes else [0]

/-- n registers of a field in a lane, as one little-endian number. -/
def Ctx.unit (c : Ctx) (x : Byte) (l n : Nat) : Nat :=
  (List.range n).foldl (fun a k => a + c.src (x.toNat + k) l * 2 ^ (32 * k)) 0

/-- R176: element k of width w of a unit. -/
def elemAt (w x k : Nat) : Nat := x / 2 ^ (w * k) % 2 ^ w

/-- R176: compute element by element: the unit of the results and the OR of their flags. -/
def perElem (n w : Nat) (f : Nat → Nat × Nat) : Nat × Nat :=
  (List.range n).foldl (fun a k => (a.1 + (f k).1 % 2 ^ w * 2 ^ (w * k), Nat.lor a.2 (f k).2)) (0, 0)

/-- R174: results per lane (lane, value, flags) into n registers from field d: the flags stand, and an enabled
exception traps with nothing written. -/
def arith (s : State) (c : Ctx) (d : Byte) (n ew group : Nat) (rows : List (Nat × Nat × Nat)) : Res :=
  let fls := rows.map fun r => (r.1, r.2.2)
  let fl := orFlags fls
  let s := if fl = 0 then s else s.modTeam c.tid fun t => t.stick fl
  match enabledException fl c.team.trapEn with
  | some x => .trap s (96 + 9 * x + group) fl (if d.toNat < 192 then lanesRaising fls x else c.act) false
  | none =>
    .done ((List.range n).foldl (fun s k =>
      s.wrField c (d.toNat + k) ew (rows.map fun r => (r.1, r.2.1 / 2 ^ (32 * k) % 2 ^ 32))) s)

/-- Per lane: a value computed with its flags. -/
def Ctx.rows (c : Ctx) (d : Byte) (f : Nat → Nat × Nat) : List (Nat × Nat × Nat) :=
  (c.computing d).map fun l => (l, (f l).1, (f l).2)

/-- R32, R176: the results of an instruction under MODE.ETYPE, element by element. -/
def lanewise (s : State) (c : Ctx) (d : Byte) (f : Nat → Nat → Nat × Nat) : Res :=
  let et := c.et
  arith s c d (etRegs et) (etWidth et) (typeGroup et)
    (c.rows d fun l => perElem (etElems et) (etWidth et) (f l))

/-! ### Immediates -/

/-- R39: the 32-bit immediate of an I word: IMM24:I8, or I8 extended. -/
def immOf (o : FI) (signed : Bool) : Nat :=
  match o.ext with
  | some x => x.imm.toNat * 256 + o.i.toNat
  | none => if signed then (o.i.signExtend 32).toNat else o.i.toNat

/-- R182: the immediate as a unit of the ETYPE's width; `sx` sign-extends it to 64 bits. -/
def immUnit (o : FI) (et : Nat) (signed sx : Bool) : Nat :=
  let c := immOf o signed
  if et64 et && sx then wrapInt 64 (intOf true 32 c) else c

/-- R39: the 32-bit immediate of a K word. -/
def immK (o : FK) : Nat :=
  match o.ext with
  | some x => x.imm.toNat % 65536 * 65536 + o.k.toNat
  | none => o.k.toNat

/-! ### Stochastic draws (R169) -/

/-- R169: the generator's next state. -/
def stochNext (x : Word) : Word :=
  let x := x ^^^ (x <<< 13)
  let x := x ^^^ (x >>> 17)
  x ^^^ (x <<< 5)

/-- R169: the draw of a lane and element. -/
def draw (x : Word) (l k : Nat) : Nat :=
  let h := x ^^^ BitVec.ofNat 32 (l * 0x85EBCA6B) ^^^ BitVec.ofNat 32 (k * 0xC2B2AE35)
  let h := h ^^^ (h >>> 16)
  let h := h * 0x7FEB352D#32
  let h := h ^^^ (h >>> 15)
  h.toNat % 65536

/-- R169: an instruction that rounds with RM = 5 advances its team's generator at issue. -/
def State.drawing (s : State) (c : Ctx) (rounds : Bool) : State :=
  if rounds && decide (c.sp.modeRm = 5) then s.modTeam c.tid fun t => { t with stoch := stochNext t.stoch } else s

/-- The rounding settings of MODE for a lane and element; `sat` only in conversions (R171). -/
def Ctx.round (c : Ctx) (conv : Bool) (l k : Nat) : RMode :=
  { rm := c.sp.modeRm, draw := if c.sp.modeRm = 5 then draw (stochNext c.team.stoch) l k else 0,
    ftz := c.sp.modeFtz, nanp := c.sp.modeNanp, sat := conv && c.sp.modeSat }

end Sys2Proof.Machine
end

