-- ==== Sys2Proof/Machine/Convert.lean ====
section
/-!
DEFINITION. Conversions: CVT, PACK, UNPK, MXSCL (R194 to R197).
-/
namespace Sys2Proof.Machine

/-- An ETYPE is floating. -/
def etIsFloat (et : Nat) : Bool := match etKind et with | .flt _ => true | _ => false

/-- R194: element j of the source lands in element j of the target, both counted over their registers. -/
def execCvt (o : FI) (s : State) : Host.Outcome State Fault Refusal := issue (.cvt o) s fun s c =>
  let et := c.et
  let st := o.i.toNat
  let s := s.drawing c true
  let (ns, nt) := cvtRegs st et
  arith s c o.d nt (etWidth et) (typeGroup et) (c.rows o.d fun l =>
    let x := c.unit o.a l ns
    perElem (max (etElems st) (etElems et)) (etWidth et) fun j =>
      convert (etKind st) (etKind et) (c.round true l j) (elemAt (etWidth st) x j))

/-- R195: the kind PACK reads for a target ETYPE. -/
def packSource (et : Nat) : EK := if etIsFloat et then .flt f32 else .int (etSigned et) 32

/-- R195: PACK: elements from A and B, or from A, A+1, B, B+1. -/
def execPack (o : FR) (s : State) : Host.Outcome State Fault Refusal := issue (.pack o) s fun s c =>
  let et := c.et
  let s := s.drawing c true
  let n := etElems et / 2
  lanewise s c o.d fun l k =>
    convert (packSource et) (etKind et) (c.round true l k)
      (c.src ((if k < n then o.a.toNat else o.b.toNat) + k % n) l)

/-- R196: UNPK: one element widened exactly; FTZ does not apply. -/
def execUnpk (o : FI) (s : State) : Host.Outcome State Fault Refusal := issue (.unpk o) s fun s c =>
  let et := c.et
  arith s c o.d 1 32 (if etIsFloat et then 4 else 0) (c.rows o.d fun l =>
    convert (etKind et) (packSource et) { c.round false l 0 with ftz := false }
      (elemAt (etWidth et) (c.src o.a.toNat l) o.i.toNat))

/-- R162, R197: the element format of MXSCL's function value. -/
def mxFmt (b : Nat) : Fmt := match b with | 5 => e4m3 | 6 => e5m2 | _ => e2m1

/-- R197: MXSCL: one MX block from the active lanes of each mask word. -/
def execMxscl (o : FR) (s : State) : Host.Outcome State Fault Refusal := issue (.mxscl o) s fun s c =>
  let s := s.drawing c true
  let f := mxFmt o.b.toNat
  let val (l : Nat) : FV := readF f32 c.sp.modeFtz (c.src o.a.toNat l)
  arith s c o.d 1 32 (if o.b.toNat = 7 then 8 else 7) (c.rows o.d fun l =>
    let x := mxScale f ((c.lanes.filter fun k => decide (k / 32 = l / 32)).map val)
    let (e, fl) := mxElem f (c.round false l 0) x (val l)
    (x * 256 + e, fl))

end Sys2Proof.Machine
end

