-- ==== Sys2Proof/Machine/Cross.lean ====
section
/-!
DEFINITION. Instructions across the lanes of a team (R198 to R204).
-/
namespace Sys2Proof.Machine

/-! ### Shuffles and permutations (R199, R200) -/

/-- R199: each active lane takes A of its source lane. -/
def shuffle (s : State) (c : Ctx) (o : FR) (cross : Bool) : Res :=
  let n := etRegs c.et
  arith s c o.d n (etWidth c.et) 0 (c.rows o.d fun l => (c.unit o.a (c.sourceLane cross o.b l) n, 0))

def execShfl (o : FR) (s : State) : Host.Outcome State Fault Refusal := issue (.shfl o) s fun s c => shuffle s c o false
def execShflx (o : FR) (s : State) : Host.Outcome State Fault Refusal := issue (.shflx o) s fun s c => shuffle s c o true

/-- R200: byte j of PERM's result. -/
def permByte (a d sel : Nat) : Nat :=
  if sel < 4 then a / 256 ^ sel % 256
  else if sel < 8 then d / 256 ^ (sel - 4) % 256
  else if sel = 9 then 255
  else if 10 ≤ sel ∧ sel ≤ 13 then (if a.testBit (8 * (sel - 10) + 7) then 255 else 0)
  else 0

def execPerm (o : FR) (s : State) : Host.Outcome State Fault Refusal := issue (.perm o) s fun s c =>
  arith s c o.d 1 32 0 (c.rows o.d fun l =>
    let b := c.src o.b.toNat l
    ((List.range 4).foldl (fun x j =>
      x + permByte (c.src o.a.toNat l) (c.src o.d.toNat l) (b / 16 ^ j % 16) * 256 ^ j) 0, 0))

/-! ### Votes (R201) -/

/-- R201: the active lanes whose predicate is true. -/
def Ctx.voters (c : Ctx) (a : Byte) : List Nat := c.lanes.filter fun l => decide (c.src a.toNat l ≠ 0)

/-- A result that g[D] takes once, or every active lane of v[D]. -/
def broadcast (s : State) (c : Ctx) (d : Byte) (x : Nat) : Res := arith s c d 1 32 0 (c.rows d fun _ => (x, 0))

def execVoteAny (o : FIF) (s : State) : Host.Outcome State Fault Refusal := issue (.voteAny o) s fun s c =>
  broadcast s c o.d (if c.voters o.a = [] then 0 else 1)
def execVoteAll (o : FIF) (s : State) : Host.Outcome State Fault Refusal := issue (.voteAll o) s fun s c =>
  broadcast s c o.d (if c.voters o.a = c.lanes then 1 else 0)
def execVoteBallot (o : FIF) (s : State) : Host.Outcome State Fault Refusal := issue (.voteBallot o) s fun s c =>
  .done (s.wrM c o.d.toNat (maskOf 1024 (c.voters o.a)))

/-! ### Reductions and scans (R202, R203) -/

/-- R202: one step of a floating reduction that brings in lane l. -/
def redStepF (c : Ctx) (op : Nat) (acc : Nat × Nat) (l x : Nat) : Nat × Nat :=
  let a := readF f32 c.sp.modeFtz acc.1
  let b := readF f32 c.sp.modeFtz x
  let r := c.round false l 0
  let (v, fl) := match op with
    | 0 => addFV f32 r a b [a, b]
    | 1 => minmaxFV f32 r false a b
    | _ => minmaxFV f32 r true a b
  (v, Nat.lor acc.2 fl)

/-- R202: an exact integer reduction: ADD, MIN, MAX, AND, OR, XOR of values read by the type. -/
def redInt (sg : Bool) (w op : Nat) (a b : Int) : Int :=
  match op with
  | 0 => a + b
  | 1 => if b < a then b else a
  | 2 => if a < b then b else a
  | 3 => intOf sg w (Nat.land (wrapInt w a) (wrapInt w b))
  | 4 => intOf sg w (Nat.lor (wrapInt w a) (wrapInt w b))
  | _ => intOf sg w (Nat.xor (wrapInt w a) (wrapInt w b))

/-- R202: the identity of a reduction, as a register value. -/
def redIdentity (et op : Nat) : Nat :=
  let w := etWidth et
  match op with
  | 0 => 0
  | 1 => if et = 2 then f32.inf false else wrapInt w (intMax (etSigned et) w)
  | 2 => if et = 2 then f32.inf true else wrapInt w (intMin (etSigned et) w)
  | 3 => 2 ^ w - 1
  | _ => 0

/-- R202, R203: the running results over a list of (lane, value): each lane with what it and the lanes before it give, and the
flags that have been raised so far, so that each lane from a raising addition on counts as raising it (DESIGN CHOICE, log 33). -/
def scanF (c : Ctx) (op : Nat) : List (Nat × Nat) → Option (Nat × Nat) → List (Nat × Nat × Nat)
  | [], _ => []
  | (l, x) :: rest, none => (l, x, 0) :: scanF c op rest (some (x, 0))
  | (l, x) :: rest, some acc =>
    let r := redStepF c op acc l x
    (l, r) :: scanF c op rest (some r)

/-- The exact integers of a scan. -/
def scanInt (sg : Bool) (w op : Nat) : List (Nat × Nat) → Option Int → List (Nat × Int)
  | [], _ => []
  | (l, x) :: rest, none => (l, intOf sg w x) :: scanInt sg w op rest (some (intOf sg w x))
  | (l, x) :: rest, some acc =>
    let r := redInt sg w op acc (intOf sg w x)
    (l, r) :: scanInt sg w op rest (some r)

/-- R202, R203: the inclusive scan of some lanes of A: lane, value, flags so far. -/
def Ctx.scan (c : Ctx) (lanes : List Nat) (a : Byte) (op : Nat) : List (Nat × Nat × Nat) :=
  let et := c.et
  let vals := lanes.map fun l => (l, c.unit a l (etRegs et))
  if et = 2 then scanF c op vals none
  else
    (scanInt (etSigned et) (etWidth et) op vals none).map fun p =>
      (p.1, fitInt c.sp.modeSat (etSigned et) (etWidth et) p.2)

/-- R169, R202: an f32 sum draws. -/
def sumDraws (c : Ctx) (op : Nat) : Bool := decide (c.et = 2 ∧ op = 0)

/-- R202: TRED: the flags of a floating sum belong to the lanes that the sum brings in. -/
def execTred (o : FI) (s : State) : Host.Outcome State Fault Refusal := issue (.tred o) s fun s c =>
  let op := o.i.toNat
  let s := s.drawing c (sumDraws c op)
  let sc := c.scan (c.reduced o.d o.a) o.a op
  let et := c.et
  let (res, fl) : Nat × Nat := match sc.getLast? with | some x => x.2 | none => (redIdentity et op, 0)
  let n := etRegs et
  let s := if fl = 0 then s else s.modTeam c.tid fun t => t.stick fl
  match enabledException fl c.team.trapEn with
  | some x => .trap s (96 + 9 * x + typeGroup et) fl c.act false
  | none =>
    .done ((List.range n).foldl (fun s k =>
      s.wrField c (o.d.toNat + k) (etWidth et) ((c.computing o.d).map fun l => (l, res / 2 ^ (32 * k) % 2 ^ 32))) s)

/-- R203: the reduction a scan makes. -/
def scanOp (i : Nat) : Nat := match i with | 2 => 2 | 3 => 1 | _ => 0

/-- R203: an exclusive scan: each lane takes what the lane before it had; the first 0. What the last lane adds reaches no lane,
and its flags are dropped (DESIGN CHOICE, log 33). -/
def shiftRows : List (Nat × Nat × Nat) → Nat × Nat → List (Nat × Nat × Nat)
  | [], _ => []
  | (l, v) :: rest, prev => (l, prev) :: shiftRows rest v

/-- R203: TSCAN: an exclusive scan gives each lane what the lanes before it make. The lanes of a trap are those whose running
result has the flag (DESIGN CHOICE, log 33). -/
def execTscan (o : FI) (s : State) : Host.Outcome State Fault Refusal := issue (.tscan o) s fun s c =>
  let op := scanOp o.i.toNat
  let s := s.drawing c (sumDraws c op)
  let et := c.et
  let rows := c.scan c.lanes o.a op
  let rows := if o.i.toNat = 1 then shiftRows rows (0, 0) else rows
  arith s c o.d (etRegs et) (etWidth et) (typeGroup et) rows

/-! ### Work identifiers (R204, R289) -/

/-- R289: bit offset of field i. -/
def widOffset (g : Group) (i : Nat) : Nat := ((g.widths.take i)).sum
/-- R289, R290: the value of field i for a lane. -/
def widValue (c : Ctx) (l i : Nat) : Nat :=
  let g := c.grp
  let e (k : Nat) : Nat := g.exts.getD k 1
  match i with
  | 0 => l
  | 1 => c.team.index
  | 2 => g.gamma % e 0
  | 3 => g.gamma / e 0 % e 1
  | 4 => g.gamma / (e 0 * e 1) % e 2
  | _ => g.gamma / (e 0 * e 1 * e 2)
/-- R204: what WID reads: a field, or a half of the identifier. -/
def widRead (c : Ctx) (l i : Nat) : Nat :=
  let w (k : Nat) : Nat := c.grp.widths.getD k 0
  if i ≤ 5 then (if w i = 0 then 0 else widValue c l i % 2 ^ w i)
  else
    let id := (List.range 6).foldl (fun x k => x + (widValue c l k % 2 ^ w k) * 2 ^ widOffset c.grp k) 0
    if i = 6 then id % 2 ^ 32 else id / 2 ^ 32 % 2 ^ 32

def execWid (o : FI) (s : State) : Host.Outcome State Fault Refusal := issue (.wid o) s fun s c =>
  arith s c o.d 1 32 0 (c.rows o.d fun l => (widRead c l o.i.toNat % 2 ^ 32, 0))

end Sys2Proof.Machine
end

