-- ==== Sys2Proof/Machine/Pool.lean ====
section
/-!
DEFINITION. The ready pool as instructions see it: the dispatcher's reads (R320), free entries and handles (R317, R324),
creating a node.
-/
namespace Sys2Proof.Machine

/-! ### Reads of the dispatcher (R320) -/

/-- What a read by the dispatcher gives. -/
inductive DRead where
  | busy
  | fail
  | ok (x : Nat)
  deriving DecidableEq, Repr

/-- R320, R322: the 64 bytes of a line, at the SLC, under a context's translation; bytes lo to hi-1 are those wanted. -/
def State.dispLine (s : State) (asid va lo hi : Nat) : State × DRead :=
  match s.lineOf none asid va { r := true, anyOwner := true } with
  | (s, .busy) => (s, .busy)
  | (s, .ok _ line _) =>
    let (s, ok) := s.slcAsk line ((List.range 4).filter fun k => decide (lo < 16 * k + 16 ∧ 16 * k < hi)) false none .passing
    if !ok then (s, .busy)
    else if s.isPoisoned .glob (line * 64 + lo) (hi - lo) then (s, .fail)
    else (s, .ok (s.rd .glob (line * 64) 64))
  | (s, _) => (s, .fail)

/-- n bytes at a virtual address, little-endian. -/
def State.dispRead (s : State) (asid va n : Nat) : State × DRead :=
  let lines := (va % 64 + n + 63) / 64
  let (s, r) := (List.range lines).foldl (fun (q : State × DRead) i =>
    match q.2 with
    | .ok x =>
      (match q.1.dispLine asid ((va / 64 + i) * 64) (if i = 0 then va % 64 else 0) (min 64 (va % 64 + n - 64 * i)) with
        | (s, .ok y) => (s, .ok (x + y * 256 ^ (64 * i)))
        | r => r)
    | _ => q) (s, .ok 0)
  match r with
  | .ok x => (s, .ok (x / 256 ^ (va % 64) % 256 ^ n))
  | r => (s, r)

/-- Word k of a little-endian block. -/
def blockWord (x k : Nat) : Word := BitVec.ofNat 32 (x / 2 ^ (32 * k))

/-! ### The pool (R317, R324) -/

/-- R317: the entries that are free. -/
def State.poolFree (s : State) : Nat :=
  4096 - (s.nodes.map fun n => 1 + n.records.length).sum

/-- R324: an entry is freed: its generation grows. The handle that would be 0xFFFFFFFF, which names none, is passed over. -/
def freedEntry (l : List (Nat × Nat)) (e : Nat) : List (Nat × Nat) :=
  let g := (sget 0 l e + 1) % 2 ^ 20
  sset 0 l e (if e = 4095 ∧ g = 2 ^ 20 - 1 then 0 else g)

/-- R324: a free entry with its generation, as a handle; no rule says which entry. -/
def State.freeHandle (s : State) : Nat :=
  let l := (List.range 4096).filter fun e => !(s.nodes.any fun n => decide (n.handle % 4096 = e))
  let e := l.getD (Config.openValue 2 s.nextId % l.length) 0
  e + 4096 * (sget 0 s.entryGens e)

/-- R316, R324: a new node. -/
def State.createNode (s : State) (mk : Nat → Nat → Node) : State × Nat :=
  let h := s.freeHandle
  let (i, s) := s.fresh
  ({ s with nodes := s.nodes ++ [mk i h] }, h)

/-- R325, R326: KIND and MAXD of a node: from its header as dispatched, or as it lies in memory. -/
def State.kindOf (s : State) (n : Node) : State × Option (Nat × Nat) :=
  match n.header with
  | some h => (s, some (h.kind, h.maxd))
  | none =>
    match s.dispRead n.asid (n.hdrAddr + 0xD0) 8 with
    | (s, .busy) => (s, none)
    | (s, .ok x) => (s, some (x / 65536 % 16, x % 65536))
    | (s, .fail) => (s, some (Config.openValue 3 s.nonce, 0))

end Sys2Proof.Machine
end

