-- ==== Sys2Proof/Machine/Place.lean ====
section
/-!
DEFINITION. Where the dispatcher places the next group: teams and quads (R290, R291, R311, R313), what a core has free, the
core choice (R327), the group that is next placed and the requests of a core's contexts (R335).
-/
namespace Sys2Proof.Machine

/-! ### Quads -/

def State.quadOf (s : State) (core quad : Nat) : Quad :=
  match s.core? core with | some k => sget {} k.quads quad | none => {}
def State.modQuad (s : State) (core quad : Nat) (f : Quad → Quad) : State :=
  s.modCore core fun k => { k with quads := sset {} k.quads quad (f (sget {} k.quads quad)) }

/-- R313: the units that the head CLAIM of a quad's queue needs. -/
def State.headNeed (s : State) (core quad : Nat) : Nat :=
  match (s.quadOf core quad).claims with
  | [] => 0
  | (tid, uid) :: _ =>
    match s.team? tid with
    | none => 0
    | some t => match (t.split? uid).bind (·.busy) with
      | some (.claim _, [n]) => n * t.size / 32
      | _ => 0

/-! ### Nodes and their teams -/

/-- R389: spawns and contexts are accepted: the firmware runs and the cores have been powered up. -/
def State.isOpen (s : State) : Bool := decide (s.boot.state = 4 ∧ 16 ≤ s.boot.nextCore)

/-- R316, R389, R394: the context accepts spawns. -/
def State.spawnsOpen (s : State) (asid : Nat) : Bool :=
  s.isOpen && (match s.ctx? asid with
    | none => false
    | some x => match x.tdi with
      | none => true
      | some t => match s.tdis.find? fun q => decide (q.1 = t) with
        | some (_, d) => decide (d.st = .run)
        | none => false)

/-- R291: the present lanes of the k-th team of a role. -/
def RoleEnt.lanesOf (r : RoleEnt) (k : Nat) : Nat :=
  let t := 2 ^ r.logT
  min t ((if r.lanes = 0 then r.count * t else r.lanes) - k * t)

/-- R290, R291: the teams of a group in team-index order: role number, role, present lanes. -/
def teamsOf (rs : List RoleEnt) : List (Nat × RoleEnt × Nat) :=
  rs.zipIdx.flatMap fun r => ((List.range (min r.1.count 64)).map fun k => (r.2, r.1, r.1.lanesOf k)).filter fun x => decide (x.2.2 ≠ 0)

/-- R290: G. -/
def gridCount (exts : List Nat) : Nat := exts.foldl (· * ·) 1

/-- R108, R110: the scratchpad a group takes. -/
def Header.scratch (h : Header) : Nat :=
  let ts := teamsOf h.roles
  h.ws + (ts.map fun t => 2 ^ t.2.1.logT * h.privBytes).sum + 144 * h.spill * ts.length

/-- R327: home teams in index order on quads with free units and homed counts; the quad of each. -/
def homeTeams : List Nat → List (Nat × Nat × Nat) → Option (List Nat)
  | [], _ => some []
  | u :: us, qs =>
    match (qs.filter fun q => decide (q.2.2 < 16) && decide (u ≤ q.2.1)) with
    | [] => none
    | q :: rest =>
      let best := rest.foldl (fun (a : Nat × Nat × Nat) x => if a.2.1 < x.2.1 then x else a) q
      (homeTeams us (qs.map fun x => if x.1 = best.1 then (x.1, x.2.1 - u, x.2.2 + 1) else x)).map fun l => best.1 :: l

/-- R327: the units of a team. -/
def RoleEnt.units (r : RoleEnt) : Nat := r.regs * 2 ^ r.logT / 256

/-- The cores of a context. -/
def Ctxt.cores (x : Ctxt) : List Nat := bitsBelow x.mask 16

/-- R385, R386: the loft regions of a context: base and size of those that exist, one eviction area per core. -/
def Ctxt.regions (x : Ctxt) : List (Nat × Nat) :=
  let k := x.cores.length
  (((x.loftBase, x.loftSize) :: (List.range k).map fun i => (x.evictBase + i * x.evictSize, x.evictSize)) ++
    [(x.shadow, if x.shadow = 0 then 0 else 10 * 2 ^ 20 * k)]).filter fun r => decide (r.2 ≠ 0)

/-- R379: the accumulator slots of a core: fewer where it belongs to a partition. -/
def State.coreSlots (s : State) (core : Nat) : Nat :=
  if s.ctxs.any fun x => decide (x.shadow ≠ 0) && x.mask.getLsbD core then 1664 else 2048

/-- R16, R395: a core fails self-test, or its corrected errors exceed the threshold. -/
def State.unfit (s : State) (core : Nat) : Bool :=
  (s.core? core).any fun k => k.failed || decide (s.gov.sramLimit < (k.sramErrors.filter fun t => decide (s.time < t + s.gov.sramSpan)).length)

/-- R16, R378: the dispatcher may put groups on the core: it is fit, is not dark, and is not halted for a swap. -/
def State.coreTakes (s : State) (core : Nat) : Bool :=
  !(s.unfit core) && !(s.coreHalted core) && (match s.core? core with | some k => decide (k.power ≠ .dark) | none => false)

/-- The pages of a header's tiles of some access kinds. A tile with PAGES 0, which R329 does not give, has none: no reason of
R322 names it (DESIGN CHOICE, log 33). -/
def Header.tilePages (h : Header) (acc : List Nat) : List Nat :=
  (h.tiles.filter fun t => acc.contains t.1).flatMap fun t => (List.range t.2.1).map fun i => (t.2.2 + 4096 * i) % 2 ^ 48

/-! ### The core choice (R327) -/

/-- R328: class: 0 urgent, 1 high, 2 normal, 3 background. -/
def Header.cls (h : Header) : Nat := if h.urgent then 0 else match h.prio with | 1 => 1 | 2 => 3 | _ => 2

/-- The next group a node would place: γ, its relaunch count, its words, its depth. -/
def Node.nextPlace (n : Node) : Option (Nat × Nat × List Word × Nat) :=
  match n.header with
  | none => none
  | some h =>
    match n.again with
    | a :: rest => some (rest.foldl (fun (b : Nat × Nat × List Word × Nat) x => if x.1 < b.1 then x else b) a)
    | [] =>
      if h.kind = 0 then
        if n.nextGroup < gridCount h.exts then
          some (n.nextGroup, 0, (if n.spawned then n.args else match n.argBlock with | some w => w | none => h.param.getD []), 0)
        else none
      else match n.records with
        | r :: _ => some (0, 0, r.words, r.depth)
        | [] => none

/-- R327: the nodes that wait to place a group, first the one that is served next. -/
def State.headNode (s : State) : Option Node :=
  let served := s.nodes.filter fun n => s.spawnsOpen n.asid && (match s.ctx? n.asid with | some x => !x.halted && !x.swapped | none => false)
  let cls (n : Node) : Nat := match n.header with | some h => h.cls | none => 4
  -- the class of a dispatchable node is known once its header has been read
  if served.any fun n => n.header.isNone && decide (n.preds = []) then none
  else match served.filter fun n => n.nextPlace.isSome with
  | [] => none
  | n :: ns => some (ns.foldl (fun (a : Node) x => if cls x < cls a ∨ (cls x = cls a ∧ x.id < a.id) then x else a) n)

/-- The groups on a core, those apart that are evicted or whose image lies in a shadow region. -/
def State.groupsOn (s : State) (core : Nat) : List Group := s.groups.filter fun g => decide (g.core = core) && g.here
/-- The teams that take room on a core. -/
def State.teamsOn (s : State) (core : Nat) : List Team := s.teams.filter fun t => decide (t.core = core) && s.onCore t
def State.scratchOf (s : State) (g : Group) : Nat :=
  match (s.node? g.node).bind (·.header) with | some h => h.scratch | none => g.ws

/-- R327: the quads a group's teams would be homed on, when the core can hold the group. -/
def State.homesOn (s : State) (core : Nat) (h : Header) (slots : Nat) : Option (List Nat) :=
  let gs := s.groupsOn core
  let ts := teamsOf h.roles
  if 2 ^ 20 < (gs.map s.scratchOf).sum + h.scratch ∨ slots < (gs.map (·.accSlots)).sum + h.accSlots ∨
      64 < (s.teamsOn core).length + ts.length then none
  else homeTeams (ts.map fun t => t.2.1.units)
    ((List.range 4).map fun q => (q, s.freeUnits core q - s.headNeed core q, (s.homed core q).length))

/-- R327: the physical lines of some pages, whatever their rights; no answer while a table is being read. -/
def State.findTiles (s : State) (asid : Nat) (pages : List Nat) : State × Bool :=
  pages.foldl (fun (q : State × Bool) va =>
    match q.1.lineOf none asid va { anyOwner := true, anyKey := true, anyRights := true } with
    | (s, .busy) => (s, false)
    | (s, _) => (s, q.2)) (s, true)

/-- R327: what the core choice compares: staged lines, write-tile lines, resident teams, each as "less is better". -/
def State.coreRank (s : State) (n : Node) (h : Header) (core : Nat) : Nat × Nat × Nat :=
  let staged := (s.staged.filter fun q => decide (q.1 = n.id) && decide (s.slcSlice q.2.1 = core)).length
  let writes := ((h.tilePages [2]).map fun va => match (s.lineOf none n.asid va { anyOwner := true, anyKey := true, anyRights := true }).2 with
    | .ok _ line _ => ((List.range 64).filter fun i => decide (s.slcSlice (line + i) = core)).length
    | _ => 0).sum
  (2 ^ 20 - staged, 2 ^ 20 - writes, (s.teamsOn core).length)

def rankLt (a b : Nat × Nat × Nat) : Bool :=
  decide (a.1 < b.1) || (decide (a.1 = b.1) && (decide (a.2.1 < b.2.1) || (decide (a.2.1 = b.2.1) && decide (a.2.2 < b.2.2))))

/-- R327, R375: the core the dispatcher chooses for a node's next group. A core whose evicted teams of the same or a
higher class wait to return takes none. -/
def State.chooseCore (s : State) (n : Node) (h : Header) : Option Nat :=
  match s.ctx? n.asid with
  | none => none
  | some x =>
    let owed (c : Nat) : Bool := s.teams.any fun t => decide (t.core = c) && (match t.residence with | .evicted _ => true | _ => false) &&
      (match s.group? t.group with | some g => decide (g.cls ≤ h.cls) | none => false)
    let qs := x.cores.filter fun c => s.coreTakes c && (s.homesOn c h (s.coreSlots c)).isSome && !(owed c)
    let apart := if h.yard then qs.filter fun c => !((s.groupsOn c).any fun g => decide (g.node = n.id)) else qs
    match (if apart = [] then qs else apart) with
    | [] => none
    | c :: cs => some (cs.foldl (fun a x => if rankLt (s.coreRank n h x) (s.coreRank n h a) then x else a) c)

/-- R335: the group that the dispatcher has chosen a core for and not yet placed: its node and core. -/
def State.nextPlaced (s : State) : Option (Node × Header × Nat) :=
  match s.headNode with
  | none => none
  | some n => n.header.bind fun h =>
      if (s.findTiles n.asid (h.tilePages [2])).2 then (s.chooseCore n h).map fun c => (n, h, c) else none

/-- R337: the request that a launch gives its teams. -/
def Header.request (h : Header) (x : Ctxt) : Nat := match h.pwr with | 0 => x.defaultReq | 1 => x.ceiling | _ => 0

/-! ### Requests (R335, R349) -/

/-- R349: the governor ceiling. -/
def Gov.ceiling (g : Gov) : Nat := match g.rung3 with | some r => min g.powerCeil r | none => g.powerCeil

/-- R335: req(x) of a context on a core: the most that its groups there ask for, resident or next placed. -/
def State.request (s : State) (core asid : Nat) : Nat :=
  let here := (s.groupsOn core).filter fun g => decide (g.asid = asid)
  let next := match s.nextPlaced with
    | some (n, h, c) => (match s.ctx? asid with
      | some x => if c = core ∧ n.asid = asid then h.request x else 0
      | none => 0)
    | none => 0
  ((s.teams.filter fun t => decide (t.core = core) && decide (t.residence ≠ .ended) && here.any fun g => decide (g.id = t.group)).map
    (·.perf)).foldl max next

end Sys2Proof.Machine
end

