-- ==== Sys2Proof/Machine/Sys.lean ====
section
/-!
DEFINITION. The system instructions: special registers (R46 to R49), traps and their return (R357, R358), regions (R364),
register granules (R312), SETPERF (R337), nodes and records (R319, R324, R326), RPC (R388), debug (R402).
-/
namespace Sys2Proof.Machine

/-! ### Special registers (R46 to R49) -/

/-- R340: the charges of the core's last 256 cycles; those of the cycle that runs come into it at its end. -/
def Core.chargeSum (k : Core) : Nat := ((k.charges.filter fun q => decide (q.1 < k.cycle)).map (·.2)).sum

/-- R46, R48: the live value of a special register for an issue. DESIGN CHOICE (log 12): PSIG is the issuing split's, as R398 has
it, though R47 calls every register but MODE the team's. -/
def State.special (s : State) (c : Ctx) (idx : Nat) : Nat :=
  let t := (s.team? c.tid).getD c.team
  let k := (s.core? c.core).getD { id := c.core }
  match idx with
  | 0x00 => c.sp.mode.toNat
  | 0x01 => t.teamReg
  | 0x02 => t.gran * 256 + (Nat.log2 t.size - 5) * 4 + t.role
  | 0x03 => t.core
  | 0x04 => (match t.grid with | some g => if !g.retake then (maskOf 4 g.quads).toNat * 16 else 0 | none => 0) + t.quad
  | 0x05 => match s.yardOf c.grp.id with
    | some (y, m) => 2 ^ 31 + y.members.length * 8 + m.idx
    | none => 0
  | 0x06 => t.cycle % 2 ^ 32
  | 0x07 => t.cycle / 2 ^ 32 % 2 ^ 32
  | 0x08 => s.time % 2 ^ 32
  | 0x09 => s.time / 2 ^ 32 % 2 ^ 32
  | 0x0A => min (match s.ctx? c.grp.asid with | some x => x.ceiling | none => 0) s.gov.ceiling * 256 +
      s.request c.core c.grp.asid * 16 + k.level
  | 0x0B => (if k.threshold < k.chargeSum then 2 ^ 31 else 0) + k.chargeSum
  | 0x0C => t.rtimer.toNat
  | 0x0D => t.wdl % 2 ^ 32
  | 0x0E => t.wdl / 2 ^ 32
  | 0x0F => t.cause.toNat
  | 0x10 => t.epc.toNat
  | 0x11 => t.sstatLo.toNat
  | 0x12 => t.sstatHi.toNat
  | 0x13 => t.rcount.toNat
  | 0x14 => t.regpc.toNat
  | 0x15 => t.joins.length * 65536 + t.deferred.length * 256 + (maskOf 8 (t.splits.map (·.slot))).toNat
  | 0x16 => c.sp.psig.toNat % 2 ^ 32
  | 0x17 => c.sp.psig.toNat / 2 ^ 32
  | 0x18 => t.sticky.toNat
  | 0x19 => s.freeUnits t.core t.quad
  | 0x1A => c.grp.asid
  | 0x1B => s.gov.rscale * 256 + s.gov.step
  | 0x1C => s.gov.planes
  | 0x1D => s.gov.pool * 256 + s.gov.free
  | 0x1E => s.drpthr
  | _ => 0

/-- R48: what SREAD returns: the latched high word where one is pending. -/
def State.sreadValue (s : State) (c : Ctx) (idx : Nat) : Nat :=
  let pick (o : Option Word) : Nat := match o with | some w => w.toNat | none => s.special c idx
  match idx with
  | 0x07 => pick c.sp.latCycle
  | 0x09 => pick c.sp.latTime
  | 0x17 => pick c.sp.latPsig
  | _ => s.special c idx

/-- R48: reading a low word latches the high word; reading a high word ends its latch. -/
def State.latch (s : State) (c : Ctx) (idx : Nat) : State :=
  let hi (k : Nat) : Option Word := some (BitVec.ofNat 32 (s.special c k))
  s.modSplit c.tid c.uid fun p =>
    match idx with
    | 0x06 => { p with latCycle := hi 0x07 }
    | 0x07 => { p with latCycle := none }
    | 0x08 => { p with latTime := hi 0x09 }
    | 0x09 => { p with latTime := none }
    | 0x16 => { p with latPsig := hi 0x17 }
    | 0x17 => { p with latPsig := none }
    | _ => p

def execSread (o : FE) (s : State) : Host.Outcome State Fault Refusal := issue (.sread o) s fun s c =>
  let idx := o.a.toNat
  let x := s.sreadValue c idx
  .done ((s.latch c idx).wrField c o.d.toNat 32 ((c.computing o.d).map fun l => (l, x)))

/-- R46: the bits of a special register that a team may write. -/
def writable (idx : Nat) : Nat :=
  match idx with
  | 0x00 | 0x0C | 0x0D | 0x0E | 0x11 => 0xFFFFFFFF
  | 0x0F => 0xFFFF01FF
  | 0x10 => 0xFFFFFFFC
  | 0x12 => 0xFFFFFFC8
  | 0x18 => 0x001F033F
  | _ => 0

/-- R46, R48: write a special register that accepts the value. -/
def Team.setSpecial (t : Team) (idx : Nat) (x : Word) : Team :=
  match idx with
  | 0x0C => { t with rtimer := x }
  | 0x0D => { t with wdlLo := x }
  | 0x0E => { t with wdl := x.toNat * 2 ^ 32 + t.wdlLo.toNat }
  | 0x0F => { t with cause := x }
  | 0x10 => { t with epc := x }
  | 0x11 => { t with sstatLo := x }
  | 0x12 => { t with sstatHi := x }
  -- R47: a flag that an event sets in the same cycle ends set
  | 0x18 => { t with sticky := (((t.sticky &&& ~~~x) ||| t.raised) &&& 0x33F) ||| (x &&& 0x1F0000) }
  | _ => t

/-- R49: SWRITE. Writing the current value of a read-only field is accepted. -/
def execSwrite (o : FE) (s : State) : Host.Outcome State Fault Refusal := issue (.swrite o) s fun s c =>
  let idx := o.d.toNat
  let x := BitVec.ofNat 32 (c.g o.a)
  if (x ^^^ BitVec.ofNat 32 (s.special c idx)) &&& ~~~(BitVec.ofNat 32 (writable idx)) ≠ 0 then .trap s 19 (encodingDetail c.i) c.act false
  else if idx = 0 then
    if modeReserved x then .trap s 14 (encodingDetail c.i) c.act false
    else .done (s.modSplit c.tid c.uid fun p => { p with mode := x })
  else .done (s.modTeam c.tid fun t => t.setSpecial idx x)

/-! ### TRAP, TRET, REGION (R357, R358, R364) -/

def execTrap (o : FE) (s : State) : Host.Outcome State Fault Refusal := issue (.trap o) s fun s c =>
  .trap s (288 + o.d.toNat) (if o.a.toNat = 0 then 0 else c.g o.a % 65536) c.act true

/-- R356, R358: a nested trap of TRET. -/
def nestedTrap (s : State) (c : Ctx) (code detail : Nat) (lanes : LaneMask) : Res :=
  if s.outstanding c.team then .hold s
  else .nested ((s.flushParked c.tid).takeTrap c.tid c.uid code detail lanes false c.sp.pc true) code

/-- R354: the waits that end with the handler. -/
def Team.unfreeze (t : Team) : Team :=
  t.live.foldl (fun t p => match p.monWait with | some w => if p.st = .monWait ∧ w.reason.isSome then t.wake p.uid (w.reason.getD 1) else t | none => t) t

/-- R358: the return to an address. At depth 2 the depth-1 set comes back; at depth 1 the handler ends. -/
def Team.leaveHandler (t : Team) (next : Word) : Team :=
  let t := t.settleAll
  match t.saved1, decide (t.depth = 2) with
  | some q, true =>
    { t with
      cause := q.cause, epc := q.epc, sstatLo := q.lo, sstatHi := BitVec.ofNat 32 (16 + q.hi.toNat % 16), saved1 := none
      m := sset 0 t.m 15 q.m15
      handler := t.handler.map fun h => { h with pc := next, mode := t.sstatLo, st := .ready, exempt := true } }
  | _, _ =>
    let slot := t.sstatHi.toNat % 8
    -- R310: F may be deferred; then SLOT names it by no slot of the table
    let away := t.deferred.any fun q => decide (some q.uid = t.trapped)
    let back (p : Split) : Split := { p with pc := next, mode := t.sstatLo, exempt := true, landCheck := p.landCheck && decide (next = p.pc) }
    -- R275: the handler's instructions precede what follows
    let after (p : Split) : Split := { p with anc := (t.handler.toList.map (·.uid) ++ p.anc).eraseDups }
    ({ t with
      m := sset 0 t.m 15 (t.m15save &&& t.present)
      handler := none
      trapped := none
      sstatHi := t.sstatHi &&& 0xFFFFFFCF
      splits := t.splits.map fun (p : Split) => after (if p.slot = slot ∧ away = false then back p else p)
      deferred := t.deferred.map fun (p : Split) => after (if some p.uid = t.trapped then back p else p) }).unfreeze

/-- The word is EXT. -/
def isExt (w : Word) : Bool := decide (wOp w = 0x7F)

def execTret (o : FE) (s : State) : Host.Outcome State Fault Refusal := issue (.tret o) s fun s c =>
  let t := c.team
  let back (s : State) (n : Word) : Res :=
    .jump ({ s.modTeam c.tid (fun t => t.leaveHandler n) with monRegs := s.monRegs.filter fun r => !(decide (r.2.1 = c.tid) && decide (r.2.2.1 = c.uid)) })
  if t.depth = 0 then .trap s 152 0 c.act false
  else if t.sstatHi.toNat / 64 ≠ 0 then nestedTrap s c 153 0 c.act
  else if modeReserved t.sstatLo then nestedTrap s c 14 (encodingDetail c.i) c.act
  else if !(t.sstatHi.getLsbD 3) then back s t.epc
  else
    match s.fetch c.core c.grp.asid (c.grp.codeBase + t.epc.toNat) with
    | (s, .busy) => .hold s
    | (s, .notPresent) => .jump (s.parkSplit c .fetch ((c.grp.codeBase + t.epc.toNat) % 2 ^ 48 / 64 * 64) 0 false)
    | (s, .trap code detail) => nestedTrap s c code detail c.sp.exec
    | (s, .dead code) => .hold (s.groupPath c.grp.id code 0 true true)
    | (s, .ok w) => back s (t.epc + if isExt w then 8 else 4)

/-- R364: REGION. A region that restarts keeps its count (R365). -/
def execRegion (o : FE) (s : State) : Host.Outcome State Fault Refusal := issue (.region o) s fun s c =>
  let t := c.team
  if 1 < t.splits.length then .trap s 150 0 c.act false
  else if t.deferred ≠ [] then .trap s 150 1 c.act false
  else if t.joins ≠ [] then .trap s 150 2 c.act false
  else
    let kept := match t.region with | some q => if q.again ∧ t.regpc = c.sp.pc then q.restarts else 0 | none => 0
    .done (s.modTeam c.tid fun t => { t with
      regpc := c.sp.pc, rcount := t.rcount + 1
      region := some { own := c.sp.own, exec := c.sp.exec, mode := c.sp.mode, restarts := kept, psig := c.sp.psig } })

/-! ### Register granules (R311 to R314) -/

/-- R312: the registers from 8G on are gone. -/
def Team.dropRegs (t : Team) (gran : Nat) : Team :=
  { t with gran := gran, v := sdrop t.v (8 * gran * 1024) (192 * 1024)
           unset := t.unset.filter fun e => e.file ≠ .v ∨ e.reg < 8 * gran
           poison := t.poison.filter fun q => q.1 ≠ .v ∨ q.2.1 < 8 * gran }

def execRelease (o : FE) (s : State) : Host.Outcome State Fault Refusal := issue (.release o) s fun s c =>
  let gr := c.team.gran
  let n := c.g o.a
  if n = 0 then .done (s.wrG c o.d [gr])
  else if gr - 1 < n then .trap s 149 (n % 65536) c.act false
  else if s.outstanding c.team then .hold s
  else .done ((s.modTeam c.tid fun t => t.dropRegs (gr - n)).wrG c o.d [gr - n])

/-- R312: a CLAIM of n granules gets them: the new registers are 0. -/
def State.grantClaim (s : State) (tid uid n : Nat) (d : Byte) : State :=
  s.modTeam tid fun t =>
    let t' := { t.dropRegs t.gran with gran := t.gran + n }
    t'.write uid 32 .g (d.toNat - 192) [(0, t.gran + n)]

def execClaim (o : FE) (s : State) : Host.Outcome State Fault Refusal := issue (.claim o) s fun s c =>
  let t := c.team
  let n := c.g o.a
  if n = 0 then .done (s.wrG c o.d [t.gran])
  else if 24 < t.gran + n ∨ 524288 < (t.gran + n) * 32 * t.size then .trap s 149 (n % 65536) c.act false
  else if (s.quadOf t.core t.quad).claims = [] ∧ n * t.size / 32 ≤ s.freeUnits t.core t.quad then
    .done (s.grantClaim c.tid c.uid n o.d)
  else c.blocked (s.modQuad t.core t.quad fun q => { q with claims := q.claims ++ [(c.tid, c.uid)] }) [n]

/-! ### SETPERF, NODE, EMIT, JCADD (R337, R324, R326, R319) -/

def execSetperf (o : FE) (s : State) : Host.Outcome State Fault Refusal := issue (.setperf o) s fun s c =>
  let n := c.g o.a
  if 7 < n then .trap s 21 (encodingDetail c.i) c.act false
  else .done (s.modTeam c.tid fun t => { t with perf := n })

/-- R277, R324: every earlier access of the team has been performed. -/
def State.teamPerformed (s : State) (tid : Nat) : Bool :=
  s.flights.all fun f => decide (f.team ≠ tid) || f.performed

/-- R324: NODE, a release of the team's earlier accesses. A handle names a live node of any context (DESIGN CHOICE, log 33). -/
def execNode (o : FE) (s : State) : Host.Outcome State Fault Refusal := issue (.node o) s fun s c =>
  if !(s.teamPerformed c.tid) then .hold s
  else if s.poolFree ≤ 64 then .done (s.wrG c o.d [1, 0xFFFFFFFF])
  else
    let w := c.gAt o.a
    let hdr := w 0 + w 1 % 65536 * 2 ^ 32
    let arg := w 2 + w 3 * 2 ^ 32
    let preds := ((List.range 4).flatMap fun k => (s.nodes.filter fun n => decide (n.handle = w (4 + k)) && !n.cancelled).map (·.id)).eraseDups
    let (s, h) := s.createNode fun i h =>
      { id := i, handle := h, asid := c.grp.asid, hdrAddr := hdr, spawned := false, argAddr := arg % 2 ^ 48,
        bad := decide (hdr % 256 ≠ 0 ∨ arg % 32 ≠ 0 ∨ 2 ^ 48 ≤ arg), preds := preds }
    .done (s.wrG c o.d [0, h])

/-- R326: EMIT, to a node of any context (DESIGN CHOICE, log 33). -/
def execEmit (o : FE) (s : State) : Host.Outcome State Fault Refusal := issue (.emit o) s fun s c =>
  if !(s.teamPerformed c.tid) then .hold s
  else
    match s.nodes.find? fun n => decide (n.handle = c.g o.d) && !n.cancelled with
    | none => .done (s.wrG c o.d [3])
    | some n =>
      match s.kindOf n with
      | (s, none) => .hold s
      | (s, some (kind, maxd)) =>
        if kind ≠ 1 then .done (s.wrG c o.d [3])
        else
          let d := if n.id = c.grp.node then c.grp.depth + 1 else 0
          if maxd ≠ 0 ∧ maxd ≤ d then
            let s := (s.modTeam c.tid fun t => t.stick bDEPTH).wrG c o.d [2]
            if c.grp.trapDepth then .trap s 320 0 c.act false else .done s
          else if s.poolFree ≤ 64 then .done (s.wrG c o.d [1])
          else
            let words := (List.range 8).map fun k => BitVec.ofNat 32 (c.gAt o.a k)
            .done ((s.modNode n.id fun n => { n with records := n.records ++ [⟨words, d⟩] }).wrG c o.d [0])

/-- R319: JCADD keeps path 1 until its add is performed. -/
def execJcadd (o : FE) (s : State) : Host.Outcome State Fault Refusal := issue (.jcadd o) s fun s c =>
  let jca := match s.node? c.grp.node with | some n => n.jca | none => 0
  if jca = 0 then .done s
  else
    s.onPath c 1 fun _ =>
      let x := c.gAt o.a 0 + c.gAt o.a 1 * 2 ^ 32
      match depart c { path := 1, n := 8, uniform := true, need := { r := true } } (.ok s [] []) none fun f =>
          { f with kind := .jcadd x, reqs := [{ space := .priv 0, line := 0, lanes := [] }] } with
      | .done t => .done { t with jcAdds := t.jcAdds ++ [⟨s.nextId, c.grp.asid, jca, x, false⟩] }
      | r => r

/-! ### RPC (R388) -/

/-- R388: the unanswered RPCs of a team. -/
def State.unanswered (s : State) (tid : Nat) : Nat :=
  (s.tickets.filter fun k => match k.2 with | .team t none => decide (t = tid) | _ => false).length

/-- R388: RPC, a release of the split's earlier accesses (R288). It takes its place among those that wait as it blocks; one whose
team is at its limit lets the others pass. -/
def execRpc (o : FE) (s : State) : Host.Outcome State Fault Refusal := issue (.rpc o) s fun s c =>
  let me := (c.tid, c.uid)
  let queued := s.rpcQ.contains me
  let before := (s.rpcQ.takeWhile fun r => decide (r ≠ me)).filter fun r => decide (s.unanswered r.1 < 4)
  if !(s.allPerformed c.tid c.uid) then .hold s
  else
    match (if before = [] ∧ s.unanswered c.tid < 4 then s.freeTicket 32 256 else none) with
    | none => c.blocked (if queued then s else { s with rpcQ := s.rpcQ ++ [me] }) []
    | some k =>
      let words := (List.range 8).map fun j => BitVec.ofNat 32 (c.gAt o.a j)
      let s := { s with tickets := s.tickets ++ [(k, TicketUse.team c.tid none)], rpcQ := s.rpcQ.filter (· ≠ me), nextId := s.nextId + 1 }
      .done ((s.send (.team k c.grp.asid c.team.sourceWord c.sp.pc words)).wrG c o.d [k])

def execRpcwait (o : FE) (s : State) : Host.Outcome State Fault Refusal := issue (.rpcwait o) s fun s c =>
  let k := (c.asIssued [c.g o.a % 256]).headD 0
  match s.tickets.find? fun q => decide (q.1 = k) with
  | some (_, .team t r) =>
    if t ≠ c.tid then .trap s 324 0xFFFF c.act false
    else
      match r with
      | none => c.blocked s [k]
      | some q =>
        let s := { s with tickets := s.tickets.filter fun q => q.1 ≠ k }
        if q.status ≠ 0 then .trap s 324 (q.status % 65536) c.act false
        else .done ((s.splitAcquires c.tid c.uid 6).wrG c o.d [if q.carried then q.value1.toNat else 0, q.value0.toNat])
  | _ => .trap s 324 0xFFFF c.act false

/-! ### BKPT, TMARK, HALT, EXT (R402, R45) -/

def execBkpt (o : FE) (s : State) : Host.Outcome State Fault Refusal := issue (.bkpt o) s fun s c =>
  .trap s 161 o.d.toNat c.act true

def execTmark (o : FE) (s : State) : Host.Outcome State Fault Refusal := issue (.tmark o) s fun s c =>
  .done (if c.grp.asid = s.dbg.asid ∧ s.dbg.ringSize ≠ 0 then
      s.traceRecord c.tid c.uid [3 + 16 * 256, c.sp.pc.toNat, c.g o.a, c.team.teamReg] else s)

/-- R45: HALT issued by a team is encoding fault 20, always. -/
def execHalt (o : FE) (s : State) : Host.Outcome State Fault Refusal := issue (.halt o) s fun s c =>
  .trap s 20 (encodingDetail c.i) c.act false

/-- R39, R45: EXT in front of a word of another format is encoding fault 10 or 11, always. -/
def execExt (o : FExt) (s : State) : Host.Outcome State Fault Refusal := issue (.ext o) s fun s c =>
  .trap s 11 (encodingDetail c.i) c.act false

end Sys2Proof.Machine
end

