-- ==== Sys2Proof/Machine/Engine.lean ====
section
/-!
DEFINITION. Engine contexts (R116 to R124, R129 to R132), the copy and collective commands (R117 to R119), barrier objects
(R127, R128), yards (R113), path waits (R126): the instructions, and what their events do.
-/
namespace Sys2Proof.Machine

/-! ### Engine contexts -/

def Group.eng (g : Group) (sel : Nat) : EngCtx := sget {} g.engs sel
def Group.modEng (g : Group) (sel : Nat) (f : EngCtx → EngCtx) : Group := { g with engs := sset {} g.engs sel (f (g.eng sel)) }
def State.modEng (s : State) (gid sel : Nat) (f : EngCtx → EngCtx) : State := s.modGroup gid fun g => g.modEng sel f
def EngCtx.modCmd (x : EngCtx) (n : Nat) (f : EngCmd → EngCmd) : EngCtx :=
  { x with cmds := x.cmds.map fun c => if c.n = n then f c else c }
def State.modCmd (s : State) (gid sel n : Nat) (f : EngCmd → EngCmd) : State := s.modEng gid sel fun x => x.modCmd n f
def EngCtx.cmd? (x : EngCtx) (n : Nat) : Option EngCmd := x.cmds.find? fun c => decide (c.n = n)

/-- R130: engine index and quad of a selector. -/
def selEngine (sel : Nat) : Nat := sel % 8
def selQuad (sel : Nat) : Nat := sel / 16 % 4

/-- The group's engines run: it is on its core, which is on and not halted. -/
def State.groupRuns (s : State) (g : Group) : Bool :=
  g.here && (match s.core? g.core with | some k => decide (k.power = .on) && decide (k.moving = none) | none => false) && s.coreHolds g

/-- R122: C moves over every command that has completed or been discarded. -/
def advanceC (c : Nat) : List EngCmd → Nat × List EngCmd
  | [] => (c, [])
  | x :: xs => if x.n = c + 1 ∧ x.st = .done then advanceC (c + 1) xs else (c, x :: xs)
def EngCtx.settleC (x : EngCtx) : EngCtx := { x with c := (advanceC x.c x.cmds).1, cmds := (advanceC x.c x.cmds).2 }

/-- R116, R122: accept a command, or wait for the queue; the pair of field d gets its number. -/
def acceptCmd (s : State) (c : Ctx) (sel : Nat) (d : Byte) (mk : EngCmd → EngCmd) : Res :=
  match s.group? c.grp.id with
  | none => .hold s
  | some g =>
    let x := g.eng sel
    if 32 ≤ x.accepted - x.c then c.blocked s []
    else
      let n := x.accepted + 1
      let cmd := mk { n := n, op := .copy, team := c.tid, tword := BitVec.ofNat 32 c.team.teamReg, core := c.core, block := [], before := s.nextId }
      let s := s.modEng c.grp.id sel fun x => { x with accepted := n, cmds := x.cmds ++ [cmd] }
      .done (s.wrG c d [n % 2 ^ 32, n / 2 ^ 32])

/-- The words of a block of g registers. -/
def Ctx.block (c : Ctx) (a : Byte) (n : Nat) : List Word := (List.range n).map fun k => BitVec.ofNat 32 (c.gAt a k)

/-- Word k of a block, as a number. -/
def bw (b : List Word) (k : Nat) : Nat := (b.getD k 0).toNat
/-- R117: LEVEL of a level word, local address word or barrier word. -/
def lvlOf (w : Nat) : Nat := w / 2 ^ 29
/-- R117: OFFSET of a local address word. -/
def offOf (w : Nat) : Nat := w % 2 ^ 29

/-! ### Local locations of engines (R107, R108, R112, R115, R131) -/

/-- A range of a local level for an engine: where it starts, or the kind of R131 it fails with. `stamp` is the mark of a
command's acceptance: one accepted after its member began to leave finds no target (R113). Bits [31:27] of a yard offset
count as bounds, and an offset that an index or a pitch carries past OFFSET names the next member (log 31). -/
def State.engRange (s : State) (g : Group) (lv off n : Nat) (write : Bool) (stamp : Nat := 0) : Except Nat (Space × Nat) :=
  match lv with
  | 1 => if g.ws < off + n then .error 2 else if write ∧ off < 256 ∧ n ≠ 0 then .error 4 else .ok (.win g.id, off)
  | 2 =>
    match s.yardOf g.id with
    | none => .error 5
    | some (y, _) =>
      if off / 2 ^ 27 ≠ 0 then .error 2
      else match y.member (off / 2 ^ 24 % 8) with
        | none => .error 5
        | some m => match s.group? m.group with
          | none => .error 5
          | some h => if h.xb < off % 2 ^ 24 + n then .error 2
            else if m.leaving && decide (m.since < stamp) then .error 5
            else .ok (.win h.id, 256 + off % 2 ^ 24)
  | 3 =>
    match s.ctx? g.asid with
    | none => .error 5
    | some x => if x.loftSize = 0 then .error 5 else if x.loftSize < off + n then .error 2 else .ok (.loft, x.loftBase + off)
  | _ => .error 0

/-- R117: a local address word with a range of n bytes, aligned. -/
def State.engWord (s : State) (g : Group) (w n align : Nat) (write : Bool) (stamp : Nat := 0) : Except Nat (Space × Nat) :=
  if lvlOf w = 0 ∨ 4 ≤ lvlOf w ∨ (lvlOf w = 2 ∧ offOf w / 2 ^ 27 ≠ 0) then .error 0
  else if offOf w % align ≠ 0 then .error 1
  else s.engRange g (lvlOf w) (offOf w) n write stamp

/-! ### Barrier arrivals (R127 to R129) -/

/-- R128: one arrival at an object: its EXPECT, ARRIVED and PHASE words after it. -/
def arriveWords (expect arrived phase : Nat) : Nat × Nat :=
  let a := (arrived + 1) % 2 ^ 32
  if expect ≤ a then (0, Nat.xor phase 1) else (a, phase)

/-- R129: a command of engine e reports to its barrier word: status bits ERR 1, CE 2, UE 4, DISC 8, INV 16. A poisoned object
adds UE and stays poisoned (R107, log 28). -/
def State.report (s : State) (g : Group) (w : Word) (status e : Nat) (stamp : Nat := 0) : State :=
  if w = 0 then s
  else
    match s.engWord g w.toNat 16 16 true stamp with
    | .error _ => s
    | .ok (sp, a) =>
      let status := if s.isPoisoned sp a 16 then Nat.lor status 4 else status
      let st := s.rd sp (a + 12) 4
      let st := min 0xFFFF (st / 65536 + 1) * 65536 + Nat.lor (Nat.lor (st % 65536) status) (2 ^ (8 + e))
      let (arr, ph) := arriveWords (s.rd sp a 4) (s.rd sp (a + 4) 4) (s.rd sp (a + 8) 4)
      s.localWrite sp (cellsOf (a + 4) 4 arr ++ cellsOf (a + 8) 4 ph ++ cellsOf (a + 12) 4 st) (.engine g.core g.id)

/-- R377: the object of a barrier word is there, so that its command can finish. -/
def State.reportThere (s : State) (g : Group) (w : Word) (stamp : Nat := 0) : Bool :=
  w = 0 || (match s.engWord g w.toNat 16 16 true stamp with | .error _ => true | .ok (sp, _) => s.spaceThere sp)

/-- R129: CE of a command. -/
def EngCmd.ceBit (c : EngCmd) : Nat := if c.ce then 2 else 0

/-! ### Errors and QRES (R130 to R132) -/

/-- R130: the offset of an engine's error record. -/
def recordOffset (e : Nat) : Nat := match e with | 0 | 1 => 0 | 2 => 0x40 | 3 => 0x80 | _ => 0xC0

/-- R131: a command fails: its context halts, the record is written, the barrier gets its report. `loc` is the faulting
location where the kind has one. A second started command that fails while the context is halted gives the context its own
code and sets OVER (log 31). -/
def State.engFail (s : State) (gid sel n k : Nat) (loc : Option Nat) (inv : Bool) : State :=
  match s.group? gid with
  | none => s
  | some g =>
    match (g.eng sel).cmd? n with
    | none => s
    | some cmd =>
     if !(s.reportThere g cmd.bar cmd.before) then s
     else
      let e := selEngine sel
      let code := 192 + 8 * e + k
      let s := s.modEng gid sel fun x => { x.modCmd n (fun c => { c with st := .failed, code := code }) with halted := some code }
      let o := recordOffset e
      let w0 := s.rd (.win gid) o 4
      let l := loc.getD (Config.openValue 4 s.nonce % 2 ^ 48)
      let cells := if 2 ^ 31 ≤ w0 then cellsOf o 4 (Nat.lor w0 (2 ^ 30))
        else
          cellsOf o 4 (2 ^ 31 + e * 2 ^ 21 + selQuad sel * 2 ^ 19 + code) ++ cellsOf (o + 4) 4 cmd.moved ++ cellsOf (o + 8) 8 n ++
          (List.range 8).flatMap (fun i => cellsOf (o + 16 + 4 * i) 4 (bw cmd.block i)) ++
          cellsOf (o + 0x30) 4 (l % 2 ^ 32) ++ cellsOf (o + 0x34) 4 (l / 2 ^ 32 % 65536) ++ cellsOf (o + 0x38) 4 cmd.tword.toNat ++
          cellsOf (o + 0x3C) 4 0
      (s.localWrite (.win gid) cells (.engine g.core gid)).report g cmd.bar
        (1 + cmd.ceBit + (if k = 6 then 4 else 0) + if inv then 16 else 0) e cmd.before

/-- R129, R122: a command that has moved everything completes and reports; it waits while its barrier object is away (R377). -/
def State.engDone (s : State) (gid sel n status : Nat) : State :=
  match s.group? gid with
  | none => s
  | some g =>
    match (g.eng sel).cmd? n with
    | none => s
    | some cmd =>
      if !(s.reportThere g cmd.bar cmd.before) then s
      else (s.report g cmd.bar (status + cmd.ceBit) (selEngine sel) cmd.before).modEng gid sel fun x => (x.modCmd n fun c => { c with st := .done }).settleC

/-- R113, R225: the mark up to which a command finds a leaving member: its acceptance, or, for a matrix command, what it meets
now. -/
def EngCmd.stamp (c : EngCmd) (now : Nat) : Nat :=
  match c.op with
  | .mloop | .mlda | .msta | .macc => now
  | _ => c.before

/-- R214: the slots a matrix command names, and those it writes. -/
def EngCmd.slots (c : EngCmd) : List Nat :=
  match c.op with
  | .mloop | .mlda | .msta => tileSlots c.desc.toNat
  | .macc => tileSlots c.desc.toNat ++ tileSlots c.desc2.toNat
  | _ => []
def EngCmd.targets (c : EngCmd) : List Nat :=
  match c.op with
  | .mloop | .mlda | .macc => tileSlots c.desc.toNat
  | _ => []

/-- R231: the retry of a command clears INV on the slots it writes, unless its own failure was of kind 6. -/
def Group.retryInv (g : Group) (sel : Nat) : Group :=
  if selEngine sel = 2 then
    let failed (six : Bool) : List Nat :=
      ((g.eng sel).cmds.filter fun c => decide (c.st = CmdSt.failed) && (decide (c.code % 8 = 6) == six)).flatMap EngCmd.targets
    { g with inv := g.inv.filter fun x => !((failed false).contains x) || (failed true).contains x }
  else g

/-- R132: QRES. -/
def State.qres (s : State) (gid sel mode : Nat) : State :=
  match s.group? gid with
  | none => s
  | some g =>
    match (g.eng sel).halted with
    | none => s
    | some _ =>
      let o := recordOffset (selEngine sel)
      let w0 := s.rd (.win gid) o 4
      let names := decide (w0 / 2 ^ 21 % 8 = selEngine sel) && (decide (selEngine sel ≠ 2) || decide (w0 / 2 ^ 19 % 4 = selQuad sel))
      let s := if names then s.localWrite (.win gid) (cellsOf o 4 (w0 % 2 ^ 30)) (.engine g.core gid) else s
      let s := if mode = 2 then s.modGroup gid fun g => g.retryInv sel else s
      s.modEng gid sel fun x =>
        { x with
          halted := none
          cmds := x.cmds.map fun (c : EngCmd) =>
            if c.st = CmdSt.failed then
              if mode = 2 then { c with st := .queued, gs := 0, ruled := none, again := max c.again c.progress, progress := if c.op = CmdOp.mloop then c.progress else 0, moved := 0, pend := [], buf := [], idx := [], ce := false, ahead := [], rays := if c.op = CmdOp.rast then [] else c.rays }
              else { c with st := .done }
            else if (mode = 1 ∨ mode = 3) ∧ c.st = CmdSt.queued then { c with st := .done }
            else c }.settleC

def execQres (o : FE) (s : State) : Host.Outcome State Fault Refusal := issue (.qres o) s fun s c =>
  .done (s.qres c.grp.id o.d.toNat (c.g o.a % 4))

/-! ### COPY to COLL: acceptance (R117 to R119) -/

/-- R113: the yard members that local address words name. -/
def yardTargets (ws : List Nat) : List Nat :=
  ((ws.filter fun w => decide (lvlOf w = 2)).map fun w => w / 2 ^ 24 % 8).eraseDups

/-- R117: the records of words +0 and +2, as they stand at issue. -/
def Ctx.blockRecs (c : Ctx) (b : List Word) : List (Nat × BufRec) :=
  [0, 2].filterMap fun k => if lvlOf (bw b k) = 0 then some (k, BitVec.ofNat 128 (c.rd .b (bw b k / 2 ^ 24 % 32) 0)) else none

/-- A copy command is accepted. -/
def acceptCopy (s : State) (c : Ctx) (o : FE) (op : CmdOp) : Res :=
  let b := c.block o.a 8
  let y (k : Nat) : List Nat := if lvlOf (bw b k) = 2 then [bw b (k + 1) / 2 ^ 24 % 8] else []
  acceptCmd s c 0 o.d fun x =>
    { x with op := op, block := b, recs := c.blockRecs b, gs := o.gs.toNat, bar := b.getD 7 0,
             yard := (y 0 ++ y 2 ++ yardTargets ([bw b 7] ++ if op = .gather ∨ op = .scatter then [bw b 5] else [])).eraseDups }

def execCopy (o : FE) (s : State) : Host.Outcome State Fault Refusal := issue (.copy o) s fun s c =>
  acceptCopy s c o .copy
def execCopy2d (o : FE) (s : State) : Host.Outcome State Fault Refusal := issue (.copy2d o) s fun s c =>
  acceptCopy s c o .copy2d
def execGather (o : FE) (s : State) : Host.Outcome State Fault Refusal := issue (.gather o) s fun s c =>
  acceptCopy s c o .gather
def execScatter (o : FE) (s : State) : Host.Outcome State Fault Refusal := issue (.scatter o) s fun s c =>
  acceptCopy s c o .scatter
def execColl (o : FE) (s : State) : Host.Outcome State Fault Refusal := issue (.coll o) s fun s c =>
  let b := c.block o.a 8
  acceptCmd s c 1 o.d fun x =>
    { x with op := .coll, block := b, gs := o.gs.toNat, bar := b.getD 7 0,
             yard := (bitsBelow (b.getD 1 0) 8 ++ yardTargets [bw b 7]).eraseDups }

/-! ### What a copy command moves (R118) -/

/-- R118: the units of 4 bytes a command moves. -/
def copyTotal (cmd : EngCmd) : Nat :=
  let w := bw cmd.block 4
  match cmd.op with
  | .copy => w / 4
  | .copy2d => w % 65536 / 4 * (w / 65536)
  | _ => w % 65536 / 4 * (w / 65536)

/-- R118: the source and destination offsets of unit k. -/
def copyUnit (cmd : EngCmd) (k : Nat) : Nat × Nat :=
  let b := cmd.block
  let per := bw b 4 % 65536 / 4
  match cmd.op with
  | .copy => (bw b 1 + 4 * k, bw b 3 + 4 * k)
  | .copy2d => (bw b 1 + k / per * bw b 5 + 4 * (k % per), bw b 3 + k / per * bw b 6 + 4 * (k % per))
  | .gather => (bw b 1 + cmd.idx.getD (k / per) 0 * (4 * per) + 4 * (k % per), bw b 3 + k / per * (4 * per) + 4 * (k % per))
  | _ => (bw b 1 + k / per * (4 * per) + 4 * (k % per), bw b 3 + cmd.idx.getD (k / per) 0 * (4 * per) + 4 * (k % per))

/-- R118: the pieces a command moves: source offset, destination offset, bytes. -/
def copyPieces (cmd : EngCmd) : List (Nat × Nat × Nat) :=
  let b := cmd.block
  let es := bw b 4 % 65536
  let cnt := bw b 4 / 65536
  match cmd.op with
  | .copy => if bw b 4 = 0 then [] else [(bw b 1, bw b 3, bw b 4)]
  | .copy2d => if es = 0 then [] else (List.range cnt).map fun r => (bw b 1 + r * bw b 5, bw b 3 + r * bw b 6, es)
  | .gather => cmd.idx.zipIdx.map fun p => (bw b 1 + p.1 * es, bw b 3 + p.2 * es, es)
  | _ => cmd.idx.zipIdx.map fun p => (bw b 1 + p.2 * es, bw b 3 + p.1 * es, es)

/-! ### Checks before a command moves (R131) -/

/-- A check that fails: its kind and, where it has one, its location. -/
abbrev Fails := List (Nat × Option Nat)
def failIf (b : Bool) (k : Nat) (loc : Option Nat := none) : Fails := if b then [(k, loc)] else []

/-- R131: the first kind met. -/
def firstFail (l : Fails) : Option (Nat × Option Nat) :=
  (List.range 8).findSome? fun k => l.find? fun f => decide (f.1 = k)

/-- The location R130 reports for a side's offset. -/
def sideLoc (cmd : EngCmd) (k off : Nat) : Nat :=
  if lvlOf (bw cmd.block k) = 0 then
    match cmd.recs.find? fun r => decide (r.1 = k) with | some (_, r) => (bufBase r + off) % 2 ^ 48 | none => off
  else off

/-- R117: one side of a piece. -/
def State.sideFails (s : State) (g : Group) (cmd : EngCmd) (k off n : Nat) (write : Bool) : Fails :=
  let lv := lvlOf (bw cmd.block k)
  if lv = 0 then
    match cmd.recs.find? fun r => decide (r.1 = k) with
    | none => [(3, none)]
    | some (_, r) =>
      if bufInvalid r || decide (bufKind r ≠ 0) || decide (bufSwz r ≠ 0) || (write && !bufW r) then [(3, none)]
      else failIf (decide (bufExtent r * bufS r < off + n)) 2 (some ((bufBase r + off) % 2 ^ 48))
  else match s.engRange g lv off n write cmd.before with
    | .error e => [(e, some off)]
    | .ok _ => []

/-- R117: a barrier word. -/
def State.barFails (s : State) (g : Group) (w : Word) (stamp : Nat := 0) : Fails :=
  if w = 0 then [] else match s.engWord g w.toNat 16 16 true stamp with
    | .error e => [(e, some (offOf w.toNat))]
    | .ok _ => []

/-- R117, R118: the block's own fields. A length over 16 MiB counts as a reserved value (log 31). -/
def copyFieldFails (cmd : EngCmd) : Fails :=
  let b := cmd.block
  let es := bw b 4 % 65536
  let lvWord (k : Nat) : Bool := decide (4 ≤ lvlOf (bw b k)) || decide (bw b k % 2 ^ 24 ≠ 0) || (decide (lvlOf (bw b k) ≠ 0) && decide (bw b k / 2 ^ 24 % 32 ≠ 0))
  let gs := decide (cmd.op = .gather ∨ cmd.op = .scatter)
  let misplaced (n : Nat) : Fails :=
    failIf (decide (bw b 1 % n ≠ 0)) 1 (some (sideLoc cmd 0 (bw b 1))) ++ failIf (decide (bw b 3 % n ≠ 0)) 1 (some (sideLoc cmd 2 (bw b 3)))
  failIf (lvWord 0 || lvWord 2) 0 ++
  (match cmd.op with
    | .copy => failIf (decide (2 ^ 24 < bw b 4 ∨ bw b 5 ≠ 0 ∨ bw b 6 ≠ 0)) 0 ++ misplaced 4 ++ failIf (decide (bw b 4 % 4 ≠ 0)) 1
    | .copy2d => misplaced 4 ++ failIf (decide (es % 4 ≠ 0 ∨ bw b 5 % 4 ≠ 0 ∨ bw b 6 % 4 ≠ 0)) 1
    | _ => failIf (gs && decide ((es ≠ 4 ∧ es ≠ 8 ∧ es ≠ 16) ∨ bw b 6 ≠ 0)) 0 ++
        if gs && (es = 4 || es = 8 || es = 16) then misplaced es else [])

/-- The n bytes of a unit that lies in one piece. -/
def bytesAt (a n : Nat) : List Nat := (List.range n).map (a + ·)
/-- R257, R286: the value read of a unit whose bytes lie at some addresses, with the bytes that had been read ahead. -/
def overlayAhead (l : List Ahead) (sp : Space) (as : List Nat) (x : Nat) : Nat :=
  if l = [] then x
  else as.zipIdx.foldl (fun v p =>
    v + (match l.find? fun q => decide (q.space = sp) && decide (q.addr ≤ p.1) && decide (p.1 < q.addr + q.n) with
      | some q => q.value / 256 ^ (p.1 - q.addr) % 256
      | none => x / 256 ^ p.2 % 256) * 256 ^ p.2) 0
/-- R286: what has been read ahead and is not used by a unit. -/
def dropAhead (l : List Ahead) (sp : Space) (as : List Nat) : List Ahead :=
  l.filter fun q => !(decide (q.space = sp) && as.any fun a => decide (q.addr ≤ a) && decide (a < q.addr + q.n))

/-- R118: the index list of GATHER or SCATTER: its words, or how it fails; a poisoned list is kind 6. A list of no words lies
nowhere. -/
def State.indexList (s : State) (g : Group) (cmd : EngCmd) : Except (Nat × Option Nat) (List Nat) :=
  if cmd.op = .gather ∨ cmd.op = .scatter then
    let cnt := bw cmd.block 4 / 65536
    match s.engWord g (bw cmd.block 5) (4 * cnt) 4 false cmd.before with
    | .error e => if cnt = 0 ∧ 2 ≤ e then .ok [] else .error (e, some (offOf (bw cmd.block 5)))
    | .ok (sp, a) =>
      if s.isPoisoned sp a (4 * cnt) then .error (6, some (offOf (bw cmd.block 5)))
      else .ok ((List.range cnt).map fun i => overlayAhead cmd.ahead sp (bytesAt (a + 4 * i) 4) (s.rd sp (a + 4 * i) 4))
  else .ok []

/-- R131: kinds 0 to 5 of a copy command, with its index list. Where the list cannot be read the side that its indices are for is
checked for what does not depend on them: its record and its level. -/
def State.checkCopy (s : State) (g : Group) (cmd : EngCmd) : Fails × List Nat :=
  let f := copyFieldFails cmd ++ s.barFails g cmd.bar cmd.before
  let bare (k off : Nat) (write : Bool) : Fails := (s.sideFails g cmd k off 0 write).filter fun x => decide (x.1 ≠ 2)
  if f.any fun x => decide (x.1 ≤ 1) then (f ++ (match s.indexList g cmd with | .error e => [e] | .ok _ => []), [])
  else
    let es := bw cmd.block 4 % 65536 * (bw cmd.block 4 / 65536)
    match s.indexList g cmd with
    | .error e => (f ++ e :: (if cmd.op = .gather then s.sideFails g cmd 2 (bw cmd.block 3) es true ++ bare 0 (bw cmd.block 1) false
        else s.sideFails g cmd 0 (bw cmd.block 1) es false ++ bare 2 (bw cmd.block 3) true), [])
    | .ok idx =>
      (f ++ (copyPieces { cmd with idx := idx }).flatMap fun p => s.sideFails g cmd 0 p.1 p.2.2 false ++ s.sideFails g cmd 2 p.2.1 p.2.2 true, idx)

/-- R119: the fields and targets of COLL. A length over 1 MiB counts as a reserved value (log 31). -/
def State.checkColl (s : State) (g : Group) (cmd : EngCmd) : Fails :=
  let b := cmd.block
  let w := bw b 0
  let ty := w / 256 % 16
  let red := w / 16 % 16
  let op := w % 4
  let root := w / 4096 % 8
  let ms := bitsBelow (b.getD 1 0) 8
  -- the yard address of a side of the first member it concerns
  let at' (k : Nat) : Nat := (if (k = 2 ∧ op = 0) ∨ (k = 3 ∧ op = 1) then root else ms.headD 0) * 2 ^ 24 + bw b k
  let side (i off : Nat) (write : Bool) : Fails := match s.engRange g 2 (i * 2 ^ 24 + off) (bw b 4) write cmd.before with
    | .error e => [(e, some (i * 2 ^ 24 + off))]
    | .ok _ => []
  failIf (decide (w / 65536 ≠ 0 ∨ w / 4 % 4 ≠ 0 ∨ (ty ≠ 0 ∧ ty ≠ 1 ∧ ty ≠ 2 ∧ ty ≠ 6) ∨ 5 < red ∨ op = 3 ∨ 256 ≤ bw b 1 ∨
    bw b 5 ≠ 0 ∨ bw b 6 ≠ 0 ∨ 2 ^ 20 < bw b 4 ∨ (3 ≤ red ∧ (ty = 2 ∨ ty = 6)))) 0 ++
  failIf (decide (bw b 2 % 4 ≠ 0)) 1 (some (at' 2)) ++ failIf (decide (bw b 3 % 4 ≠ 0)) 1 (some (at' 3)) ++ failIf (decide (bw b 4 % 4 ≠ 0)) 1 ++
  failIf (!(ms.contains root)) 5 ++ failIf (decide (2 ^ 24 ≤ bw b 2)) 2 (some (at' 2)) ++ failIf (decide (2 ^ 24 ≤ bw b 3)) 2 (some (at' 3)) ++
  (ms.flatMap fun i => (if op = 0 ∧ i ≠ root then [] else side i (bw b 2 % 2 ^ 24) false) ++
    (if op = 1 ∧ i ≠ root then [] else side i (bw b 3 % 2 ^ 24) true)) ++
  s.barFails g cmd.bar cmd.before

/-! ### Starting (R120, R124) -/

/-- R120: the access paths that reach a level. -/
def lvlPaths (lv : Nat) : List Nat := match lv with | 0 => [0, 1, 6, 7] | 1 => [2, 7] | 2 => [3, 7] | _ => [4, 7]
/-- R120, R129: those of the object that a barrier word names. -/
def barPaths (w : Word) : List Nat := if w = 0 then [] else lvlPaths (lvlOf w.toNat)
/-- The paths of the levels a command reads or writes. -/
def copyPaths (cmd : EngCmd) : List Nat :=
  barPaths cmd.bar ++
  match cmd.op with
  | .coll => lvlPaths 2
  | .gather | .scatter => lvlPaths (lvlOf (bw cmd.block 0)) ++ lvlPaths (lvlOf (bw cmd.block 2)) ++ lvlPaths (lvlOf (bw cmd.block 5))
  | _ => lvlPaths (lvlOf (bw cmd.block 0)) ++ lvlPaths (lvlOf (bw cmd.block 2))

/-- R120 rule 1: the team's earlier accesses on these paths have been performed. -/
def State.priorDone (s : State) (cmd : EngCmd) (paths : List Nat) : Bool :=
  s.flights.all fun f => !(decide (f.team = cmd.team) && decide (f.id < cmd.before) && paths.contains f.path) || f.performed

/-- R120 rule 2, R121: the command at the head of the queue, when the context may start one. -/
def EngCtx.head (x : EngCtx) : Option EngCmd :=
  if x.halted.isSome || x.cmds.any fun c => decide (c.st = .parked) then none
  else x.cmds.find? fun c => decide (c.st = .queued)

/-- R124: the value of a guard slot. -/
def Group.guard (g : Group) (gs : Nat) : GuardSt := if gs = 0 then .yes else sget .pending g.guards gs
/-- R124: the value that a command acts on: what its slot held while it stood at the queue head, or holds. -/
def Group.ruling (g : Group) (cmd : EngCmd) : GuardSt :=
  match cmd.ruled with | some true => .yes | some false => .no | none => g.guard cmd.gs
/-- R124: the command at a queue head meets a resolved slot. -/
def Group.meetGuards (g : Group) : Group :=
  let meet (x : EngCtx) : EngCtx :=
    match x.cmds.find? fun c => decide (c.st = .queued) with
    | some c => (match g.ruling c with
      | .pending => x
      | v => x.modCmd c.n fun c => { c with ruled := some (decide (v = .yes)) })
    | none => x
  { g with engs := g.engs.map fun e => (e.1, meet e.2) }

/-- R124: a discarded command completes and arrives with DISC. -/
def State.engDiscard (s : State) (gid sel n : Nat) : State := s.engDone gid sel n 8

/-- R377: the index list of a command does not lie in an export that is away. -/
def State.indexThere (s : State) (g : Group) (cmd : EngCmd) : Bool :=
  !(decide (cmd.op = .gather ∨ cmd.op = .scatter)) ||
  (match s.engWord g (bw cmd.block 5) (4 * (bw cmd.block 4 / 65536)) 4 false cmd.before with
    | .ok (sp, _) => s.spaceThere sp
    | .error _ => true)

/-- ENGINE_COMMAND_START of the copy and collective engines. -/
def State.startCopy (s : State) (gid sel : Nat) : State :=
  match s.group? gid with
  | none => s
  | some g =>
    if !(s.groupRuns g) then s
    else match (g.eng sel).head with
      | none => s
      | some cmd =>
        match g.ruling cmd with
        | .pending => s
        | .no => s.engDiscard gid sel cmd.n
        | .yes =>
          if !(s.priorDone cmd (copyPaths cmd)) || !(s.indexThere g cmd) then s
          else
            let (f, idx) := if cmd.op = .coll then (s.checkColl g cmd, []) else s.checkCopy g cmd
            match firstFail f with
            | some (k, loc) => s.engFail gid sel cmd.n k loc false
            | none => s.modCmd gid sel cmd.n fun c => { c with st := .started, idx := idx, ahead := [] }

/-! ### Moving data (R117, R118, R120 rule 3, R121) -/

/-- What reading or writing one unit gives. -/
inductive UnitR where
  | busy
  | parked (va : Nat)
  | fail (k : Nat)
  | dead (code : Nat)
  /-- the value (before a write), and where its bytes lie -/
  | ok (sp : Space) (at' : List Nat) (x : Nat)
  deriving DecidableEq, Repr

/-- One aligned unit of n bytes where it lies, for an engine of a core: its value (before a write). A unit that is compared and
replaced (`rmw`) is reached where an atomic is performed (R147). -/
def State.unitAt (s : State) (core gid : Nat) (sp : Space) (a cc : Nat) (pte : Option Nat) (write : Option Nat) (n : Nat := 4)
    (rmw : Bool := false) (who : Asker := .passing) : State × UnitR :=
  let away := match sp with | .win g => (match s.group? g with | some x => !x.here | none => true) | _ => false
  let f : Flight := { id := 0, team := 0, split := 0, path := 0, kind := if rmw then .atomic 6 0 else if write.isSome then .store else .load 4, n := n, core := core }
  let r : LineReq := { space := sp, line := a / 64, cc := cc, lanes := [{ lane := 0, off := a % 64 }] }
  if away then (s, .busy)
  else
    let (s, ok, p) := s.prepare core f r who
    if !ok then (s, .busy)
    else
      let (x, bad) := s.placeRd p (a / 64) (a % 64) n
      match write with
      | none => if bad then (s.unclaim who, .fail 6) else (s.unclaim who, .ok sp (bytesAt a n) x)
      | some y =>
        let (s, ok) := match pte with
          | some e => (let (s, ok) := s.pteOr e 11 who; (s.markDirty e, ok))
          | none => (s, true)
        if !ok then (s, .busy) else ((s.placeWr p (a / 64) (a % 64) n y (.engine core gid)).unclaim who, .ok sp (bytesAt a n) x)

/-- R91, R121: how a line that is not there, or not open to the command, leaves a unit. -/
def LineT.stops (t : LineT) (va : Nat) : UnitR :=
  match t with
  | .busy => .busy
  | .absent => .parked va
  | .alien => .dead 342
  | _ => .fail 4

/-- One aligned unit at a virtual address, as a load or store of path 0 or 1 of the group's context. -/
def State.unitAligned (s : State) (g : Group) (va : Nat) (write : Option Nat) (n : Nat) (rmw : Bool := false) (who : Asker := .passing) :
    State × UnitR :=
  match s.lineOf (some g.core) g.asid va { r := write.isNone || rmw, w := write.isSome || rmw } with
  | (s, .ok cc line pte) => s.unitAt g.core g.id .glob (line * 64 + va % 64) cc (some pte) write n rmw who
  | (s, t) => (s, t.stops va)

/-- One unit at a virtual address; one that a record's base puts across two aligned words is moved in two parts. -/
def State.unitGlobal (s : State) (g : Group) (va : Nat) (write : Option Nat) (n : Nat := 4) (rmw : Bool := false) (who : Asker := .passing) :
    State × UnitR :=
  let r := va % n
  if r = 0 then s.unitAligned g va write n rmw who
  else
    let k := n - r
    let vb := (va + k) % 2 ^ 48
    -- the second part is there before the first is written
    match s.lineOf (some g.core) g.asid vb { r := write.isNone || rmw, w := write.isSome || rmw } with
    | (s, .ok _ _ _) =>
      (match s.unitAligned g va (write.map (· % 256 ^ k)) k rmw who with
        | (s, .ok sp as x) =>
          (match s.unitAligned g vb (write.map (· / 256 ^ k)) r rmw who with
            | (s, .ok _ bs y) => (s, .ok sp (as ++ bs) (x + y * 256 ^ k))
            | q => q)
        | q => q)
    | (s, t) => (s, t.stops vb)

/-- One unit of a local level. -/
def State.unitLocal (s : State) (g : Group) (lv off : Nat) (write : Option Nat) (n : Nat := 4) (stamp : Nat := 0) : State × UnitR :=
  match s.engRange g lv off n write.isSome stamp with
  | .error k => (s, .fail k)
  | .ok (sp, a) => s.unitAt g.core g.id sp a 0 none write n

/-- One unit of a side of a copy command. -/
def State.unitSide (s : State) (g : Group) (cmd : EngCmd) (k off : Nat) (write : Option Nat) : State × UnitR :=
  if lvlOf (bw cmd.block k) = 0 then
    match cmd.recs.find? fun r => decide (r.1 = k) with
    | some (_, r) => s.unitGlobal g ((bufBase r + off) % 2 ^ 48) write (who := .unit g.id 0 cmd.n)
    | none => (s, .fail 3)
  else s.unitLocal g (lvlOf (bw cmd.block k)) off write

/-- R121, R387: the command parks and the host is asked. -/
def State.engPark (s : State) (g : Group) (sel n va path : Nat) (write : Bool) : State :=
  -- R232: a matrix command fetches the operands of its step anew
  (s.modCmd g.id sel n fun c => { c with st := .parked, va := va / 64 * 64, ahead := if selEngine sel = 2 then [] else c.ahead }).reportFault
    ⟨.engine g.id sel n, g.asid, va / 64 * 64, path, write, BitVec.ofNat 32 (2 ^ 31 + g.core * 2 ^ 22 + sel)⟩

/-- R120 rule 3: a later-accepted command of the context has written the byte. -/
def EngCtx.laterWrote (x : EngCtx) (n : Nat) (sp : Space) (a : Nat) : Bool :=
  x.cmds.any fun c => decide (n < c.n) && c.buf.any fun b => decide (b.1 = sp ∧ b.2.1 = a)
/-- R120 rule 3: what a command leaves in a unit: the bytes of later-accepted writes stay. -/
def EngCtx.merge (x : EngCtx) (n : Nat) (sp : Space) (as : List Nat) (old new : Nat) : Nat :=
  as.zipIdx.foldl (fun v p => v + (if x.laterWrote n sp p.1 then old else new) / 256 ^ p.2 % 256 * 256 ^ p.2) 0
/-- The bytes of a unit that a command writes, with what they held. -/
def EngCtx.wrote (x : EngCtx) (n : Nat) (sp : Space) (as : List Nat) (old : Nat) (buf : List (Space × Nat × Byte)) : List (Space × Nat × Byte) :=
  buf ++ (as.zipIdx.filter fun p => !(x.laterWrote n sp p.1) && !(buf.any fun b => decide (b.1 = sp ∧ b.2.1 = p.1))).map fun p => (sp, p.1, byteOf old p.2)

/-- How a unit that did not succeed leaves the command. -/
def State.unitStops (s : State) (g : Group) (sel n : Nat) (r : UnitR) (loc path : Nat) : State :=
  match r with
  | .parked va => s.engPark g sel n va path (decide (path = 1))
  | .fail k => s.engFail g.id sel n k (some loc) false
  | .dead code => s.groupPath g.id code 0 true true
  | _ => s

/-- Write a unit: the bytes where a later command's write stands keep it (R120 rule 3); what the others held is remembered. -/
def State.writeOver (s : State) (g : Group) (sel : Nat) (cmd : EngCmd) (w : Nat) (done : EngCmd → EngCmd)
    (access : State → Nat → State × UnitR) (stops : State → UnitR → State) : State :=
  let x := g.eng sel
  match access s w with
  | (s', .ok sp as old) =>
    if as.all fun a => x.laterWrote cmd.n sp a then s.modCmd g.id sel cmd.n done
    else
      let s' := if as.any fun a => x.laterWrote cmd.n sp a then (access s (x.merge cmd.n sp as old w)).1 else s'
      s'.modCmd g.id sel cmd.n fun c => done { c with buf := x.wrote cmd.n sp as old c.buf }
  | (s', r) => stops s' r

/-- Write one pending unit of a copy or collective command. -/
def State.engWrite (s : State) (g : Group) (sel : Nat) (cmd : EngCmd) (loc w : Nat) (done : EngCmd → EngCmd)
    (access : State → Nat → State × UnitR) : State :=
  s.writeOver g sel cmd w done access fun s r => s.unitStops g sel cmd.n r loc 1

/-- R118: what the source unit held before this command wrote there, byte by byte. -/
def EngCmd.before? (cmd : EngCmd) (sp : Space) (as : List Nat) (x : Nat) : Nat :=
  if cmd.buf = [] then x
  else as.zipIdx.foldl (fun v p =>
    v + (match cmd.buf.find? fun b => decide (b.1 = sp ∧ b.2.1 = p.1) with
      | some (_, _, w) => w.toNat
      | none => x / 256 ^ p.2 % 256) * 256 ^ p.2) 0

/-- R118: one step of a started copy command: a unit is read, or the unit read is written. -/
def State.copyStep (s : State) (g : Group) (sel : Nat) (cmd : EngCmd) : State :=
  match cmd.pend with
  | (_, off, w) :: rest =>
    s.engWrite g sel cmd (sideLoc cmd 2 off) w.toNat (fun c => { c with pend := rest, progress := c.progress + 1, moved := c.moved + 4 })
      fun s x => s.unitSide g cmd 2 off (some x)
  | [] =>
    if copyTotal cmd ≤ cmd.progress then s
    else
      let (so, d) := copyUnit cmd cmd.progress
      match s.unitSide g cmd 0 so none with
      | (s, .ok sp as x) => s.modCmd g.id sel cmd.n fun c =>
          { c with pend := [(0, d, BitVec.ofNat 32 (cmd.before? sp as (overlayAhead cmd.ahead sp as x)))], ahead := dropAhead c.ahead sp as }
      | (s, r) => s.unitStops g sel cmd.n r (sideLoc cmd 0 so) 0

/-! ### COLL (R119) -/

/-- R119: op on two units; the Bool says that an integer sum saturated. -/
def collOp (ty red : Nat) (sat : Bool) (x y : Nat) : Nat × Bool :=
  match ty with
  | 2 => (atomFloat f32 red x y, false)
  | 6 => (atomFloat bf16 red (x % 65536) (y % 65536) + 65536 * atomFloat bf16 red (x / 65536) (y / 65536), false)
  | _ =>
    let sg := decide (ty = 0)
    match red with
    | 0 =>
      let r := intOf sg 32 x + intOf sg 32 y
      let v := if sat then max (if sg then -2147483648 else 0) (min r (if sg then 2147483647 else 4294967295)) else r
      (wrapInt 32 v, sat && decide (v ≠ r))
    | 1 => (if intOf sg 32 y < intOf sg 32 x then y else x, false)
    | 2 => (if intOf sg 32 x < intOf sg 32 y then y else x, false)
    | 3 => (Nat.land x y, false)
    | 4 => (Nat.lor x y, false)
    | _ => (Nat.xor x y, false)

/-- Read the same unit of several members' exports: each value and where it lies. -/
def State.collRead (s : State) (g : Group) (ahead : List Ahead) (off : Nat) : List Nat → Except (State × UnitR × Nat) (List (Nat × Space × List Nat))
  | [] => .ok []
  | i :: is =>
    match s.unitLocal g 2 (i * 2 ^ 24 + off) none with
    | (_, .ok sp as x) => (match s.collRead g ahead off is with | .ok xs => .ok ((overlayAhead ahead sp as x, sp, as) :: xs) | e => e)
    | (s, r) => .error (s, r, i * 2 ^ 24 + off)

/-- R119: one step of a started COLL: a unit is read and combined, or, its chunk of 64 bytes read, a result is written. -/
def State.collStep (s : State) (g : Group) (sel : Nat) (cmd : EngCmd) : State :=
  let b := cmd.block
  let w := bw b 0
  let op := w % 4
  let root := w / 4096 % 8
  let ms := bitsBelow (b.getD 1 0) 8
  let total := bw b 4 / 4
  let u := cmd.progress
  let read : State :=
    match s.collRead g cmd.ahead (bw b 2 + 4 * u) (if op = 0 then [root] else ms) with
    | .error (s, r, loc) => s.unitStops g sel cmd.n r loc 0
    | .ok xs =>
      let (acc, sat) := (xs.tail.map (·.1)).foldl (fun (a : Nat × Bool) x =>
        let (v, q) := collOp (w / 256 % 16) (w / 16 % 16) (w.testBit 15) a.1 x
        (v, a.2 || q)) ((xs.map (·.1)).headD 0, false)
      let s := if sat then s.modTeam cmd.team fun t => t.stick 32 else s
      s.modCmd g.id sel cmd.n fun c => { c with
        progress := u + 1
        ahead := xs.foldl (fun l x => dropAhead l x.2.1 x.2.2) c.ahead
        pend := c.pend ++ (if op = 1 then [root] else ms).map fun i => (i, bw b 3 + 4 * u, BitVec.ofNat 32 acc) }
  match cmd.pend with
  | (i, off, x) :: rest =>
    if u % 16 = 0 ∨ u = total then
      s.engWrite g sel cmd (i * 2 ^ 24 + off) x.toNat (fun c => { c with pend := rest, moved := if rest = [] then 4 * u else c.moved })
        fun s x => s.unitLocal g 2 (i * 2 ^ 24 + off) (some x)
    else read
  | [] => if u < total then read else s

/-- ENGINE_TRANSFER of the copy and collective engines. -/
def State.transferUnit (s : State) (gid sel n : Nat) : State :=
  match s.group? gid with
  | none => s
  | some g =>
    match (g.eng sel).cmd? n with
    | none => s
    | some cmd =>
      if !(s.groupRuns g) || decide (cmd.st ≠ .started) then s
      else if cmd.op = .coll then s.collStep g sel cmd
      else s.copyStep g sel cmd

/-- A copy or collective command has moved all its data. -/
def EngCmd.moved? (cmd : EngCmd) : Bool :=
  decide (cmd.st = .started) && decide (cmd.pend = []) &&
  decide ((if cmd.op = .coll then bw cmd.block 4 / 4 else copyTotal cmd) ≤ cmd.progress)

/-! ### Waits and guards (R123 to R126) -/

/-- R359: CAUSE.DETAIL of an engine code. -/
def engDetail (sel : Nat) : Nat := selEngine sel + selQuad sel * 16

/-- R123: WAITT on a context. -/
def waitTimeline (s : State) (c : Ctx) (sel n : Nat) : Res :=
  match s.group? c.grp.id with
  | none => .hold s
  | some g =>
    let x := g.eng sel
    if x.accepted < n then .trap s (192 + 8 * selEngine sel + 7) (engDetail sel) c.act false
    else if n ≤ x.c then .done (s.splitAcquires c.tid c.uid 5)
    else match x.halted with
      | some code => .trap s code (engDetail sel) c.act false
      | none => c.blocked s [sel, n]

def execWaitt (o : FE) (s : State) : Host.Outcome State Fault Refusal := issue (.waitt o) s fun s c =>
  waitTimeline s c o.d.toNat ((c.asIssued [o.d.toNat, c.gAt o.a 0 + c.gAt o.a 1 * 2 ^ 32]).getD 1 0)

/-- R123: TLGET. -/
def execTlget (o : FE) (s : State) : Host.Outcome State Fault Refusal := issue (.tlget o) s fun s c =>
  match s.group? c.grp.id with
  | none => .hold s
  | some g =>
    let x := g.eng o.a.toNat
    let held := match x.cmds.find? fun q => decide (q.st = .queued) with
      | some q => if g.ruling q = .pending then q.gs * 16 + 2 else 0
      | none => 0
    .done (s.wrG c o.d [x.c % 2 ^ 32, x.c / 2 ^ 32, x.accepted - x.c, held + if x.halted.isSome then 1 else 0])

def execWaitp (o : FE) (s : State) : Host.Outcome State Fault Refusal := issue (.waitp o) s fun s c =>
  let limit := (c.asIssued [c.g o.a]).headD 0
  if s.counter c.tid o.d.toNat ≤ limit then
    let counted := (s.flights.filter fun f => decide (f.team = c.tid) && decide (f.path = o.d.toNat)).map (·.id)
    .done (s.modTeam c.tid fun t => t.settlePath c.uid o.d.toNat counted)
  else c.blocked s [limit]

/-- R124: GRES. -/
def guardValue (x : Nat) : GuardSt := match x % 4 with | 0 => .no | 1 => .yes | _ => .pending
def execGres (o : FE) (s : State) : Host.Outcome State Fault Refusal := issue (.gres o) s fun s c =>
  .done (s.modGroup c.grp.id fun g => { g.meetGuards with guards := sset .pending g.guards o.gs.toNat (guardValue (c.g o.a)) })

/-! ### Barrier instructions (R128) -/

/-- R128: the level of an object's address word. -/
def barLevel (w : Nat) : Option Level := match lvlOf w with | 1 => some .win | 2 => some .yard | 3 => some .loft | _ => none

/-- R139, R377: the split's earlier accesses to a line have been performed, and its member is there. -/
def State.lineClear (s : State) (c : Ctx) (sp : Space) (line : Nat) : Bool :=
  (s.flights.all fun f => !(s.ofSplit c.tid c.uid f && f.wants sp line)) &&
  s.spaceThere sp

/-- R128: the scope of an object's level. -/
def Level.scope : Level → Nat
  | .win => 2
  | .yard => 4
  | _ => 5
/-- R277: the team's earlier accesses have been performed at the scope of a level. -/
def State.releasedAt (s : State) (tid : Nat) (lvl : Level) : Bool :=
  s.flights.all fun f => decide (f.team ≠ tid) || f.performedAt lvl.scope

/-- R365: the g register that a barrier instruction reads a poisoned object into is poisoned; without one the team is dealt
with as where it reads a poisoned register (log 28). -/
def State.objectPoison (s : State) (c : Ctx) (bad : Bool) (d : Option Byte) : State :=
  match bad, d with
  | false, _ => s
  | true, some d => s.modTeam c.tid fun t => { t with poison := t.poison ++ [(.g, d.toNat - 192, 0)] }
  | true, none => s.groupPath c.grp.id 337 0 true true

/-- R128: an operation on a barrier object: its checks, then `f` on where it lies. `release` waits for the team's earlier
accesses. R125 does not list these operations, and they count on no path's counter (DESIGN CHOICE, log 33). -/
def onObject (s : State) (c : Ctx) (w : Nat) (write release : Bool) (f : Space → Nat → Res) : Res :=
  match barLevel w with
  | none => .trap s 65 0 c.act false
  | some lvl =>
    match s.formLocal c lvl 0 16 16 write true [(offOf w, { lane := 0, off := 0 })] with
    | .trap s code detail lanes => .trap s code detail lanes false
    | .ok s _ [r] =>
      if (release && !(s.releasedAt c.tid lvl)) || !(s.lineClear c r.space r.line) then .hold s
      else f r.space (r.line * 64 + (r.lanes.headD { lane := 0, off := 0 }).off)
    | .ok s _ _ => .hold s
    | .hold s => .hold s
    | .dead s _ => .hold s

def execBinit (o : FE) (s : State) : Host.Outcome State Fault Refusal := issue (.binit o) s fun s c =>
  onObject s c (c.g o.a) true false fun sp a =>
    .done (s.localWrite sp (cellsOf a 4 (c.g o.d) ++ cellsOf (a + 4) 4 0 ++
      cellsOf (a + 8) 4 (s.rd sp (a + 8) 4 / 2 * 2) ++ cellsOf (a + 12) 4 0) c.agent)

def execBarv (o : FE) (s : State) : Host.Outcome State Fault Refusal := issue (.barv o) s fun s c =>
  onObject s c (c.g o.a) true true fun sp a =>
    let ph := s.rd sp (a + 8) 4
    let (arr, ph') := arriveWords (s.rd sp a 4) (s.rd sp (a + 4) 4) ph
    .done (((s.localWrite sp (cellsOf (a + 4) 4 arr ++ cellsOf (a + 8) 4 ph') c.agent).wrG c o.d [ph % 2]).objectPoison c
      (s.isPoisoned sp a 16) (some o.d))

def execBwait (o : FE) (s : State) : Host.Outcome State Fault Refusal := issue (.bwait o) s fun s c =>
  let at' := c.asIssued [c.g o.a, c.g o.d]
  onObject s c (at'.headD 0) false false fun sp a =>
    if s.isPoisoned sp a 16 then .hold (s.objectPoison c true none)
    else if s.rd sp (a + 8) 4 % 2 ≠ at'.getD 1 0 % 2 then
      .done (s.splitAcquires c.tid c.uid ((barLevel (at'.headD 0)).map Level.scope |>.getD 0))
    else c.blocked s at'

def execBstat (o : FE) (s : State) : Host.Outcome State Fault Refusal := issue (.bstat o) s fun s c =>
  onObject s c (c.g o.a) false false fun sp a =>
    .done ((s.wrG c o.d [s.rd sp (a + 12) 4]).objectPoison c (s.isPoisoned sp a 16) (some o.d))

/-! ### Yards (R113) -/

/-- A g result owed under a token is written. -/
def State.answer (s : State) (tid tok : Nat) (x : Nat) : State :=
  s.modTeam tid fun t => match t.awaits.find? fun a => decide (a.tok = tok) with
    | some a => t.deliver tok .g [(a.reg, [(0, x)])]
    | none => t
/-- A g register whose result an event writes. -/
def State.oweG (s : State) (c : Ctx) (d : Byte) : Nat × State :=
  let (tok, s) := s.fresh
  (tok, s.modTeam c.tid fun t => { t with awaits := t.awaits ++ [⟨tok, c.uid, .g, d.toNat - 192, 1, 1⟩] })

/-- R113: a result word. -/
def yardResult (status count idx : Nat) : Nat := status * 2 ^ 24 + count * 8 + idx

def execYjoin (o : FE) (s : State) : Host.Outcome State Fault Refusal := issue (.yjoin o) s fun s c =>
  let key := c.g o.a
  let y := s.yards.find? fun y => decide (y.asid = c.grp.asid ∧ y.key = key)
  if !c.grp.yardOk then .done (s.wrG c o.d [yardResult 4 (match y with | some y => y.members.length | none => 0) 0])
  else
    let (tok, s) := s.oweG c o.d
    let w : YWait := ⟨c.grp.id, c.tid, tok⟩
    .done { s with yards := match y with
      | some _ => s.yards.map fun y => if y.asid = c.grp.asid ∧ y.key = key then { y with waiting := y.waiting ++ [w] } else y
      | none => s.yards ++ [{ asid := c.grp.asid, key := key, waiting := [w] }] }

/-- R113: the mark: the group's place in its yard is leaving, and what is accepted from now on finds no target there. -/
def State.markLeaving (s : State) (gid : Nat) : State :=
  let mark (m : YMember) : YMember := if m.group = gid then { m with leaving := true, since := s.nextId } else m
  if s.yards.all fun y => y.members.all fun m => decide (m.group ≠ gid) || m.leaving then s
  else { s with yards := s.yards.map fun y => { y with members := y.members.map mark }, nextId := s.nextId + 1 }

def execYleave (o : FE) (s : State) : Host.Outcome State Fault Refusal := issue (.yleave o) s fun s c =>
  match s.yardOf c.grp.id with
  | none => .done (s.wrG c o.d [yardResult 1 0 0])
  | some _ =>
    let (tok, s) := s.oweG c o.d
    .done ((s.modGroup c.grp.id fun g => { g with leavingYard := g.leavingYard ++ [(c.tid, tok)] }).markLeaving c.grp.id)

/-- R113: the home of a yard is there: the core of its lowest-index member that is live and resident. -/
def State.yardHome (s : State) (y : Yard) : Bool :=
  y.members.isEmpty || y.members.any fun m => !m.leaving && (match s.group? m.group with | some g => s.groupRuns g | none => false)

/-- YJOIN_COMPLETE: the yard's home serialises the join that arrived first. -/
def execYjoinComplete (e : EvYard) (s : State) : Host.Outcome State Fault Refusal :=
  match s.yards.find? fun y => decide (y.asid = e.asid ∧ y.key = e.key) with
  | none => .next s
  | some y =>
    match y.waiting with
    | [] => .next s
    | w :: ws =>
      if !(s.yardHome y) then .next s
      else
        let keep (y : Yard) : State :=
          { s with yards := (s.yards.map fun z => if z.asid = e.asid ∧ z.key = e.key then y else z).filter fun z => !(z.members.isEmpty && z.waiting.isEmpty) }
        let y' : Yard := { y with waiting := ws }
        let n := y.members.length
        let core := match s.group? w.group with | some g => g.core | none => 16
        match s.yardOf w.group with
        | some (z, m) => .next ((keep y').answer w.team w.tok (yardResult 1 z.members.length m.idx))
        | none =>
          if y.members.any fun m => (match s.group? m.group with | some g => decide (g.core = core) | none => false) then
            .next ((keep y').answer w.team w.tok (yardResult 3 n 0))
          else if 8 ≤ n then .next ((keep y').answer w.team w.tok (yardResult 2 n 0))
          else
            let i := ((List.range 8).find? fun i => !(y.members.any fun m => decide (m.idx = i))).getD 0
            .next ((keep { y' with members := y'.members ++ [⟨i, w.group, false, 0⟩] }).answer w.team w.tok (yardResult 0 (n + 1) i))

/-- R113: nothing that targets the leaving member, and nothing of its group that targets another member, is unfinished. -/
def State.yardQuiet (s : State) (g : Group) (y : Yard) (idx : Nat) : Bool :=
  (s.flights.all fun f => decide (f.path ≠ 3 ∧ f.path ≠ 7) || f.performed ||
    (!(f.reqs.any fun r => decide (r.st ≠ .done) && decide (r.space = .win g.id)) &&
      (match s.team? f.team with
        | some t => decide (t.group ≠ g.id) || f.reqs.all fun r => (match r.space with | .win h => decide (h = g.id) | _ => true)
        | none => true))) &&
  (y.members.all fun m => match s.group? m.group with
    | none => true
    | some h => h.engs.all fun q => q.2.cmds.all fun c => decide (c.st = .done) ||
        (if h.id = g.id then c.yard.all fun i => decide (i = idx) else
          -- of a matrix command each fetch completes at once, and the next one finds no target (R225)
          !(c.yard.contains idx) || decide (c.op = .mloop ∨ c.op = .mlda ∨ c.op = .msta) || y.members.any fun m => decide (m.idx = idx) && decide (m.since < c.before)))

/-- YLEAVE_COMPLETE: the member is revoked and the waiting results are written. -/
def execYleaveComplete (e : EvGroup) (s : State) : Host.Outcome State Fault Refusal :=
  match s.group? e.group, s.yardOf e.group with
  | some g, some (y, m) =>
    if !m.leaving || !(s.yardQuiet g y m.idx) then .next s
    else
      let n := y.members.length - 1
      let s := s.revokeYard e.group
      let s := (g.leavingYard.zipIdx).foldl (fun (s : State) p =>
        s.answer p.1.1 p.1.2 (if p.2 = 0 then yardResult 0 n m.idx else yardResult 1 0 0)) s
      .next (s.modGroup e.group fun g => { g with leavingYard := [] })
  | _, _ => .next s

end Sys2Proof.Machine
end

