-- ==== Sys2Proof/Machine/Matrix.lean ====
section
/-!
DEFINITION. The systolic grid (R211 to R242): GRID and UNGRID, accumulator slots, the queued matrix commands at issue, the
immediate functions, MXV at issue.
-/
namespace Sys2Proof.Machine

/-! ### Grids (R211 to R213) -/

/-- R211: the quads of a shape for a home quad. -/
def gridQuads (shape home : Nat) : List Nat :=
  match shape with
  | 0 => [home]
  | 1 => [home / 2 * 2, home / 2 * 2 + 1]
  | _ => [0, 1, 2, 3]

/-- R213, R313: a quad is ungridded, and has 128 units free beyond the need of its queue's head. -/
def State.quadUngridded (s : State) (core quad : Nat) : Bool := (s.gridder core quad).isNone
def State.quadRoom (s : State) (core quad : Nat) : Bool := decide (128 + s.headNeed core quad ≤ s.freeUnits core quad)
/-- R213: every quad of a grid can be taken at this instant. -/
def State.gridFits (s : State) (core : Nat) (quads : List Nat) : Bool :=
  quads.all fun q => s.quadUngridded core q && s.quadRoom core q

/-- Insert by a key, the greatest first, behind those of the same key. -/
def insertDown (f : Nat → Nat) (b : Nat) : List Nat → List Nat
  | [] => [b]
  | x :: xs => if f x < f b then b :: x :: xs else x :: insertDown f b xs
/-- R344: the gated bays of a quad start to wake one after the other, behind one that is waking: the one needed longest first,
the lowest on a tie. -/
def Core.wakeQuad (k : Core) (quad : Nat) : Core :=
  let mine := (List.range 4).map (4 * quad + ·)
  let left := mine.foldl (fun n b => match (sget {} k.bays b).gate with | .waking m => max n m | _ => n) 0
  let asleep := (mine.filter fun b => decide ((sget {} k.bays b).gate = .gated)).foldl (fun l b => insertDown (fun x => (sget {} k.bays x).need) b l) []
  { k with bays := asleep.zipIdx.foldl (fun (l : List (Nat × Bay)) b =>
      sset {} l b.1 { sget {} l b.1 with gate := .waking (left + 8 * (b.2 + 1)), need := 0 }) k.bays }
/-- R344: no bay of a gridded quad is gated. -/
def State.wakeGridded (s : State) (core : Nat) (quads : List Nat) : State :=
  s.modCore core fun k => quads.foldl Core.wakeQuad k
def State.takeGrid (s : State) (tid shape home : Nat) : State :=
  let core := match s.team? tid with | some t => t.core | none => 16
  (s.wakeGridded core (gridQuads shape home)).modTeam tid fun t => { t with grid := some { shape := shape, quads := gridQuads shape home } }

/-- The team holds a grid. -/
def Team.holdsGrid (t : Team) : Bool := match t.grid with | some g => !g.retake | none => false

def execGrid (o : FE) (s : State) : Host.Outcome State Fault Refusal := issue (.grid o) s fun s c =>
  let shape := o.d.toNat
  if c.team.grid.isSome then .trap s 143 0 c.act false
  else if s.gridFits c.core (gridQuads shape c.team.quad) then .done (s.takeGrid c.tid shape c.team.quad)
  else c.blocked s []

/-- R226, R133: the selector of the matrix context of a quad. -/
def matSel (quad : Nat) : Nat := 2 + 16 * quad

/-- R213: a split of the team waits or has parked at an MXV (R236). -/
def Team.mxvRuns (t : Team) : Bool :=
  (t.live ++ t.handler.toList).any fun p => match p.busy with | some (.mxv _, _) => true | _ => false
/-- A context holds an unfinished MLOOP or MACC of a team. -/
def EngCtx.cellWork (x : EngCtx) (tid : Nat) : Bool :=
  x.cmds.any fun c => decide (c.team = tid) && decide (c.op = .mloop ∨ c.op = .macc) && c.unfinished
/-- R213: the team has an unfinished MLOOP, MXV or MACC, accepted on whichever quad it was homed then (R376), or its cells still
compute. -/
def State.gridWork (s : State) (t : Team) : Bool :=
  t.mxvRuns ||
  (match t.grid with | some g => !g.retake && !(s.cellsIdle t.core g) | none => false) ||
  (match s.group? t.group with
    | none => false
    | some g => g.engs.any fun e => decide (selEngine e.1 = 2) && e.2.cellWork t.id)
/-- R213: the matrix context that halted with a command or an MXV of the team unfinished, and its code. -/
def State.gridHalt (s : State) (t : Team) : Option (Nat × Nat) :=
  match s.group? t.group with
  | none => none
  | some g => g.engs.findSome? fun e =>
    if selEngine e.1 = 2 ∧ (e.2.cellWork t.id = true ∨ (e.1 = matSel t.quad ∧ t.mxvRuns = true)) then e.2.halted.map fun code => (e.1, code) else none

/-- R213, R228: a grid is released: its tokens and reserves return. -/
def State.releaseGrid (s : State) (tid : Nat) : State :=
  match (s.team? tid).bind (·.grid) with
  | none => s
  | some g =>
    let s := s.modTeam tid fun t => { t with grid := none }
    { s with gov := s.gov.returnTokens g.tokens s.tokensHeld }

def execUngrid (o : FE) (s : State) : Host.Outcome State Fault Refusal := issue (.ungrid o) s fun s c =>
  let t := (s.team? c.tid).getD c.team
  if t.grid.isNone then .trap s 143 0 c.act false
  else match s.gridHalt t with
    | some (sel, code) => .trap s code (engDetail sel) c.act false
    | none => if s.gridWork t then c.blocked s [] else .done (s.releaseGrid c.tid)

/-! ### Tokens (R228, R341) -/

/-- R228, R341: go on with the grid's tokens held: they are taken at once where no older request waits and enough are
free; otherwise the team waits in the token queue. The waiting split keeps some values. -/
def withTokens (s : State) (c : Ctx) (go : State → Res) (vals : List Nat := []) : Res :=
  match c.team.grid with
  | none => .hold s
  | some g =>
    if g.tokens ≠ 0 then go s
    else
      let need := g.quads.length
      let first : Bool := match s.gov.queue with | [] => true | x :: _ => decide (x = c.tid)
      if first && decide (need ≤ s.gov.free) then
        go { s.modTeam c.tid (fun t => { t with grid := t.grid.map fun g => { g with tokens := need, idle := 0 } }) with
          gov := { s.gov with free := s.gov.free - need, queue := s.gov.queue.filter (· ≠ c.tid) } }
      else
        c.blocked { s with gov := { s.gov with queue := if s.gov.queue.contains c.tid then s.gov.queue else s.gov.queue ++ [c.tid] } } vals

/-- R236: the last command that an MXV or RBOX waits for: what its context had accepted when it passed its checks. -/
def State.lastBefore (s : State) (c : Ctx) : Nat :=
  match c.sp.busy with
  | some (_, [n]) => n
  | _ => match s.group? c.grp.id with | some g => (g.eng (matSel c.team.quad)).accepted | none => 0

/-! ### Slots (R214, R216) -/

/-- A queued command that names one of the slots is unfinished, in a context that satisfies `p`. -/
def Group.pendingIn (g : Group) (slots : List Nat) (p : Nat → Bool) : Bool :=
  g.engs.any fun e => decide (selEngine e.1 = 2) && p e.1 && e.2.cmds.any fun c => c.unfinished && c.slots.any slots.contains
def Group.pending (g : Group) (slots : List Nat) : Bool := g.pendingIn slots fun _ => true
def Group.anyInv (g : Group) (slots : List Nat) : Bool := slots.any g.inv.contains

/-- The group of an issue, as it stands. -/
def State.myGroup (s : State) (c : Ctx) : Group := (s.group? c.grp.id).getD c.grp

/-! ### Acceptance of queued commands (R221, R226, R237) -/

/-- R215: the barrier word of a descriptor's barrier object; 0 where none or outside its limit. -/
def Group.descBar (g : Group) (d : Nat) : Word :=
  if dBar d ≠ 0 ∧ 256 + g.xb + 16 * dBar d ≤ g.ws then BitVec.ofNat 32 (2 ^ 29 + (g.ws - 16 * dBar d)) else 0

/-- R221 steps 5 and 6: a queued matrix command waits for queue space and the scoreboard, and is accepted. -/
def acceptMat (s : State) (c : Ctx) (slots : List Nat) (mk : EngCmd → EngCmd) : Res :=
  let sel := matSel c.team.quad
  let g := s.myGroup c
  let x := g.eng sel
  if 32 ≤ x.accepted - x.c ∨ g.pendingIn slots (fun e => decide (e ≠ sel)) then c.blocked s []
  else
    let n := x.accepted + 1
    let cmd := mk { n := n, op := .mloop, team := c.tid, tword := BitVec.ofNat 32 c.team.teamReg, core := c.core, block := [], before := s.nextId, seq := s.nonce }
    .done (s.modEng c.grp.id sel fun x => { x with accepted := n, cmds := x.cmds ++ [cmd] })

/-- The records that operand words at the given places of a block name. -/
def Ctx.opRecs (c : Ctx) (b : List Word) (ks : List Nat) : List (Nat × BufRec) :=
  ks.filterMap fun k => if lvlOf (bw b k) = 0 then some (k, BitVec.ofNat 128 (c.rd .b (bw b k / 2 ^ 24 % 32) 0)) else none

/-- R221, R235: the vote: the reference value, or the lanes that differ from it. -/
def Ctx.vote (c : Ctx) (x : Byte) : Nat ⊕ LaneMask :=
  match c.lanes with
  | [] => .inl 0
  | l :: _ =>
    let w := c.src x.toNat l
    match c.lanes.filter fun k => decide (c.src x.toNat k ≠ w) with
    | [] => .inl w
    | bad => .inr (maskOf 1024 bad)

def execMloop (o : FR) (s : State) : Host.Outcome State Fault Refusal := issue (.mloop o) s fun s c =>
  if c.lanes = [] then .done s
  else match c.vote o.b with
    | .inr bad => .trap s 141 0 bad false
    | .inl w =>
      let d := c.g o.d
      match c.team.grid with
      | none => .trap s 143 0 c.act false
      | some q =>
        if dShape d ≠ q.shape ∨ (s.myGroup c).anyInv (tileSlots d) then .trap s 143 0 c.act false
        else withTokens s c fun s =>
          let b := c.block o.a 8
          acceptMat s c (tileSlots d) fun x =>
            { x with op := .mloop, block := b, recs := c.opRecs b [0, 1, 7], gs := dGs d, bar := c.grp.descBar d,
                     desc := BitVec.ofNat 32 d, fmt := BitVec.ofNat 32 w, yard := yardTargets [bw b 0, bw b 1, bw b 7] }

def execMlda (o : FE) (s : State) : Host.Outcome State Fault Refusal := issue (.mlda o) s fun s c =>
  let d := c.g o.d
  let b := c.block o.a 4
  acceptMat s c (tileSlots d) fun x =>
    { x with op := .mlda, block := b, recs := c.opRecs b [0], gs := dGs d, bar := c.grp.descBar d,
             desc := BitVec.ofNat 32 d, yard := yardTargets [bw b 0] }

def execMsta (o : FE) (s : State) : Host.Outcome State Fault Refusal := issue (.msta o) s fun s c =>
  let d := c.g o.d
  let b := c.block o.a 4
  if (s.myGroup c).anyInv (tileSlots d) then .trap s 143 0 c.act false
  else acceptMat s c (tileSlots d) fun x =>
    { x with op := .msta, block := b, recs := c.opRecs b [0], gs := dGs d, bar := c.grp.descBar d,
             desc := BitVec.ofNat 32 d, yard := yardTargets [bw b 0] }

def execMacc (o : FE) (s : State) : Host.Outcome State Fault Refusal := issue (.macc o) s fun s c =>
  let d := c.g o.d
  let e := c.g o.a
  match c.team.grid with
  | none => .trap s 143 0 c.act false
  | some q =>
    if dShape d ≠ q.shape ∨ (s.myGroup c).anyInv (tileSlots d ++ tileSlots e) then .trap s 143 0 c.act false
    else withTokens s c fun s =>
      acceptMat s c (tileSlots d ++ tileSlots e) fun x =>
        { x with op := .macc, gs := dGs d, bar := c.grp.descBar d, desc := BitVec.ofNat 32 d, desc2 := BitVec.ofNat 32 e }

/-! ### Immediate functions (R237 to R241) -/

/-- R237: the checks of an immediate function's descriptor. -/
def Ctx.descBad (c : Ctx) (d : Nat) : Bool :=
  dReserved d || dSat d || decide (dAcct d ≠ 0) || decide (dShape d = 3) ||
  decide (dBase d % tileCount (dShape d) ≠ 0) || decide (c.grp.accSlots < dBase d + tileCount (dShape d))

/-- R237, R216: an immediate function on a tile: its checks, INV where it minds, the scoreboard. -/
def onTile (s : State) (c : Ctx) (d : Nat) (inv : Bool) (f : Group → Res) : Res :=
  let g := s.myGroup c
  if c.descBad d then .trap s 21 (encodingDetail c.i) c.act false
  else if inv && g.anyInv (tileSlots d) then .trap s 143 0 c.act false
  else if g.pending (tileSlots d) then c.blocked s []
  else f g

def execMzero (o : FE) (s : State) : Host.Outcome State Fault Refusal := issue (.mzero o) s fun s c =>
  let d := c.g o.a
  onTile s c d false fun _ =>
    .done (s.modGroup c.grp.id fun g => { g with
      acc := g.acc.filter fun p => !((tileSlots d).contains (p.1 / 1024))
      inv := g.inv.filter fun x => !((tileSlots d).contains x) })

/-- R240: the key of the element a lane addresses, none outside the tile. -/
def mrdKey (d r l : Nat) : Option Nat :=
  let n := tileCols (dShape d)
  let e := r * n + l
  if e < tileRows (dShape d) * n then some (accKey d (e / n) (e % n)) else none

def execMrd (o : FE) (s : State) : Host.Outcome State Fault Refusal := issue (.mrd o) s fun s c =>
  let d := c.gAt o.a 0
  let r := c.gAt o.a 1
  onTile s c d true fun g =>
    .done (s.wrField c o.d.toNat 32 (c.lanes.map fun l =>
      (l, match mrdKey d r l with | some k => (sget 0 g.acc k).toNat | none => 0)))

def execMwr (o : FE) (s : State) : Host.Outcome State Fault Refusal := issue (.mwr o) s fun s c =>
  let d := c.gAt o.d 0
  let r := c.gAt o.d 1
  onTile s c d true fun _ =>
    let ws := c.lanes.filterMap fun l => (mrdKey d r l).map fun k => (k, BitVec.ofNat 32 (c.src o.a.toNat l))
    .done (s.modGroup c.grp.id fun g => { g with acc := ssets 0 g.acc ws })

/-- R241: the unfinished commands that name a tile, and the MLOOP of them that was accepted first. -/
def Group.naming (g : Group) (slots : List Nat) : List EngCmd :=
  (g.engs.filter fun e => decide (selEngine e.1 = 2)).flatMap fun e => e.2.cmds.filter fun c => c.unfinished && c.slots.any slots.contains
def oldestMloop (l : List EngCmd) : Option EngCmd :=
  match l.filter fun c => decide (c.op = .mloop) with
  | [] => none
  | c :: cs => some (cs.foldl (fun (a : EngCmd) x => if x.seq < a.seq then x else a) c)

def execMstat (o : FE) (s : State) : Host.Outcome State Fault Refusal := issue (.mstat o) s fun s c =>
  let d := c.g o.a
  if c.descBad d then .trap s 21 (encodingDetail c.i) c.act false
  else
    let g := s.myGroup c
    let l := g.naming (tileSlots d)
    let w0 := min 255 l.length * 65536 + (if g.anyInv (tileSlots d) then 2 else 0) + (if l.isEmpty then 0 else 1)
    let w1 := match oldestMloop l with
      | some q => (if q.st = .parked then 65536 else 0) + q.progress % 65536
      | none => 0
    .done (s.wrG c o.d [w0, w1])

/-- R241: the code of a halted context that holds a command naming the tile, the failed one included. -/
def Group.tileHalt (g : Group) (slots : List Nat) : Option (Nat × Nat) :=
  g.engs.findSome? fun e =>
    if selEngine e.1 = 2 ∧ e.2.cmds.any (fun c => decide (c.st ≠ .done) && c.slots.any slots.contains) then
      e.2.halted.map fun code => (e.1, code)
    else none

def execMwait (o : FE) (s : State) : Host.Outcome State Fault Refusal := issue (.mwait o) s fun s c =>
  let d := (c.asIssued [c.g o.a]).headD 0
  let g := s.myGroup c
  if c.descBad d then .trap s 21 (encodingDetail c.i) c.act false
  else match g.tileHalt (tileSlots d) with
    | some (sel, code) => .trap s code (engDetail sel) c.act false
    | none => if g.pending (tileSlots d) then c.blocked s [d] else .done s

/-! ### MXV at issue (R234, R235) -/

def xOut (w : Nat) : Nat := w / 4096 % 2
def xSp (w : Nat) : Nat := w / 256 % 16
def xPl (w : Nat) : Nat := w / 16 % 16
def xTy (w : Nat) : Nat := w % 16

/-- R234: a weight descriptor that is well-formed. -/
def weightOk (w : Nat) : Bool :=
  decide (w < 2 ^ 13) && decide (xTy w ≤ 8 ∨ xTy w = 11) && decide (xOut w = if xTy w ≤ 7 then 0 else 1) &&
  (if xTy w = 11 then decide (2 ≤ xPl w ∧ xPl w ≤ xSp w ∧ xSp w ≤ 8) else decide (xPl w = 0 ∧ xSp w = 0))

/-- R218: the reserved parts of an operand word. -/
def operandBad (w : Nat) : Bool :=
  match lvlOf w with
  | 0 => false
  | 2 => decide (w / 2 ^ 27 % 4 ≠ 0)
  | 1 | 3 => decide (w / 2 ^ 24 % 32 ≠ 0)
  | _ => true
/-- R218: OFFSET. -/
def opOff (w : Nat) : Nat := w % 2 ^ 24
/-- R79, R107: the path of an operand's level. -/
def opPath (w : Nat) : Nat := match lvlOf w with | 0 => 0 | 1 => 2 | 2 => 3 | _ => 4

/-- R235 step 4: a block field that must be 0. -/
def mxvBlockBad (w : Nat) (b : List Word) : Bool :=
  decide (bw b 2 / 65536 ≠ 0 ∨ bw b 3 / 256 ≠ 0 ∨ bw b 6 ≠ 0 ∨ bw b 7 ≠ 0) || (!(mIsMx (xTy w)) && decide (bw b 5 ≠ 0)) || operandBad (bw b 0)

/-- R117, R235: a record that a weight fetch may not use. -/
def recUnfit (r : BufRec) : Bool := bufInvalid r || decide (bufKind r ≠ 0) || decide (bufSwz r ≠ 0)

/-- R236: an MXV passes its checks and waits for tokens; MXV_FINISH follows the earlier grid commands of its context. -/
def execMxv (o : FR) (s : State) : Host.Outcome State Fault Refusal := issue (.mxv o) s fun s c =>
  if c.lanes = [] then .done s
  else match c.vote o.b with
    | .inr bad => .trap s 142 0 bad false
    | .inl w =>
      let b := c.block o.a 8
      let w0 := bw b 0
      let t := c.team.size
      let k := bw b 2 % 65536
      let n := bw b 4
      let x := bw b 3 % 256
      let r := BitVec.ofNat 128 (c.rd .b (w0 / 2 ^ 24 % 32) 0)
      let enc (k : Nat) : Res := .trap s k (encodingDetail c.i) c.act false
      if !(weightOk w) || mxvBlockBad w b then enc 21
      else if lvlOf w0 = 0 ∧ recUnfit r then .trap s 53 0 c.act false
      else if opOff w0 % 16 ≠ 0 ∨ bw b 1 % 16 ≠ 0 then .trap s (memCode (opPath w0) 1) 0 c.act false
      else if !c.team.holdsGrid then .trap s 143 0 c.act false
      else if 8 * c.team.gran < x + (k + t - 1) / t then enc 4
      else if 16 * t < k ∨ k = 0 ∨ t < n ∨ n = 0 then enc 21
      else withTokens s c (vals := [s.lastBefore c]) fun s =>
        c.blocked s ([s.lastBefore c, w] ++ (List.range 8).map (bw b) ++ [c.act.toNat, r.toNat] ++
          (List.range k).map fun j => c.rd .v (x + j / t) (j % t))

end Sys2Proof.Machine
end

