-- ==== Sys2Proof/Machine/MatRun.lean ====
section
/-!
DEFINITION. What the grid and the matrix sequencers do on their own: grids and tokens (R213, R228, R341), the start, the
steps and the end of queued matrix commands (R222 to R233, R239, R242), the end of an MXV (R236).
-/
namespace Sys2Proof.Machine

/-! ### Grids and tokens -/

/-- GRID_TAKE: a waiting GRID, or a team that had a grid when it was stopped (R233), takes all its quads at one instant. -/
def execGridTake (e : EvTeam) (s : State) : Host.Outcome State Fault Refusal :=
  match s.team? e.team with
  | none => .next s
  | some t =>
    if t.residence ≠ .resident then .next s
    else match t.grid with
      | some g =>
        let quads := gridQuads g.shape t.quad
        if g.retake && s.gridFits t.core quads then
          let work := s.gridWork t
          let s := s.wakeGridded t.core quads
          let s := s.modTeam t.id fun t => { t with grid := some { g with quads := quads, retake := false, tokens := 0, idle := 0 } }
          -- R341: its unfinished commands ask for tokens anew
          .next (if work then { s with gov := { s.gov with queue := s.gov.queue.filter (· ≠ t.id) ++ [t.id] } } else s)
        else .next s
      | none =>
        match (t.handler.toList ++ t.splits).find? fun p => match p.busy with | some (.grid _, _) => true | _ => false with
        | some p =>
          (match p.busy with
            | some (.grid o, _) =>
              if s.gridFits t.core (gridQuads o.d.toNat t.quad) then
                .next ((s.takeGrid t.id o.d.toNat t.quad).complete t.id p.uid)
              else .next s
            | _ => .next s)
        | none => .next s

/-- The active lanes of a split as it waits. -/
def State.lanesOf (s : State) (t : Team) (p : Split) : LaneMask := p.exec &&& guardOf t p s.nonce p.uid

/-- UNGRID_COMPLETE: a waiting UNGRID, or the implicit one of a team that has ended. -/
def execUngridComplete (e : EvTeam) (s : State) : Host.Outcome State Fault Refusal :=
  match s.team? e.team with
  | none => .next s
  | some t =>
    if t.residence = .ended then
      -- a halted context is resolved by another team of the group (R132), or ends the group with the last of them (R308)
      let open' := s.teams.any fun x => decide (x.group = t.group) && decide (x.residence ≠ .ended)
      .next (if s.gridWork t && (open' || (s.gridHalt t).isNone) then s else s.releaseGrid t.id)
    else match (t.handler.toList ++ t.live).find? fun p => match p.busy with | some (.ungrid _, _) => true | _ => false with
      | none => .next s
      | some p =>
        match s.gridHalt t with
        | some (sel, code) =>
          .next ((s.raise t.id p.uid code (engDetail sel) (s.lanesOf t p) false p.pc).getD s)
        | none => .next (if s.gridWork t then s else (s.releaseGrid t.id).complete t.id p.uid)

/-- R341: the head of the token queue receives its whole need, where the free tokens cover it. -/
def State.grantHead (s : State) : State :=
  match s.gov.queue with
  | [] => s
  | x :: rest =>
    match (s.team? x).bind (·.grid) with
    | none => { s with gov := { s.gov with queue := rest } }
    | some g =>
      let need := g.quads.length
      if g.retake || decide (g.tokens ≠ 0) then { s with gov := { s.gov with queue := rest } }
      else if need ≤ s.gov.free then
        { s.modTeam x (fun t => { t with grid := some { g with tokens := need, idle := 0 } }) with
          gov := { s.gov with queue := rest, free := s.gov.free - need } }
      else s
/-- TOKEN_GRANT. -/
def execTokenGrant (s : State) : Host.Outcome State Fault Refusal := .next s.grantHead

/-- TOKEN_IDLE_RELEASE: a grid idle for 1,024 clocks returns its tokens. -/
def execTokenIdleRelease (e : EvTeam) (s : State) : Host.Outcome State Fault Refusal :=
  match s.team? e.team with
  | none => .next s
  | some t =>
    match t.grid with
    | none => .next s
    | some g =>
      if g.tokens ≠ 0 ∧ 1024 ≤ g.idle ∧ !(s.gridBusy t) then
        let s := s.modTeam t.id fun t => { t with grid := some { g with tokens := 0, idle := 0 } }
        .next { s with gov := s.gov.returnTokens g.tokens s.tokensHeld }
      else .next s

/-! ### Operand fetches (R218, R222, R225) -/

/-- One range of an operand: word k of the block, a byte offset, a length. -/
structure OpRange where
  k : Nat
  off : Int
  n : Nat
  deriving DecidableEq, Repr

def opRec (cmd : EngCmd) (k : Nat) : BufRec :=
  match cmd.recs.find? fun r => decide (r.1 = k) with | some (_, r) => r | none => 0

/-- Where an offset of an operand lies in its level's own numbering. -/
def opPlace (cmd : EngCmd) (k off : Nat) : Nat :=
  let w := bw cmd.block k
  match lvlOf w with
  | 0 => (bufBase (opRec cmd k) + off) % 2 ^ 48
  | 2 => w / 2 ^ 24 % 8 * 2 ^ 24 + off
  | _ => off
/-- That of an offset that may have run below 0, in 48 bits. -/
def opPlaceI (cmd : EngCmd) (k : Nat) (off : Int) : Nat := (((opPlace cmd k 0 : Nat) + off) % (2 ^ 48 : Int)).toNat

/-- R218, R225: what is wrong with a range of an operand. -/
def State.opFails (s : State) (g : Group) (cmd : EngCmd) (write : Bool) (r : OpRange) : Fails :=
  let w := bw cmd.block r.k
  if r.off < 0 then [(2, some (opPlaceI cmd r.k r.off))]
  else
    let off := r.off.toNat
    let a := opPlace cmd r.k off
    match lvlOf w with
    | 0 =>
      let b := opRec cmd r.k
      if recUnfit b || (write && !bufW b) then [(3, none)]
      else failIf (decide (bufExtent b * bufS b < off + r.n)) 2 (some a)
    | 2 =>
      if 2 ^ 24 < off + r.n then [(2, some a)]
      else match s.engRange g 2 a r.n write (cmd.stamp s.nextId) with | .error e => [(e, some a)] | .ok _ => []
    | lv => match s.engRange g lv off r.n write (cmd.stamp s.nextId) with | .error e => [(e, some off)] | .ok _ => []

/-- A unit of n bytes at a place of an operand's level. R225: a yard fetch finds the membership as it stands. What the step
has read ahead (R286) stands for what is read now, but for a compare-and-replace (R280). -/
def State.opUnit (s : State) (g : Group) (cmd : EngCmd) (k a : Nat) (write : Option Nat) (n : Nat := 4) (rmw : Bool := false)
    (who : Asker := .passing) : State × UnitR :=
  match (match lvlOf (bw cmd.block k) with
    | 0 => s.unitGlobal g a write n rmw who
    | lv => s.unitLocal g lv a write n (cmd.stamp s.nextId)) with
  | (s, .ok sp as x) => (s, .ok sp as (if write.isSome || rmw then x else overlayAhead cmd.ahead sp as x))
  | q => q

/-- How a fetch stops: the state, why, and where. -/
structure Stopped where
  s : State
  r : UnitR
  loc : Nat

/-- Read n consecutive words. -/
def State.opWords (s : State) (g : Group) (cmd : EngCmd) (k a : Nat) : Nat → Except Stopped (State × Nat)
  | 0 => .ok (s, 0)
  | n + 1 =>
    match s.opUnit g cmd k a none with
    | (s, .ok _ _ x) =>
      (match s.opWords g cmd k (a + 4) n with
        | .ok (s, y) => .ok (s, x + 2 ^ 32 * y)
        | e => e)
    | (s, r) => .error ⟨s, r, a⟩

/-- Read a range, little-endian. -/
def State.opRead (s : State) (g : Group) (cmd : EngCmd) (r : OpRange) : Except Stopped (State × Nat) :=
  let a := opPlace cmd r.k r.off.toNat
  let lo := a / 4 * 4
  match s.opWords g cmd r.k lo ((a + r.n + 3) / 4 - lo / 4) with
  | .ok (s, x) => .ok (s, x / 256 ^ (a - lo) % 256 ^ r.n)
  | e => e

/-- Read several ranges, in order. -/
def State.opReads (s : State) (g : Group) (cmd : EngCmd) : List OpRange → Except Stopped (State × List Nat)
  | [] => .ok (s, [])
  | r :: rs =>
    match s.opRead g cmd r with
    | .error e => .error e
    | .ok (s, x) =>
      match s.opReads g cmd rs with
      | .error e => .error e
      | .ok (s, xs) => .ok (s, x :: xs)

/-! ### Failure (R131, R230) -/

/-- R131 step 3, R230: a matrix command fails: the slots it writes become INV. -/
def State.matFail (s : State) (gid sel : Nat) (cmd : EngCmd) (k : Nat) (loc : Option Nat) : State :=
  let there := match s.group? gid with | some g => s.reportThere g cmd.bar cmd.before | none => true
  if !there then s
  else
  let slots := match s.group? gid with | some g => g.accSlots | none => 0
  let ws := cmd.targets.filter fun x => decide (x < slots)
  let s := s.modGroup gid fun g => { g with inv := g.inv ++ ws.filter fun x => !(g.inv.contains x) }
  s.engFail gid sel cmd.n k loc (decide (ws ≠ []))

/-- A fetch or a write stopped: it waits, parks (R232), fails, or kills the group. -/
def State.matStops (s : State) (g : Group) (sel : Nat) (cmd : EngCmd) (r : UnitR) (loc path : Nat) : State :=
  match r with
  | .parked va => s.engPark g sel cmd.n va path (decide (path = 1))
  | .fail k => s.matFail g.id sel cmd k (some loc)
  | .dead code => s.groupPath g.id code 0 true true
  | _ => s

/-! ### What MLOOP fetches (R222, R223) -/

def mlInc (cmd : EngCmd) (k : Nat) : Int := intOf true 32 (bw cmd.block k)
def mlPitch (cmd : EngCmd) (k : Nat) : Nat := bw cmd.block k % 2 ^ 20
def mlAux (cmd : EngCmd) (k : Nat) : Nat := bw cmd.block k / 2 ^ 20

/-- The bytes of a stored row of A and of B. -/
def mlRowA (w m : Nat) : Nat :=
  if fSpa w ≠ 0 then fG w * fNz w * mbits (fAty w) / 8
  else (if fAt w then m else fK w) * mbits (fAty w) / 8
def mlRowB (w n : Nat) : Nat :=
  if fBty w = 11 then 8 * fPl w else (if fBt w then fK w else n) * mbits (fBty w) / 8

/-- R222: the running offsets of step i. -/
def mlOff (cmd : EngCmd) (k i : Nat) : Int := (opOff (bw cmd.block k) : Int) + i * mlInc cmd (k + 2)

/-- The ranges of the stored rows of operand A (k = 0) or B (k = 1) in step i. -/
def mlRows (cmd : EngCmd) (k i : Nat) : List OpRange :=
  let w := cmd.fmt.toNat
  let sh := dShape cmd.desc.toNat
  let rows := if k = 0 then (if fAt w then fK w else tileRows sh) else (if fBt w then tileCols sh else fK w)
  let n := if k = 0 then mlRowA w (tileRows sh) else mlRowB w (tileCols sh)
  (List.range rows).map fun (r : Nat) => ⟨k, mlOff cmd k i + (r : Int) * mlPitch cmd (k + 5), n⟩

/-- R223: the scale bytes of operand k in step i, row by row. -/
def mlScales (cmd : EngCmd) (k i : Nat) : List OpRange :=
  let w := cmd.fmt.toNat
  let ty := if k = 0 then fAty w else fBty w
  if mIsMx ty then
    (mlRows cmd k i).flatMap fun (r : OpRange) => (List.range (fK w / 32)).map fun (b : Nat) =>
      let o0 : Int := opOff (bw cmd.block k)
      ⟨k, o0 + 256 * mlAux cmd (k + 5) + (r.off + (b : Int) * mxR ty - o0) / (mxR ty : Int), 1⟩
  else []

/-- R223: the masks of step i, row by row. -/
def mlMasks (cmd : EngCmd) (i : Nat) : List OpRange :=
  let w := cmd.fmt.toNat
  if fSpa w = 0 then []
  else (List.range (tileRows (dShape cmd.desc.toNat))).flatMap fun (r : Nat) => (List.range (fG w)).map fun (q : Nat) =>
    ⟨7, (opOff (bw cmd.block 7) : Int) + (r : Int) * 16 * mlAux cmd 5 + 6 * ((fG w * i + q : Nat) : Int), 6⟩

/-- Everything step i fetches. -/
def mlRanges (cmd : EngCmd) (i : Nat) : List OpRange :=
  mlMasks cmd i ++ mlRows cmd 0 i ++ mlRows cmd 1 i ++ mlScales cmd 0 i ++ mlScales cmd 1 i

/-! ### Checks at the start (R230) -/

/-- R215, R214: a descriptor; `mac` admits ACCT and SAT. -/
def Group.descFails (g : Group) (d : Nat) (mac : Bool) : Fails :=
  failIf (dReserved d || decide (dShape d = 3) || (!mac && (dSat d || decide (dAcct d ≠ 0)))) 0 ++
  failIf (decide (dShape d ≠ 3 ∧ dBase d % tileCount (dShape d) ≠ 0)) 1 ++
  failIf (decide (g.accSlots < dBase d + tileCount (dShape d))) 2 ++
  failIf (decide (dBar d ≠ 0 ∧ g.ws < 256 + g.xb + 16 * dBar d)) 2 (some (((g.ws : Int) - 16 * dBar d) % (2 ^ 48 : Int)).toNat)

/-- R217 to R220, R223: the format word and the block of an MLOOP. -/
def mloopFails (cmd : EngCmd) : Fails :=
  let w := cmd.fmt.toNat
  let b := cmd.block
  let sparse := decide (fSpa w ≠ 0)
  let auxA := mlAux cmd 5
  let auxB := mlAux cmd 6
  let ints (k : Nat) : Int := mlInc cmd k
  let mxBad (ty k : Nat) : Bool := mIsMx ty && (decide (mlPitch cmd (k + 5) % mxR ty ≠ 0) || decide (ints (k + 2) % (mxR ty : Int) ≠ 0))
  failIf (!(fmtOk w auxB)) 0 ++
  failIf (decide (bw b 4 = 0 ∨ 65536 ≤ bw b 4)) 0 ++
  failIf (operandBad (bw b 0) || operandBad (bw b 1) || operandBad (bw b 7) || (!sparse && decide (bw b 7 ≠ 0))) 0 ++
  failIf (decide (auxA ≠ 0) && !(mIsMx (fAty w)) && !sparse) 0 ++
  failIf (if fBty w = 11 then decide (16 ≤ auxB) else decide (auxB ≠ 0) && !(mIsMx (fBty w))) 0 ++
  failIf (mxBad (fAty w) 0 || mxBad (fBty w) 1) 0 ++
  failIf (decide (opOff (bw b 0) % 8 ≠ 0)) 1 (some (opPlace cmd 0 (opOff (bw b 0)))) ++
  failIf (decide (opOff (bw b 1) % 8 ≠ 0)) 1 (some (opPlace cmd 1 (opOff (bw b 1)))) ++
  failIf (decide (opOff (bw b 7) % 2 ≠ 0)) 1 (some (opPlace cmd 7 (opOff (bw b 7)))) ++
  failIf (decide (bw b 2 % 8 ≠ 0 ∨ bw b 3 % 8 ≠ 0 ∨
    mlPitch cmd 5 % 8 ≠ 0 ∨ mlPitch cmd 6 % 8 ≠ 0)) 1

/-- R239: the rows and scales of a stored tile. -/
def tileRowBytes (cmd : EngCmd) : Nat := tileCols (dShape cmd.desc.toNat) * fmtBits (bw cmd.block 2 % 16) / 8
def tileRow (cmd : EngCmd) (i : Nat) : OpRange := ⟨0, (opOff (bw cmd.block 0) : Int) + i * bw cmd.block 1, tileRowBytes cmd⟩
/-- R239: MSTA with FMT 5 to 7 writes scales. -/
def tileMx (cmd : EngCmd) : Bool := decide (cmd.op = .msta) && mIsMx (bw cmd.block 2 % 16)
def tileScale (cmd : EngCmd) (i : Nat) : OpRange :=
  let c := tileCols (dShape cmd.desc.toNat) / 32
  ⟨0, (opOff (bw cmd.block 0) : Int) + bw cmd.block 3 + i * c, c⟩

def tileMemFails (cmd : EngCmd) : Fails :=
  let b := cmd.block
  failIf (operandBad (bw b 0) || !(convOk (decide (cmd.op = .msta)) (bw b 2)) || (decide (bw b 3 ≠ 0) && !(tileMx cmd))) 0 ++
  failIf (decide (opOff (bw b 0) % 16 ≠ 0)) 1 (some (opPlace cmd 0 (opOff (bw b 0)))) ++ failIf (decide (bw b 1 % 16 ≠ 0)) 1

/-- Kinds 0 to 5 of a queued matrix command at its start. -/
def State.matFails (s : State) (g : Group) (cmd : EngCmd) : Fails :=
  let d := cmd.desc.toNat
  match cmd.op with
  | .macc =>
    let e := cmd.desc2.toNat
    g.descFails d true ++
    failIf (decide (e / 2 ^ 14 ≠ 0 ∨ e.testBit 11 = true ∨ dShape e ≠ dShape d) || (tileSlots d).any (tileSlots e).contains) 0 ++
    failIf (decide (dShape e ≠ 3 ∧ dBase e % tileCount (dShape e) ≠ 0)) 1 ++
    failIf (decide (g.accSlots < dBase e + tileCount (dShape e))) 2
  | .mloop =>
    let f := g.descFails d false ++ mloopFails cmd
    if f.any fun x => decide (x.1 = 0) then f else f ++ (mlRanges cmd 0).flatMap (s.opFails g cmd false)
  | _ =>
    let f := g.descFails d false ++ tileMemFails cmd
    if f.any fun x => decide (x.1 = 0) then f
    else f ++ (List.range (tileRows (dShape d))).flatMap fun i =>
      s.opFails g cmd (decide (cmd.op = .msta)) (tileRow cmd i) ++ (if tileMx cmd then s.opFails g cmd true (tileScale cmd i) else [])

/-! ### Start (R227) -/

/-- R227, R233: the issuing team's grid can compute. -/
def State.cellsReady (s : State) (cmd : EngCmd) : Bool :=
  match s.team? cmd.team with
  | none => false
  | some t => match t.grid with
    | some g => !g.retake && decide (g.tokens ≠ 0) && s.cellsIdle t.core g
    | none => false
/-- R233: the issuing team has been stopped with its grid and has not taken it back: no step and no command starts. -/
def State.gridStopped (s : State) (cmd : EngCmd) : Bool :=
  match (s.team? cmd.team).bind (·.grid) with | some g => g.retake | none => false

/-- R339: clocks in which the cells of a team's grid compute; their next step waits for the end of them. -/
def State.gridClocks (s : State) (tid n : Nat) : State :=
  match s.team? tid with
  | none => s
  | some t => match t.grid with
    | some g => g.quads.foldl (fun (s : State) q => s.modQuad t.core q fun x => { x with clocks := n }) s
    | none => s

/-- R120, R218: the paths of a matrix command's operands and of its barrier object. -/
def matPaths (cmd : EngCmd) : List Nat :=
  barPaths cmd.bar ++
  match cmd.op with
  | .mloop => lvlPaths (lvlOf (bw cmd.block 0)) ++ lvlPaths (lvlOf (bw cmd.block 1)) ++
      if fSpa cmd.fmt.toNat ≠ 0 then lvlPaths (lvlOf (bw cmd.block 7)) else []
  | .macc => []
  | _ => lvlPaths (lvlOf (bw cmd.block 0))

/-- MATRIX_COMMAND_START: the head of a matrix context starts, is discarded, or fails. -/
def execMatrixCommandStart (e : EvEngine) (s : State) : Host.Outcome State Fault Refusal :=
  match s.group? e.group with
  | none => .next s
  | some g =>
    let x := g.eng e.sel
    if !(s.groupRuns g) || decide (selEngine e.sel ≠ 2) then .next s
    else match x.head with
      | none => .next s
      | some cmd =>
        let cells := decide (cmd.op = .mloop ∨ cmd.op = .macc)
        match g.ruling cmd with
        | .pending => .next s
        | .no => .next (s.engDiscard e.group e.sel cmd.n)
        | .yes =>
          if !(s.priorDone cmd (matPaths cmd)) || s.gridStopped cmd || (cells && !(s.cellsReady cmd)) ||
              x.cmds.any (fun c => decide (c.n < cmd.n) && decide (c.st = .started) &&
                (c.slots.any cmd.slots.contains || (cells && decide (c.op = .mloop ∨ c.op = .macc)))) then .next s
          else match firstFail (s.matFails g cmd) with
            | some (k, loc) => .next (s.matFail e.group e.sel cmd k loc)
            | none =>
              let s := s.modCmd e.group e.sel cmd.n fun c => { c with st := .started, ahead := [] }
              -- R339: the cells of a MACC compute, and then it finishes
              .next (if cmd.op = .macc then s.gridClocks cmd.team 8 else s)

/-! ### Steps (R222, R232, R239) -/

/-- Cut what a step read into its parts. -/
def mlPanels (cmd : EngCmd) (i : Nat) (xs : List Nat) : Panels :=
  let w := cmd.fmt.toNat
  let nm := (mlMasks cmd i).length
  let na := (mlRows cmd 0 i).length
  let nb := (mlRows cmd 1 i).length
  let ns := (mlScales cmd 0 i).length
  let per (l : List Nat) (n : Nat) : List (List Nat) := chunks n l.length l
  { masks := per (xs.take nm) (fG w)
    a := (xs.drop nm).take na
    b := (xs.drop (nm + na)).take nb
    sa := per ((xs.drop (nm + na + nb)).take ns) (fK w / 32)
    sb := per (xs.drop (nm + na + nb + ns)) (fK w / 32) }

/-- R222, R224: the accumulator elements after a step. -/
def Group.stepTile (g : Group) (cmd : EngCmd) (p : Panels) : List (Nat × Word) :=
  let d := cmd.desc.toNat
  (List.range (tileRows (dShape d))).flatMap fun i => (List.range (tileCols (dShape d))).map fun j =>
    (accKey d i j, BitVec.ofNat 32 (p.elem cmd.fmt.toNat (mlAux cmd 6) i j (sget 0 g.acc (accKey d i j)).toNat))

/-- MLOOP_STEP: the sequencer computes one step of a started MLOOP, or parks, or fails. -/
def execMloopStep (e : EvEngineCmd) (s : State) : Host.Outcome State Fault Refusal :=
  match s.group? e.group with
  | none => .next s
  | some g =>
    match (g.eng e.sel).cmd? e.n with
    | none => .next s
    | some cmd =>
      let i := cmd.progress
      if !(s.groupRuns g) || decide (cmd.op ≠ .mloop) || decide (cmd.st ≠ .started) || !(s.cellsReady cmd) || decide (bw cmd.block 4 ≤ i) then .next s
      else match firstFail ((mlRanges cmd i).flatMap (s.opFails g cmd false)) with
        | some (k, loc) => .next (s.matFail e.group e.sel cmd k loc)
        | none =>
          match s.opReads g cmd (mlMasks cmd i) with
          | .error q => .next (q.s.matStops g e.sel cmd q.r q.loc 0)
          | .ok (s, ms) =>
            if ms.any fun m => decide (popcount 48 m ≠ fNz cmd.fmt.toNat) then .next (s.matFail e.group e.sel cmd 0 none)
            else match s.opReads g cmd ((mlRanges cmd i).drop (mlMasks cmd i).length) with
              | .error q => .next (q.s.matStops g e.sel cmd q.r q.loc 0)
              | .ok (s, xs) =>
                let ws := g.stepTile cmd (mlPanels cmd i (ms ++ xs))
                let s := s.modGroup e.group fun g => { g with acc := ssets 0 g.acc ws }
                let s := s.modCmd e.group e.sel e.n fun c => { c with progress := i + 1, ahead := [] }
                .next (s.gridClocks cmd.team (fClocks cmd.fmt.toNat))

/-- R239: the columns of row i of a tile. -/
def Group.tileRowOf (g : Group) (d i : Nat) : List Nat :=
  (List.range (tileCols (dShape d))).map fun j => (sget 0 g.acc (accKey d i j)).toNat

/-- R239: what MSTA writes for row i: pieces of (bytes, place, value). -/
def Group.tileWrites (g : Group) (cmd : EngCmd) (i : Nat) : List (Nat × Nat × Word) :=
  let d := cmd.desc.toNat
  let conv := bw cmd.block 2
  let bits := fmtBits (conv % 16)
  let xs := g.tileRowOf d i
  let blocks := (chunks 32 xs.length xs).map (mxBlock conv)
  let es := if tileMx cmd then blocks.flatMap (·.1) else xs.map (narrowElem conv)
  let row := es.zipIdx.foldl (fun a p => a + p.1 * 2 ^ (bits * p.2)) 0
  let off := opPlace cmd 0 (tileRow cmd i).off.toNat
  (List.range (tileRowBytes cmd / 4)).map (fun k => (4, off + 4 * k, BitVec.ofNat 32 (row / 2 ^ (32 * k)))) ++
  (if tileMx cmd then blocks.zipIdx.map fun p => (1, opPlace cmd 0 (tileScale cmd i).off.toNat + p.2, BitVec.ofNat 32 p.1.2) else [])

/-- ENGINE_TRANSFER of MLDA and MSTA: MLDA loads its next row; MSTA converts its next row, then writes it piece by piece. -/
def State.tileStep (s : State) (g : Group) (sel : Nat) (cmd : EngCmd) : State :=
  let d := cmd.desc.toNat
  let i := cmd.progress
  match cmd.pend with
  | (n, a, w) :: rest =>
    s.writeOver g sel cmd w.toNat (fun c => { c with pend := rest, progress := if rest = [] then i + 1 else i, moved := c.moved + n, ahead := [] })
      (fun s x => s.opUnit g cmd 0 a (some x) n) fun s r => s.matStops g sel cmd r a 1
  | [] =>
    if tileRows (dShape d) ≤ i then s
    else if cmd.op = .msta then s.modCmd g.id sel cmd.n fun c => { c with pend := g.tileWrites cmd i }
    else match s.opRead g cmd (tileRow cmd i) with
      | .error q => q.s.matStops g sel cmd q.r q.loc 0
      | .ok (s, row) =>
        let f := bw cmd.block 2 % 16
        let ws := (List.range (tileCols (dShape d))).map fun j =>
          (accKey d i j, BitVec.ofNat 32 (widenElem f (rowElem (fmtBits f) row j)))
        (s.modGroup g.id fun g => { g with acc := ssets 0 g.acc ws }).modCmd g.id sel cmd.n fun c =>
          { c with progress := i + 1, moved := c.moved + tileRowBytes cmd, ahead := [] }

/-- R242: the accumulator elements after a MACC. -/
def Group.maccTile (g : Group) (cmd : EngCmd) : List (Nat × Word) :=
  let d := cmd.desc.toNat
  let e := cmd.desc2.toNat
  (List.range (tileRows (dShape d))).flatMap fun i => (List.range (tileCols (dShape d))).map fun j =>
    (accKey d i j, BitVec.ofNat 32 (maccElem (dAcct d) (dSat d) (sget 0 g.acc (accKey d i j)).toNat (sget 0 g.acc (accKey e i j)).toNat))

/-- MATRIX_COMMAND_FINISH: a command whose last step or write has been performed finishes (R229). -/
def execMatrixCommandFinish (e : EvEngineCmd) (s : State) : Host.Outcome State Fault Refusal :=
  match s.group? e.group with
  | none => .next s
  | some g =>
    match (g.eng e.sel).cmd? e.n with
    | none => .next s
    | some cmd =>
      let rows := tileRows (dShape cmd.desc.toNat)
      if !(s.groupRuns g) || decide (selEngine e.sel ≠ 2) || decide (cmd.st ≠ .started) then .next s
      else match cmd.op with
        -- its last step has been performed when its clocks are over
        | .mloop => .next (if bw cmd.block 4 ≤ cmd.progress ∧ s.cellsReady cmd then s.engDone e.group e.sel e.n 0 else s)
        | .msta => .next (if rows ≤ cmd.progress ∧ cmd.pend = [] then s.engDone e.group e.sel e.n 0 else s)
        | .mlda =>
          .next (if rows ≤ cmd.progress ∧ s.reportThere g cmd.bar cmd.before then
            (s.modGroup e.group fun g => { g with inv := g.inv.filter fun x => !(cmd.targets.contains x) }).engDone e.group e.sel e.n 0
          else s)
        | .macc =>
          if !(s.cellsReady cmd) || !(s.reportThere g cmd.bar cmd.before) then .next s
          else
            let ws := g.maccTile cmd
            .next ((s.modGroup e.group fun g => { g with acc := ssets 0 g.acc ws }).engDone e.group e.sel e.n 0)
        | _ => .next s

/-! ### The end of an MXV (R236) -/

/-- An MXV as it was captured: the descriptor, the block, the active lanes, the record, the inputs. -/
structure MxvRun where
  w : Nat
  cmd : EngCmd
  act : LaneMask
  xs : List Nat

def mxvOf (vals : List Nat) : MxvRun :=
  let b := ((vals.drop 1).take 8).map (BitVec.ofNat 32)
  { w := vals.headD 0
    cmd := { n := 0, op := .mloop, team := 0, tword := 0, block := b, recs := [(0, BitVec.ofNat 128 (vals.getD 10 0))] }
    act := BitVec.ofNat 1024 (vals.getD 9 0)
    xs := vals.drop 11 }

/-- R236, R166: the bytes of a weight row: of each group of 64 plane-stacked weights the planes that are read. -/
def mxvRows (q : MxvRun) (l : Nat) : List OpRange :=
  let k := q.xs.length
  let o : Int := (opOff (bw q.cmd.block 0) : Int) + l * bw q.cmd.block 1
  if xTy q.w = 11 then (List.range ((k + 63) / 64)).map fun (i : Nat) => ⟨0, o + (8 * xSp q.w * i : Nat), 8 * xPl q.w⟩
  else [⟨0, o, (k * mbits (xTy q.w) + 7) / 8⟩]
/-- The row that these bytes make: group i of the plane-stacked weights at bit 64Pi. -/
def mxvJoin (q : MxvRun) (xs : List Nat) : Nat :=
  if xTy q.w = 11 then xs.zipIdx.foldl (fun a x => a + x.1 * 2 ^ (64 * xSp q.w * x.2)) 0 else xs.headD 0
/-- R236: the scale bytes of a row: from that of its first element to that of its last. -/
def mxvScale (q : MxvRun) (l : Nat) : OpRange :=
  let r := mxR (xTy q.w)
  let row := l * bw q.cmd.block 1
  let last := row + (q.xs.length - 1) * mbits (xTy q.w) / 8
  ⟨0, (opOff (bw q.cmd.block 0) : Int) + bw q.cmd.block 5 + (row / r : Nat), last / r - row / r + 1⟩

/-- R236: one output: the row and its scale bytes as read, the row's place from OFFSET. -/
def mxvOut (w : Nat) (xs : List Nat) (place row scales : Nat) : Nat :=
  let ty := xTy w
  let ks := List.range xs.length
  match mtype ty with
  | .flt f =>
    let r := mxR ty
    let term (k : Nat) : FV :=
      let p := prodFV (unpack f32 (xs.getD k 0)) (unpack f (rowElem (mbits ty) row k))
      if mIsMx ty then scaleFVs p [scales / 256 ^ ((place + k * mbits ty / 8) / r - place / r) % 256] else p
    (chunks 32 ks.length ks).foldl (fun y g => combineF y (sumFV (g.map term))) 0
  | .int sg =>
    wrapInt 32 (ks.foldl (fun (a : Int) k => a + intOf true 32 (xs.getD k 0) * intOf sg 8 (rowElem 8 row k)) 0)
  | _ =>
    let p := xPl w
    wrapInt 32 (2 ^ (xSp w - p) * ks.foldl (fun (a : Int) k =>
      a + intOf true 32 (xs.getD k 0) * planeWeight (planesOf (row / 2 ^ (64 * xSp w * (k / 64))) p) p (k % 64)) 0)

/-- What a lane's output needs: its row, and the scales of an MX type. -/
def mxvNeeds (q : MxvRun) (l : Nat) : List OpRange := mxvRows q l ++ if mIsMx (xTy q.w) then [mxvScale q l] else []
/-- Read the rows, and the scales of an MX type, of the lanes. -/
def State.mxvRead (s : State) (g : Group) (q : MxvRun) : List Nat → Except Stopped (State × List Nat)
  | [] => .ok (s, [])
  | l :: ls =>
    match s.opReads g q.cmd (mxvNeeds q l) with
    | .error e => .error e
    | .ok (s, xs) =>
      let n := (mxvRows q l).length
      match s.mxvRead g q ls with
      | .error e => .error e
      | .ok (s, ys) => .ok (s, mxvJoin q (xs.take n) :: xs.drop n ++ ys)

/-- R60, R89, R91: the lines that an instruction reads whole, each range for a lane, are translated together before any is
read. A fault of R91 has the instruction's active lanes (R236); nothing of a local level stands in the way. -/
def State.wholeLines (s : State) (c : Ctx) (cmd : EngCmd) (uniform : Bool) (l : List (Nat × OpRange)) : Formed :=
  match s.formLines c { path := 0, n := 16, uniform := uniform } (groupBy ((l.filter fun p => decide (lvlOf (bw cmd.block p.2.k) = 0)).flatMap
      fun p =>
        let a := opPlace cmd p.2.k p.2.off.toNat
        (List.range ((a + p.2.n + 63) / 64 - a / 64)).map fun i => ((a / 64 + i) % 2 ^ 42, { lane := p.1, off := 0 }))) [] with
  | .trap t code detail lanes => .trap t code detail (if code = 336 then lanes else c.act)
  | r => r

/-- R236: tokens are held, the cells are free, and every MLOOP and MACC that it follows has finished. -/
def State.mxvReady (s : State) (t : Team) (g : Group) (n : Nat) : Bool :=
  (match t.grid with
    | some q => !q.retake && decide (q.tokens ≠ 0) && s.cellsIdle t.core q
    | none => true) &&
  (g.eng (matSel t.quad)).cmds.all fun c => !(decide (c.op = .mloop ∨ c.op = .macc) && c.unfinished && decide (c.n ≤ n))

/-- How an instruction that has read whole goes on: it traps or parks, its group is killed, or `f` ends it. -/
def afterLines (c : Ctx) (f : Formed) (go : State → State) : State :=
  match f with
  | .trap s code detail lanes => (s.raise c.tid c.uid code detail lanes false c.sp.pc).getD s
  | .hold s => s
  | .dead s code => s.groupPath c.grp.id code 0 true true
  | .ok s _ reqs =>
    match reqs.find? fun (r : LineReq) => decide (r.st = .parked) with
    | some r => s.parkSplit c .whole (r.va * 64) 0 false
    | none => go s
/-- R236: an operand could not be read though its lines are there: poisoned data, or the line is on its way. -/
def wholeStops (gid : Nat) (q : Stopped) : State :=
  match q.r with
  | .fail _ => q.s.groupPath gid 337 0 true true
  | .dead code => q.s.groupPath gid code 0 true true
  | _ => q.s

/-- R339: the cells begin the clocks of a split's MXV or RBOX; the values of them follow. -/
def State.beginClocks (s : State) (tid uid n : Nat) : State :=
  { (s.modSplit tid uid fun p => { p with clocked := true }).gridClocks tid n with nonce := s.nonce + 1 }

/-- MXV_FINISH: the cells compute, and after their clocks the weights are read and v[D] is written; or the split parks (R236),
traps, or its group is killed. -/
def execMxvFinish (e : EvSplit) (s : State) : Host.Outcome State Fault Refusal :=
  match s.team? e.team with
  | none => .next s
  | some t =>
    match t.split? e.split, s.group? t.group with
    | some p, some g =>
      (match p.busy with
        | some (.mxv o, n :: v :: vs) =>
          let q0 := mxvOf (v :: vs)
          let q := { q0 with cmd := { q0.cmd with ahead := p.ahead } }
          let c := { mkCtx (.mxv o) t p g s.nonce with act := q.act }
          let lanes := c.lanes.filter fun l => decide (l < bw q.cmd.block 4)
          let path := opPath (bw q.cmd.block 0)
          if !(s.groupRuns g) || decide (t.residence ≠ .resident) || !(s.mxvReady t g n) then .next s
          else match firstFail (lanes.flatMap fun l => (mxvNeeds q l).flatMap (s.opFails g q.cmd false)) with
            | some (k, _) => .next ((s.raise t.id p.uid (memCode path (if k = 2 then 0 else 5)) 0 q.act false p.pc).getD s)
            | none =>
              .next (afterLines c (s.wholeLines c q.cmd false (lanes.flatMap fun l => (mxvNeeds q l).map fun r => (l, r))) fun s =>
               if !p.clocked then s.beginClocks t.id p.uid (1 + Config.openValue 5 s.nonce % 64)
               else
                match s.mxvRead g q lanes with
                | .error x => wholeStops g.id x
                | .ok (s, xs) =>
                  let mx := mIsMx (xTy q.w)
                  let at' (i : Nat) : Nat := xs.getD i 0
                  let ys := lanes.zipIdx.map fun l =>
                    (l.1, mxvOut q.w q.xs (l.1 * bw q.cmd.block 1) (if mx then at' (2 * l.2) else at' l.2) (if mx then at' (2 * l.2 + 1) else 0))
                  (s.wrField c o.d.toNat 32 ys).complete t.id p.uid)
        | _ => .next s)
    | _, _ => .next s

end Sys2Proof.Machine
end

