-- ==== Sys2Proof/Machine/RayNum.lean ====
section
/-!
DEFINITION. Ray arithmetic (R245, R248, R249), the ray record (R250), the micro-ops but for LDN's fetch (R246, R247), and
the build helpers (R261, R262).
-/
namespace Sys2Proof.Machine

/-! ### f32 under RNE -/

def u32 (x : Nat) : FV := unpack f32 x
def fAdd (a b : Nat) : Nat := (addFV f32 rneMode (u32 a) (u32 b) [u32 a, u32 b]).1
def fSub (a b : Nat) : Nat := (addFV f32 rneMode (u32 a) (u32 b).flip [u32 a, u32 b]).1
def fMul (a b : Nat) : Nat := (mulFV f32 rneMode (u32 a) (u32 b)).1
def fMin (a b : Nat) : Nat := (minmaxFV f32 rneMode false (u32 a) (u32 b)).1
def fMax (a b : Nat) : Nat := (minmaxFV f32 rneMode true (u32 a) (u32 b)).1
def isNaN32 (x : Nat) : Bool := (u32 x).isNaN
def isFin32 (x : Nat) : Bool := !(u32 x).isNaN && !(u32 x).isInf
/-- a < b and a ≤ b, false with a NaN. -/
def ltF (a b : Nat) : Bool := !isNaN32 a && !isNaN32 b && fvLtCmp (u32 a) (u32 b)
def leF (a b : Nat) : Bool := !isNaN32 a && !isNaN32 b && !fvLtCmp (u32 b) (u32 a)
def dy32 (x : Nat) : Dy := (u32 x).dy
def rne32 (x : Dy) : Nat := (roundDy f32 rneMode x false).1
/-- The quotient of two exact numbers, rounded once. -/
def rneDiv (f : Fmt) (n d : Dy) : Nat :=
  if n.m = 0 then 0
  else (roundF f rneMode (decide (n.m < 0) != decide (d.m < 0)) n.m.natAbs d.m.natAbs (n.e - d.e) false).1
def canonNaN : Nat := 0x7FC00000
def posInf : Nat := 0x7F800000
def negInf : Nat := 0xFF800000

/-! ### Boxes (R245, R248) -/

/-- R248: three representable values up. -/
def up3 (x : Nat) : Nat :=
  if !isFin32 x then x
  else
    let k : Int := (if x.testBit 31 then -((x % 2 ^ 31 : Nat) : Int) else (x : Int)) + 3
    if k < 0 then 2 ^ 31 + k.natAbs else min k.natAbs posInf

/-- R248: the slab test of one box: the axes' o, inv, lo and hi. -/
def slab (o inv lo hi : List Nat) (tmin tmax : Nat) : Bool :=
  let t (b : List Nat) (a : Nat) : Nat := fMul (fSub (b.getD a 0) (o.getD a 0)) (inv.getD a 0)
  let near (a : Nat) : Nat := if isNaN32 (t lo a) && isNaN32 (t hi a) then negInf else fMin (t lo a) (t hi a)
  let far (a : Nat) : Nat := if isNaN32 (t lo a) && isNaN32 (t hi a) then posInf else fMax (t lo a) (t hi a)
  let tn := fMax (fMax (fMax (near 0) (near 1)) (near 2)) tmin
  let tf := fMin (up3 (fMin (fMin (far 0) (far 1)) (far 2))) tmax
  leF tn tf && (List.range 3).all fun a => leF (lo.getD a 0) (hi.getD a 0)

/-- R248: inv of BOX2. -/
def invOf (d : Nat) : Nat := (rcpFV f32 rneMode (u32 d)).1

/-! ### Triangles (R249) -/

/-- R249: the watertight test: t, and the f16 weights of B and C. -/
def triTest (o d : List Nat) (vs : List (List Nat)) (cull : Nat) : Option (Nat × Nat × Nat) :=
  let od (l : List Nat) (a : Nat) : Dy := dy32 (l.getD a 0)
  if !((o ++ d ++ vs.flatten).all isFin32) || ((List.range 3).all fun a => decide ((od d a).m = 0)) then none
  else
    let big (a b : Nat) : Bool := dyLt (dyAbs (od d a)) (dyAbs (od d b))
    let kz := if big 0 1 then (if big 1 2 then 2 else 1) else (if big 0 2 then 2 else 0)
    let kx0 := (kz + 1) % 3
    let ky0 := (kz + 2) % 3
    let neg := decide ((od d kz).m < 0)
    let kx := if neg then ky0 else kx0
    let ky := if neg then kx0 else ky0
    let sx := rneDiv f32 (od d kx) (od d kz)
    let sy := rneDiv f32 (od d ky) (od d kz)
    let sz := rneDiv f32 (dyOfInt 1) (od d kz)
    let ps := vs.map fun v => (List.range 3).map fun a => fSub (v.getD a 0) (o.getD a 0)
    let qs := ps.map fun p =>
      (rne32 (dySub (od p kx) (dyMul (dy32 sx) (od p kz))), rne32 (dySub (od p ky) (dyMul (dy32 sy) (od p kz))),
        rne32 (dyMul (dy32 sz) (od p kz)))
    if !(([sx, sy, sz] ++ ps.flatten).all isFin32) || !(qs.all fun q => isFin32 q.1 && isFin32 q.2.1 && isFin32 q.2.2) then none
    else
      match qs.map fun q => (dy32 q.1, dy32 q.2.1, dy32 q.2.2) with
      | [(ax, ay, az), (bx, by', bz), (cx, cy, cz)] =>
        let u := dySub (dyMul cx by') (dyMul cy bx)
        let v := dySub (dyMul ax cy) (dyMul ay cx)
        let w := dySub (dyMul bx ay) (dyMul by' ax)
        let l := [u, v, w]
        let det := dySum l
        if ((l.any fun x => decide (x.m < 0)) && (l.any fun x => decide (0 < x.m))) || decide (det.m = 0) ||
            (decide (cull = 1) && decide (det.m < 0)) || (decide (cull = 2) && decide (0 < det.m)) then none
        else
          let t := rneDiv f32 (dySum [dyMul u az, dyMul v bz, dyMul w cz]) det
          let b1 := rneDiv f16 v det
          let b2 := rneDiv f16 w det
          let fin16 (x : Nat) : Bool := decide (x / 1024 % 32 ≠ 31)
          if isFin32 t && fin16 b1 && fin16 b2 then some (t, b1, b2) else none
      | _ => none

/-! ### Layouts and node buffers (R244, R245) -/

structure Layout where
  size : Nat
  boxf : Nat
  nch : Nat
  boxo : Nat
  cho : Nat
  trif : Nat
  ntri : Nat
  trio : Nat
  pido : Nat
  deriving DecidableEq, Repr

def layoutOf (d : Dword) : Layout :=
  let x := d.toNat
  { size := 16 * (x % 16 + 1), boxf := x / 2 ^ 4 % 4, nch := x / 2 ^ 6 % 16, boxo := x / 2 ^ 10 % 256, cho := x / 2 ^ 18 % 256,
    trif := x / 2 ^ 26 % 4, ntri := x / 2 ^ 28 % 16, trio := x / 2 ^ 32 % 256, pido := x / 2 ^ 40 % 256 }

/-- R244: bytes of a triangle. -/
def triStride (f : Nat) : Nat := match f with | 1 => 40 | 2 => 36 | _ => 0
/-- R244: a well-formed descriptor. -/
def layoutOk (d : Dword) : Bool :=
  let l := layoutOf d
  decide (d.toNat / 2 ^ 48 = 0 ∧ l.ntri ≤ 7 ∧ l.trif ≤ 2 ∧ l.nch ≤ 8 ∧ l.boxf ≤ 2) &&
  decide (l.boxo % 4 = 0 ∧ l.cho % 4 = 0 ∧ l.trio % 4 = 0 ∧ l.pido % 4 = 0) &&
  decide ((l.boxf = 0 ↔ l.nch = 0) ∧ (l.trif = 0 ↔ l.ntri = 0) ∧ (l.pido = 0 ∨ l.trif = 2)) &&
  decide ((match l.boxf with | 1 => l.boxo + 24 * l.nch | 2 => l.boxo + 16 + 6 * l.nch | _ => 0) ≤ l.size) &&
  decide (l.cho + 4 * l.nch ≤ l.size ∧ l.trio + l.ntri * triStride l.trif ≤ l.size ∧ (l.trif = 2 → l.pido + 4 ≤ l.size))

/-- R245: the buffer: its bytes, the node it holds (address and layout, as a NODE field), that node's layout. -/
structure NodeBuf where
  bytes : List (Nat × Byte)
  node : Nat
  lay : Layout

def NodeBuf.byte (b : NodeBuf) (a : Nat) : Nat := (sget 0 b.bytes a).toNat
def NodeBuf.word (b : NodeBuf) (a : Nat) : Nat := leNat (sget 0 b.bytes) a 4
/-- R245: child pointer word i, and the NODE field of the child it names. -/
def NodeBuf.ptr (b : NodeBuf) (i : Nat) : Nat := b.word (b.lay.cho + 4 * i)
def NodeBuf.child (b : NodeBuf) (i : Nat) : Nat :=
  let w := b.ptr i
  w % 8 * 2 ^ 48 + wrapInt 48 ((b.node % 2 ^ 48 : Nat) + 16 * intOf true 28 (w / 16))

/-- R245: a bound of a quantized box. -/
def qBound (org q : Nat) (e : Int) (up : Bool) : Nat :=
  if !isFin32 org then org
  else
    let r : RMode := { rneMode with rm := if up then 2 else 3 }
    let zn := if q = 0 ∧ (dy32 org).m = 0 then (u32 org).neg else !up
    (roundDy f32 r (dyAdd (dy32 org) ⟨q, e⟩) zn).1

/-- R245: child i's box. -/
def NodeBuf.box (b : NodeBuf) (i : Nat) : List Nat × List Nat :=
  let l := b.lay
  if l.boxf = 1 then
    ((List.range 3).map fun a => b.word (l.boxo + 24 * i + 4 * a), (List.range 3).map fun a => b.word (l.boxo + 24 * i + 12 + 4 * a))
  else
    let e (a : Nat) : Int := intOf true 8 (b.byte (l.boxo + 12 + a))
    ((List.range 3).map fun a => qBound (b.word (l.boxo + 4 * a)) (b.byte (l.boxo + 16 + 6 * i + a)) (e a) false,
     (List.range 3).map fun a => qBound (b.word (l.boxo + 4 * a)) (b.byte (l.boxo + 19 + 6 * i + a)) (e a) true)

/-- R245: triangle j: its vertices and its identifier. -/
def NodeBuf.tri (b : NodeBuf) (j : Nat) : List (List Nat) × Nat :=
  let o := b.lay.trio + j * triStride b.lay.trif
  ((List.range 3).map fun v => (List.range 3).map fun a => b.word (o + 12 * v + 4 * a),
   if b.lay.trif = 1 then b.word (o + 36) else (b.word b.lay.pido + j) % 2 ^ 32)

/-! ### The ray record (R250) -/

structure RayRec where
  org : List Nat
  tmin : Nat
  dir : List Nat
  tmax : Nat
  bb : Bool := false
  bv : Bool := false
  cand : Bool := false
  z : Bool := false
  h : Nat := 0
  flags : Nat
  status : Nat := 0
  depth : Nat := 0
  upc : Nat := 0
  pid : Nat
  node : Nat
  stack : List Nat := List.replicate 8 0
  bnode : Nat := 0
  hitt : Nat := 0x7F800000
  hitp : Nat := 0xFFFFFFFF
  bary : Nat := 0
  steps : Nat := 0
  fcode : Nat := 0
  deriving DecidableEq, Repr

def RayRec.cull (r : RayRec) : Nat := r.flags / 2 % 4
def RayRec.tfirst (r : RayRec) : Bool := r.flags.testBit 0

/-- R250: read a record from its 32 words. -/
def rayRec (ws : List Word) : RayRec :=
  let w := bwAt ws
  let e (i : Nat) : Nat := w (12 + 2 * i) + w (13 + 2 * i) * 2 ^ 32
  { org := [w 0, w 1, w 2], tmin := w 3, dir := [w 4, w 5, w 6], tmax := w 7,
    bb := (w 8).testBit 27, bv := (w 8).testBit 26, cand := (w 8).testBit 25, z := (w 8).testBit 24, h := w 8 / 2 ^ 16 % 256,
    flags := w 8 % 65536, status := w 9 / 2 ^ 24, depth := w 9 / 2 ^ 20 % 16, upc := w 9 / 256 % 4096, pid := w 9 % 256,
    node := (w 10 + w 11 * 2 ^ 32) % 2 ^ 51, stack := (List.range 8).map fun i => e i % 2 ^ 51,
    bnode := e 0 / 2 ^ 51 + e 1 / 2 ^ 51 * 2 ^ 13 + e 2 / 2 ^ 51 * 2 ^ 26 + e 3 / 2 ^ 51 % 2 ^ 12 * 2 ^ 39,
    hitt := w 28, hitp := w 29, bary := w 30, steps := w 31 / 4096, fcode := w 31 % 512 }
where
  bwAt (ws : List Word) (k : Nat) : Nat := (ws.getD k 0).toNat

/-- R250: write a record as 32 words. -/
def RayRec.words (r : RayRec) : List Word :=
  let bit (b : Bool) (n : Nat) : Nat := if b then 2 ^ n else 0
  let part (i : Nat) : Nat := if i < 3 then r.bnode / 2 ^ (13 * i) % 2 ^ 13 else if i = 3 then r.bnode / 2 ^ 39 % 2 ^ 12 else 0
  let es := (List.range 8).map fun i => r.stack.getD i 0 + part i * 2 ^ 51
  (r.org ++ [r.tmin] ++ r.dir ++ [r.tmax] ++
    [bit r.bb 27 + bit r.bv 26 + bit r.cand 25 + bit r.z 24 + r.h * 2 ^ 16 + r.flags,
     r.status * 2 ^ 24 + r.depth * 2 ^ 20 + r.upc * 256 + r.pid, r.node % 2 ^ 32, r.node / 2 ^ 32] ++
    (es.flatMap fun x => [x % 2 ^ 32, x / 2 ^ 32]) ++ [r.hitt, r.hitp, r.bary, r.steps * 4096 + r.fcode]).map (BitVec.ofNat 32)

/-- R247: a resumed record that is rejected with code 240. -/
def recordBad (ws : List Word) : Bool :=
  let w (k : Nat) : Nat := (ws.getD k 0).toNat
  decide (w 8 / 2 ^ 28 ≠ 0) || decide (w 11 / 2 ^ 19 ≠ 0) || (w 19).testBit 31 ||
  ([21, 23, 25, 27].any fun k => decide (w k / 2 ^ 19 ≠ 0)) || decide (w 31 / 512 % 8 ≠ 0) ||
  ((w 8).testBit 27 && (w 8).testBit 26) || decide (8 < w 9 / 2 ^ 20 % 16) || decide (w 8 / 2 % 4 = 3)

/-- R251: a ray whose origin, direction or interval holds a NaN, or whose interval is empty, ends at its start. -/
def RayRec.degenerate (r : RayRec) : Bool := (r.org ++ r.dir ++ [r.tmin, r.tmax]).any isNaN32 || ltF r.tmax r.tmin

/-- R251: the reset values of a TRACE start. -/
def traceRec (block ray : List Word) : RayRec :=
  let b (k : Nat) : Nat := (block.getD k 0).toNat
  let v (k : Nat) : Nat := (ray.getD k 0).toNat
  { org := [v 0, v 1, v 2], tmin := v 3, dir := [v 4, v 5, v 6], tmax := v 7, flags := b 1 % 65536, pid := b 4 % 256,
    node := (b 2 + b 3 * 2 ^ 32) % 2 ^ 51 }

/-! ### Micro-ops (R246, R247) -/

/-- How a step ends: the ray goes on, or ends with a status; or it faults. -/
inductive Micro where
  | ok (r : RayRec) (ends : Nat)
  | fault (code : Nat)

/-- R246: the fields an op may set. -/
def opMask (op : Nat) : Nat := match op with | 2 => 1 | 5 => 15 | 6 | 7 | 8 => 0xFFF | 10 => 3 | _ => 0

/-- R249: TRI over the node's triangles: the nearest accepted one, the lowest on a tie. -/
def RayRec.nearest (r : RayRec) (b : NodeBuf) (c : Bool) : Option (Nat × Nat × Nat × Nat) :=
  (List.range b.lay.ntri).foldl (fun best j =>
    let (vs, p) := b.tri j
    match triTest r.org r.dir vs r.cull with
    | none => best
    | some (t, b1, b2) =>
      if leF r.tmin t && leF t r.tmax && (c || ltF t r.hitt) then
        match best with
        | some (t', _) => if ltF t t' then some (t, p, b1, b2) else best
        | none => some (t, p, b1, b2)
      else best) none

/-- A move to another node. -/
def RayRec.move (r : RayRec) (node : Nat) : RayRec := { r with node := node, bv := false }

/-- R246: one micro-op other than LDN, of a program of n ops; UPC and STEPS are counted by the caller, except jumps. -/
def RayRec.micro (r : RayRec) (b : NodeBuf) (w n : Nat) : Micro :=
  let op := w / 2 ^ 27
  let f := w % 2 ^ 27
  let next : RayRec := { r with upc := r.upc + 1 }
  let jump (taken : Bool) : Micro :=
    if !taken then .ok next 0 else if n ≤ f then .fault 241 else .ok { r with upc := f } 0
  if 13 ≤ op ∨ Nat.land f (opMask op) ≠ f ∨ (op = 10 ∧ f = 3) then .fault 240
  else if (op = 1 ∨ op = 2 ∨ op = 5) ∧ !r.bv then .fault 251
  else match op with
    | 1 =>
      if b.lay.boxf = 0 then .fault 251
      else
        let inv := r.dir.map invOf
        let h := (List.range b.lay.nch).foldl (fun h i =>
          let (lo, hi) := b.box i
          if b.ptr i ≠ 0 && slab r.org inv lo hi r.tmin r.tmax then h + 2 ^ i else h) 0
        .ok { next with h := h, z := decide (h = 0) } 0
    | 2 =>
      if b.lay.trif = 0 then .fault 251
      else match r.nearest b (decide (f = 1)) with
        | none => .ok { next with z := true } 0
        | some (t, p, b1, b2) =>
          let hit : RayRec := { next with z := false, hitt := t, hitp := p, bary := b2 * 65536 + b1 }
          if f = 1 then .ok { hit with cand := true } 0
          else .ok { hit with tmax := t } (if r.tfirst then 1 else 0)
    | 3 =>
      let ps := ((List.range 8).reverse.filter fun i => r.h.testBit i && decide (b.ptr i ≠ 0)).map b.child
      if 8 < r.depth + ps.length then .fault 242
      else .ok { next with h := 0, depth := r.depth + ps.length,
                           stack := r.stack.take r.depth ++ ps ++ r.stack.drop (r.depth + ps.length) } 0
    | 4 =>
      if r.depth = 0 then .ok { next with z := true } 0
      else .ok { (next.move (r.stack.getD (r.depth - 1) 0)) with depth := r.depth - 1, z := false } 0
    | 5 =>
      if f < 8 then
        if b.lay.nch ≤ f ∨ b.ptr f = 0 then .fault 252 else .ok (next.move (b.child f)) 0
      else match (List.range 8).find? r.h.testBit with
        | none => .ok { next with z := true } 0
        | some i => .ok { (next.move (b.child i)) with h := r.h - 2 ^ i, z := false } 0
    | 6 => jump true
    | 7 => jump r.z
    | 8 => jump (!r.z)
    | 9 => if r.cand then .ok { next with tmax := r.hitt, cand := false, z := false } (if r.tfirst then 1 else 0)
           else .ok { next with z := true } 0
    | 10 => .ok { next with flags := r.flags - r.cull * 2 + f * 2 } 0
    | 11 => .ok next 2
    | _ => .ok next 1

/-! ### Build helpers (R261, R262) -/

/-- R261: BOXU of register k of two boxes, with its flags. -/
def boxuReg (k x y : Nat) : Nat × Nat := minmaxFV f32 rneMode (decide (3 ≤ k)) (u32 x) (u32 y)

/-- R261: SAH of a box and a count. Where one axis has lo > hi and another a NaN, the rule gives both results: the model takes +0
(DESIGN CHOICE, log 33). -/
def sahOf (lo hi : List Nat) (n : Nat) : Nat :=
  let ax := List.range 3
  if ax.any fun a => ltF (hi.getD a 0) (lo.getD a 0) then 0
  else if (lo ++ hi).any isNaN32 then canonNaN
  else
    let w (a : Nat) : Nat := fSub (hi.getD a 0) (lo.getD a 0)
    let two (x : Nat) : Nat := fMul 0x40000000 x
    let a := fAdd (two (fAdd (fMul (w 0) (w 1)) (fMul (w 1) (w 2)))) (two (fMul (w 2) (w 0)))
    match u32 a with
    | .nan .. => canonNaN
    | .inf g => if n = 0 then canonNaN else f32.inf g
    | x => (roundDy f32 rneMode (dyMul x.dy (dyOfInt n)) x.neg).1

/-- R262: the exponent of an axis: the least with extent ≤ 255 × 2^e; none where there is none. -/
def npackExp (ext : Dy) : Option Int :=
  (List.range 256).findSome? fun (k : Nat) =>
    let e : Int := (k : Int) - 128
    if dyLe ext ⟨255, e⟩ then some e else none

/-- R262: NPACK of four boxes, four pointers and two user words: the node's sixteen words as one number, and IV. `free`
gives the bytes that the rule leaves unstated, where an infinity leaves them without a value. -/
def npackOf (free : Nat → Nat) (boxes : List (List Nat)) (ptrs user : List Nat) : Nat × Nat :=
  let nan (i : Nat) : Bool := (boxes.getD i []).any isNaN32
  let present (i : Nat) : Bool := decide (ptrs.getD i 0 ≠ 0) && !nan i
  let live := (List.range 4).filter present
  let iv := if (List.range 4).any fun i => decide (ptrs.getD i 0 ≠ 0) && nan i then fIV else 0
  let lo (i a : Nat) : Nat := (boxes.getD i []).getD a 0
  let hi (i a : Nat) : Nat := (boxes.getD i []).getD (3 + a) 0
  let org (a : Nat) : Nat := match live with | [] => 0 | i :: is => is.foldl (fun m j => fMin m (lo j a)) (lo i a)
  let top (a : Nat) : Nat := match live with | [] => 0 | i :: is => is.foldl (fun m j => fMax m (hi j a)) (hi i a)
  let ex (a : Nat) : Int :=
    if isFin32 (org a) && isFin32 (top a) then (npackExp (dySub (dy32 (top a)) (dy32 (org a)))).getD (-128)
    else intOf true 8 (free a)
  let q (i a : Nat) (up : Bool) : Nat :=
    let x := if up then hi i a else lo i a
    if isFin32 (org a) && isFin32 x then
      let d := dyScale (dySub (dy32 x) (dy32 (org a))) (-(ex a))
      (max 0 (min 255 (if up then dyCeil d else dyFloor d))).toNat
    else if isFin32 (org a) then (if x = posInf then 255 else 0)
    else free (8 + 8 * i + 2 * a + if up then 1 else 0) % 256
  let bytes : List Nat :=
    (List.range 3).flatMap (fun a => (List.range 4).map fun k => org a / 256 ^ k % 256) ++
    (List.range 3).map (fun a => wrapInt 8 (ex a)) ++ [0] ++
    ((List.range 4).flatMap fun i => if present i then
      (List.range 3).map (fun a => q i a false) ++ (List.range 3).map fun a => q i a true else List.replicate 6 0)
  let words := (List.range 4).map (fun i => if present i then ptrs.getD i 0 else 0) ++ user
  (bytes.zipIdx.foldl (fun a p => a + p.1 * 256 ^ p.2) 0 + words.zipIdx.foldl (fun a p => a + p.1 * 2 ^ (32 * p.2)) 0 * 256 ^ 40, iv)

end Sys2Proof.Machine
end

