-- ==== Sys2Proof/Machine/Ray.lean ====
section
/-!
DEFINITION. Rays and the traversal engine (R243 to R258): TRACE, RRES, TPLOAD, RPOLL and what the engine does with them;
RBOX (R260); the build helpers (R261, R262).
-/
namespace Sys2Proof.Machine

/-- R133: the selector of a group's ray context. -/
def raySel : Nat := 3

/-! ### Capacity and acceptance (R243, R251, R252) -/

/-- The engine holds the ray of a command and a lane. -/
def Group.holdsRay (g : Group) (n lane : Nat) : Bool := g.rays.any fun r => decide (r.n = n ∧ r.lane = lane)
/-- R243, R255: the rays of a group accepted and not ended: those not started yet, of a failed command too (R132), and those
the engine holds. A ray that a retry launches again counts from its start on. -/
def Group.rayCount (g : Group) : Nat :=
  (((g.eng raySel).cmds.filter fun c => decide (c.st ≠ .done)).map fun c =>
    ((c.rays.drop (max c.progress c.again)).filter fun r => !(g.holdsRay c.n r.1)).length).sum + g.rays.length
/-- R243: the rays of all groups of a core. -/
def State.coreRays (s : State) (core : Nat) : Nat :=
  ((s.groups.filter fun g => decide (g.core = core) && g.here).map Group.rayCount).sum

/-- R251, R252: a ray command is accepted when the engine has room for its rays. -/
def acceptRays (s : State) (c : Ctx) (d : Byte) (mk : EngCmd → EngCmd) : Res :=
  if c.lanes = [] then .done s
  else if 2048 < s.coreRays c.core + c.lanes.length then c.blocked s []
  else acceptCmd s c raySel d mk

def execTrace (o : FR) (s : State) : Host.Outcome State Fault Refusal := issue (.trace o) s fun s c =>
  let b := c.block o.a 8
  acceptRays s c o.d fun x =>
    { x with op := .trace, block := b, gs := bw b 4 / 256 % 16, bar := b.getD 7 0, yard := yardTargets [bw b 0, bw b 7]
             rays := c.lanes.map fun l => (l, (List.range 8).map fun k => BitVec.ofNat 32 (c.rd .v (o.b.toNat + k) l)) }

def execRres (o : FE) (s : State) : Host.Outcome State Fault Refusal := issue (.rres o) s fun s c =>
  let b := c.block o.a 8
  acceptRays s c o.d fun x =>
    { x with op := .rres, block := b, gs := o.gs.toNat, bar := b.getD 7 0, yard := yardTargets [bw b 0, bw b 7]
             rays := c.lanes.map fun l => (l, []) }

def execTpload (o : FE) (s : State) : Host.Outcome State Fault Refusal := issue (.tpload o) s fun s c =>
  let b := c.block o.a 4
  acceptCmd s c raySel o.d fun x =>
    { x with op := .tpload, block := b, recs := c.opRecs b [0], gs := o.gs.toNat, bar := b.getD 3 0, yard := yardTargets [bw b 0, bw b 3] }

def execRpoll (o : FE) (s : State) : Host.Outcome State Fault Refusal := issue (.rpoll o) s fun s c =>
  let g := s.myGroup c
  .done ((s.modGroup c.grp.id fun g => { g with rayEnded := 0 }).wrG c o.d [g.rayEnded * 65536 + g.rayCount % 65536])

/-! ### Starting commands (R253, R254, R256) -/

/-- R251: the place of lane l's record, as an offset of its level. -/
def rayOff (cmd : EngCmd) (l : Nat) : Nat := offOf (bw cmd.block 0) + 128 * l

/-- R256: kinds 0 to 5 of TRACE and RRES. -/
def State.rayFails (s : State) (g : Group) (cmd : EngCmd) : Fails :=
  let b := cmd.block
  let w := bw b 0
  let f := failIf (decide (lvlOf w = 0 ∨ 4 ≤ lvlOf w ∨ (lvlOf w = 2 ∧ offOf w / 2 ^ 27 ≠ 0))) 0 ++
    failIf (decide (cmd.op = .trace ∧ (65536 ≤ bw b 1 ∨ bw b 1 / 2 % 4 = 3 ∨ 2 ^ 19 ≤ bw b 3 ∨ 4096 ≤ bw b 4 ∨ bw b 5 ≠ 0 ∨ bw b 6 ≠ 0))) 0 ++
    failIf (decide (offOf w % 128 ≠ 0)) 1 (some (offOf w)) ++ s.barFails g cmd.bar cmd.before
  if f.any fun x => decide (x.1 = 0) then f
  else f ++ cmd.rays.flatMap fun r => match s.engRange g (lvlOf w) (rayOff cmd r.1) 128 true cmd.before with
    | .error e => [(e, some (rayOff cmd r.1))]
    | .ok _ => []

/-- R254: the fields of a TPLOAD block. -/
def tpPid (cmd : EngCmd) : Nat := bw cmd.block 1 % 256
def tpNl (cmd : EngCmd) : Nat := bw cmd.block 1 / 256 % 16
def tpOps (cmd : EngCmd) : Nat := bw cmd.block 1 / 4096 % 512
def tpImage (cmd : EngCmd) : OpRange := ⟨0, opOff (bw cmd.block 0), 8 * tpNl cmd + 4 * tpOps cmd⟩

/-- R256: kinds 0 to 5 of TPLOAD before its image is read. -/
def State.tploadFails (s : State) (g : Group) (cmd : EngCmd) : Fails :=
  let b := cmd.block
  let f := failIf (operandBad (bw b 0) || decide (2 ^ 21 ≤ bw b 1 ∨ 8 < tpNl cmd ∨ tpOps cmd = 0 ∨ 256 < tpOps cmd ∨ bw b 2 ≠ 0)) 0 ++
    failIf (decide (opOff (bw b 0) % 8 ≠ 0)) 1 (some (opPlace cmd 0 (opOff (bw b 0)))) ++ s.barFails g cmd.bar cmd.before
  if f.any fun x => decide (x.1 = 0) then f else f ++ s.opFails g cmd false (tpImage cmd)

/-- ENGINE_COMMAND_START of the ray engine. -/
def State.startRay (s : State) (gid : Nat) : State :=
  match s.group? gid with
  | none => s
  | some g =>
    if !(s.groupRuns g) then s
    else match (g.eng raySel).head with
      | none => s
      | some cmd =>
        match g.ruling cmd with
        | .pending => s
        | .no => s.engDiscard gid raySel cmd.n
        | .yes =>
          let paths := barPaths cmd.bar ++ if cmd.op = .tpload then lvlPaths (lvlOf (bw cmd.block 0)) else lvlPaths 0 ++ lvlPaths (lvlOf (bw cmd.block 0))
          if !(s.priorDone cmd paths) then s
          else match firstFail (if cmd.op = .tpload then s.tploadFails g cmd else s.rayFails g cmd) with
            | some (k, loc) => s.engFail gid raySel cmd.n k loc false
            | none => s.modCmd gid raySel cmd.n fun c => { c with st := .started, ahead := [] }

/-! ### Program slots (R243, R254) -/

def State.programOf (s : State) (core asid pid : Nat) : Option (Nat × TProg) :=
  match s.core? core with
  | none => none
  | some k => k.programs.find? fun p => decide (p.2.asid = asid ∧ p.2.pid = pid)

/-- The program a ray in flight names; one that was suspended names it in its record (R258). -/
def State.rayPid (s : State) (r : Ray) : Nat :=
  (if r.words = [] then s.rd r.space (r.addr + 36) 4 else (r.words.getD 9 0).toNat) % 256

/-- R254: a running ray of the core uses the program. -/
def State.programUsed (s : State) (core asid pid : Nat) : Bool :=
  s.groups.any fun g => decide (g.core = core ∧ g.asid = asid) && g.here && g.rays.any fun r => decide (s.rayPid r = pid)

/-- R254: a TPLOAD of the core waits to replace the program, so no ray starts with it. -/
def State.programWaited (s : State) (core asid pid : Nat) : Bool :=
  (s.programOf core asid pid).isSome &&
  s.groups.any fun g => decide (g.core = core ∧ g.asid = asid) && g.here &&
    (g.eng raySel).cmds.any fun c => decide (c.op = .tpload ∧ c.st = .started ∧ c.progress = 0) && decide (tpPid c = pid)

/-- R254: the slot of a TPLOAD, when one qualifies and no running ray uses it. -/
def State.tploadSlot (s : State) (core asid pid : Nat) : Option Nat :=
  match s.core? core with
  | none => none
  | some k =>
    match s.programOf core asid pid with
    | some (i, _) => if s.programUsed core asid pid then none else some i
    | none =>
      match (List.range 8).find? fun i => !(k.programs.any fun p => decide (p.1 = i)) with
      | some i => some i
      | none => k.programSeq.find? fun i => match k.programs.find? fun p => decide (p.1 = i) with
        | some (_, p) => !(s.programUsed core p.asid p.pid)
        | none => false

/-- TPLOAD_SLOT_LOAD: the oldest started TPLOAD of a context reads its image and takes its slot. -/
def execTploadSlotLoad (e : EvGroup) (s : State) : Host.Outcome State Fault Refusal :=
  match s.group? e.group with
  | none => .next s
  | some g =>
    match (g.eng raySel).cmds.find? fun c => decide (c.op = .tpload ∧ c.st = .started ∧ c.progress = 0) with
    | none => .next s
    | some cmd =>
      if !(s.groupRuns g) then .next s
      else match s.opRead g cmd (tpImage cmd) with
        | .error q => .next (q.s.unitStops g raySel cmd.n q.r q.loc 0)
        | .ok (s, x) =>
          let ls := (List.range (tpNl cmd)).map fun i => BitVec.ofNat 64 (x / 2 ^ (64 * i))
          let ops := (List.range (tpOps cmd)).map fun i => BitVec.ofNat 32 (x / 2 ^ (64 * tpNl cmd + 32 * i))
          if !(ls.all layoutOk) then .next (s.engFail e.group raySel cmd.n 0 none false)
          else match s.tploadSlot g.core g.asid (tpPid cmd) with
            | none => .next s
            | some i =>
              let s := s.modCore g.core fun k => { k with
                programs := (k.programs.filter fun p => decide (p.1 ≠ i)) ++ [(i, ⟨g.asid, tpPid cmd, ls, ops⟩)]
                programSeq := k.programSeq.filter (· ≠ i) ++ [i] }
              .next (s.modCmd e.group raySel cmd.n fun c => { c with progress := 1, ahead := [] })

/-! ### Ray starts and ends (R251 to R253) -/

/-- R250: BB and BNODE as the engine writes them. -/
def RayRec.sealed (r : RayRec) (bufNode : Option Nat) : RayRec :=
  match bufNode with
  | some n => if !r.bv ∧ r.h ≠ 0 then { r with bb := true, bnode := n } else { r with bb := false, bnode := 0 }
  | none => { r with bb := false, bnode := 0 }

/-- The record of a ray can be written now: its window is on its core. -/
def State.recordThere (s : State) (sp : Space) : Bool :=
  s.spaceThere sp

/-- R273: a group's engines as an agent. -/
def State.engineAgent (s : State) (gid : Nat) : Agent := .engine (match s.group? gid with | some g => g.core | none => 16) gid

/-- R253, R257: the record is written, but for the 16-byte parts that have been. -/
def State.writeRecord (s : State) (who : Agent) (ray : Ray) (r : RayRec) : State :=
  s.localWrite ray.space ((r.words.zipIdx).flatMap fun w =>
    if ray.parts.contains (w.2 / 4) then [] else cellsOf (ray.addr + 4 * w.2) 4 w.1.toNat) who

/-- R253: a ray ends with a status: its record is written and it leaves the engine. -/
def State.endRay (s : State) (gid : Nat) (ray : Ray) (r : RayRec) : State :=
  let s := s.writeRecord (s.engineAgent gid) ray r
  s.modGroup gid fun g => { g with
    rays := g.rays.filter fun x => !(decide (x.n = ray.n ∧ x.lane = ray.lane))
    rayEnded := if r.status = 2 ∨ r.status = 3 then min 0xFFFF (g.rayEnded + 1) else g.rayEnded }

/-- R250, R252: BB and BNODE of a resumed ray that has not loaded its buffer yet: it counts as holding the node that the record
names, so that the ray goes on from there (log 20). -/
def RayRec.unloaded (r : RayRec) : RayRec := if r.bb && !r.bv && decide (r.h ≠ 0) then r else { r with bb := false, bnode := 0 }

/-- R247: the record of a ray that ends in a fault. That of one that is rejected (code 240) names no buffer; a load that faults
leaves BB as it was (R252). -/
def Ray.faulted (ray : Ray) (r : RayRec) (code : Nat) : RayRec :=
  let r' := { r with status := 3, fcode := code }
  if ray.started then r'.sealed ray.bufNode
  else match code with
    | 240 => r'.sealed none
    | 243 => r'.unloaded
    | _ => r'
def State.faultRay (s : State) (gid : Nat) (ray : Ray) (r : RayRec) (code : Nat) : State := s.endRay gid ray (ray.faulted r code)

/-- R253: the command whose ray starts next: every ray of the earlier ones has started, every earlier TPLOAD is done. -/
def EngCtx.rayNext (x : EngCtx) : Option EngCmd :=
  match x.cmds.find? fun c => !(decide (c.st = .done)) &&
      !(decide (c.st = .started) && decide (c.op ≠ .tpload) && decide (c.rays.length ≤ c.progress)) with
  | some c => if c.st = .started ∧ c.op ≠ .tpload then some c else none
  | none => none

/-- RAY_START: the next ray of a group's ray context starts. -/
def execRayStart (e : EvGroup) (s : State) : Host.Outcome State Fault Refusal :=
  match s.group? e.group with
  | none => .next s
  | some g =>
    match (g.eng raySel).rayNext with
    | none => .next s
    | some cmd =>
      match cmd.rays[cmd.progress]? with
      | none => .next s
      | some (l, vs) =>
        if !(s.groupRuns g) then .next s
        -- R132: a retry does not launch again what is still running
        else if g.holdsRay cmd.n l then .next (s.modCmd e.group raySel cmd.n fun c => { c with progress := c.progress + 1 })
        -- R243: nor is there more than the engine has room for
        else if cmd.progress < cmd.again ∧ 2048 ≤ s.coreRays g.core then .next s
        else match s.engRange g (lvlOf (bw cmd.block 0)) (rayOff cmd l) 128 true cmd.before with
          | .error k => .next (s.engFail e.group raySel cmd.n k (some (rayOff cmd l)) false)
          | .ok (sp, a) =>
            if !(s.recordThere sp) then .next s
            else
              let old := (List.range 32).map fun k => BitVec.ofNat 32 (s.rd sp (a + 4 * k) 4)
              let went (s : State) : State := s.modCmd e.group raySel cmd.n fun c => { c with progress := c.progress + 1 }
              let rec0 := if cmd.op = .trace then traceRec cmd.block vs else rayRec old
              let ray : Ray := { n := cmd.n, lane := l, space := sp, addr := a, words := if cmd.op = .trace then rec0.words else old,
                                 resume := decide (cmd.op = .rres), started := decide (cmd.op = .trace) }
              if cmd.op = .rres ∧ s.isPoisoned sp a 128 then .next (s.engFail e.group raySel cmd.n 6 (some (rayOff cmd l)) false)
              else if cmd.op = .rres ∧ rec0.status ≠ 2 ∧ rec0.status ≠ 3 then .next (went s)
              else
                -- one that ends at once has only its record to write (R257)
                let enter (final : List Word) : State := (went s).modGroup e.group fun g => { g with rays := g.rays ++ [{ ray with final := final }] }
                if cmd.op = .rres ∧ recordBad old then .next (enter (ray.faulted rec0 240).words)
                else if cmd.op = .trace ∧ rec0.degenerate then .next (enter ({ rec0 with status := 1 }.sealed none).words)
                else if (s.programOf g.core g.asid rec0.pid).isNone then .next (enter (ray.faulted rec0 243).words)
                else if s.programWaited g.core g.asid rec0.pid then .next s
                else .next (enter [])

/-! ### Steps (R246, R247, R252) -/

/-- What fetching a node gives. -/
inductive NodeR where
  | busy (s : State)
  | fault (s : State) (code : Nat) (va : Nat)
  | dead (s : State) (code : Nat)
  | ok (s : State) (bytes : List (Nat × Byte))

/-- R247, R257: read the bytes of a node, word by word, but for the parts that have been read. -/
def State.nodeWords (s : State) (g : Group) (ahead : List Ahead) (va : Nat) : Nat → Nat → List (Nat × Byte) → NodeR
  | 0, _, acc => .ok s acc
  | n + 1, o, acc =>
    let a := (va + o) % 2 ^ 48
    match s.lineOf (some g.core) g.asid a { r := true } with
    | (s, .busy) => .busy s
    | (s, .absent) => .fault s 244 a
    | (s, .bad k) => .fault s (if k = 2 then 245 else 246) a
    | (s, .unbacked) => .fault s 246 a
    | (s, .alien) => .dead s 342
    | (s, .ok cc line pte) =>
      match s.unitAt g.core g.id .glob (line * 64 + a % 64) cc (some pte) none with
      | (s, .ok sp as x) => s.nodeWords g ahead va n (o + 4) (acc ++ cellsOf o 4 (overlayAhead ahead sp as x))
      | (s, .fail _) => .fault s 247 a
      | (s, _) => .busy s

/-- R246, R247: fetch a node named as a NODE field, under a program's layouts. -/
def State.fetchNode (s : State) (g : Group) (ahead : List Ahead) (p : TProg) (node : Nat) : NodeR :=
  let va := node % 2 ^ 48
  if va % 16 ≠ 0 then .fault s 248 va
  else match p.layouts[node / 2 ^ 48]? with
    | none => .fault s 250 va
    | some d =>
      match s.nodeWords g ahead va ((layoutOf d).size / 4) 0 [] with
      | .ok s bytes => .ok s (ssets 0 [] bytes)
      | r => r

/-- R247, R89: a node that is not present is reported to the host; the ray does not wait. -/
def State.reportNode (s : State) (g : Group) (code va : Nat) : State :=
  if code = 244 then s.reportFault ⟨.ray, g.asid, va / 64 * 64, 0, false, BitVec.ofNat 32 (2 ^ 31 + g.core * 2 ^ 22 + raySel)⟩
  else s

def State.setRay (s : State) (gid : Nat) (ray : Ray) : State :=
  s.modGroup gid fun g => { g with rays := g.rays.map fun x => if x.n = ray.n ∧ x.lane = ray.lane then ray else x }

/-- R250: the buffer of a ray as the micro-ops read it. -/
def Ray.nodeBuf (ray : Ray) (p : TProg) : NodeBuf :=
  match ray.bufNode with
  | none => { bytes := [], node := 0, lay := layoutOf 0 }
  | some n => { bytes := ray.buf, node := n, lay := layoutOf (p.layouts.getD (n / 2 ^ 48) 0) }

/-- R252, R258: a resumed ray checks its record and loads its buffer; no step. -/
def State.resumeRay (s : State) (g : Group) (ray : Ray) (r : RayRec) (p : TProg) : State :=
  let load (node : Nat) : State :=
    match s.fetchNode g ray.ahead p node with
    | .busy s => s
    | .dead s code => s.groupPath g.id code 0 true true
    | .fault s code va => (s.reportNode g code va).faultRay g.id ray r code
    | .ok s bytes => s.setRay g.id { ray with buf := bytes, bufNode := some node, started := true, ahead := [] }
  if r.bv then load r.node
  else if r.bb then load r.bnode
  else s.setRay g.id { ray with started := true }

/-- R246: one micro-op of a ray. -/
def State.stepRay (s : State) (g : Group) (ray : Ray) (r : RayRec) (p : TProg) : State :=
  if 1048575 ≤ r.steps then s.faultRay g.id ray r 249
  else match p.ops[r.upc]? with
    | none => s.faultRay g.id ray r 241
    | some w =>
      if w.toNat / 2 ^ 27 = 0 then
        if w.toNat ≠ 0 then s.faultRay g.id ray r 240
        else match s.fetchNode g ray.ahead p r.node with
          | .busy s => s
          | .dead s code => s.groupPath g.id code 0 true true
          | .fault s code va => (s.reportNode g code va).faultRay g.id ray r code
          | .ok s bytes =>
            let trif := (layoutOf (p.layouts.getD (r.node / 2 ^ 48) 0)).trif
            let r' := { r with bv := true, z := decide (trif = 0), upc := r.upc + 1, steps := r.steps + 1 }
            s.setRay g.id { ray with words := r'.words, buf := bytes, bufNode := some r.node, ahead := [] }
      else match r.micro (ray.nodeBuf p) w.toNat p.ops.length with
        | .fault code => s.faultRay g.id ray r code
        | .ok r' ends =>
          let r' := { r' with steps := r.steps + 1 }
          if ends = 0 then s.setRay g.id { ray with words := r'.words }
          else s.endRay g.id ray ({ r' with status := ends }.sealed ray.bufNode)

/-- R256: the record of a suspended ray cannot be read. -/
def State.rayPoisoned (s : State) (ray : Ray) : Bool := decide (ray.words = []) && s.isPoisoned ray.space ray.addr 128

/-- R258: a ray whose record stands with STATUS 4 is suspended. -/
def Ray.suspended (ray : Ray) : Ray :=
  { ray with words := [], started := false, resume := true, buf := [], bufNode := none, ahead := [], final := [], parts := [] }

/-- What a ray does next: it ends, or is suspended, with the record that is being written, executes a micro-op, or goes on after a
suspension from its record as it stands (R258). -/
def State.rayStep (s : State) (g : Group) (ray : Ray) : State :=
  if ray.final ≠ [] then
    let r := rayRec ray.final
    if r.status = 4 then (s.writeRecord (s.engineAgent g.id) ray r).setRay g.id ray.suspended else s.endRay g.id ray r
  else if s.rayPoisoned ray then
    -- R256: as for RRES
    let loc := match (g.eng raySel).cmd? ray.n with | some c => rayOff c ray.lane | none => 0
    if ((g.eng raySel).cmd? ray.n).any fun c => !(s.reportThere g c.bar c.before) then s
    else (s.modGroup g.id fun g => { g with rays := g.rays.filter fun x => !(decide (x.n = ray.n ∧ x.lane = ray.lane)) }).engFail
      g.id raySel ray.n 6 (some loc) false
  else
    let ws := if ray.words = [] then (List.range 32).map fun k => BitVec.ofNat 32 (s.rd ray.space (ray.addr + 4 * k) 4) else ray.words
    let r := rayRec ws
    let ray := { ray with words := ws }
    if !ray.started && recordBad ws then s.faultRay g.id ray r 240
    else match s.programOf g.core g.asid r.pid with
      | none => s.faultRay g.id ray r 243
      | some (_, p) => if ray.started then s.stepRay g ray r p else s.resumeRay g ray r p

/-- RAY_MICRO_OP_STEP: the engine executes one micro-op of a ray wholly, or the ray faults. -/
def execRayMicroOpStep (e : EvRay) (s : State) : Host.Outcome State Fault Refusal :=
  match s.group? e.group with
  | none => .next s
  | some g =>
    match g.rays.find? fun r => decide (r.n = e.n ∧ r.lane = e.lane) with
    | none => .next s
    | some ray =>
      if !(s.groupRuns g) || !(s.recordThere ray.space) then .next s
      else
        .next (s.rayStep g ray)

/-- R257, R286: a ray reads a part of the node that its next step, or its resumption, loads. -/
def State.nodeReadTurn (s : State) (gid n lane part : Nat) : State :=
  match s.group? gid with
  | none => s
  | some g =>
    match g.rays.find? fun r => decide (r.n = n ∧ r.lane = lane) with
    | none => s
    | some ray =>
      let r := rayRec ray.words
      match s.programOf g.core g.asid r.pid with
      | none => s
      | some (_, p) =>
        let node : Option Nat :=
          if ray.started then (match p.ops[r.upc]? with | some w => if w = 0 then some r.node else none | none => none)
          else if r.bv then some r.node else if r.bb then some r.bnode else none
        match node with
        | none => s
        | some x =>
          let va := (x + 16 * part) % 2 ^ 48
          let size : Nat := ((p.layouts[x / 2 ^ 48]?).map fun d => (layoutOf d).size).getD 0
          if !(s.groupRuns g) || ray.words.isEmpty || !ray.final.isEmpty || decide (va % 16 ≠ 0) || decide (size ≤ 16 * part) then s
          else match s.unitGlobal g va none 16 with
            | (s, .ok sp as y) =>
              let a := as.headD 0
              if ray.ahead.any fun q => decide (q.space = sp) && decide (q.addr = a) then s
              else s.setRay gid { ray with ahead := ray.ahead ++ [⟨sp, a, 16, y⟩] }
            | (s, _) => s

/-- R257, R258: a part of the record that a ray ends with, or is suspended with, is written before the others. -/
def State.recordPartTurn (s : State) (gid n lane part : Nat) : State :=
  match s.group? gid with
  | none => s
  | some g =>
    match g.rays.find? fun r => decide (r.n = n ∧ r.lane = lane) with
    | none => s
    | some ray =>
      if !(s.recordThere ray.space) || decide (8 ≤ part) || ray.parts.contains part || s.rayPoisoned ray then s
      else
        let write (s : State) (final : List Word) : State :=
          let s := s.localWrite ray.space (((final.zipIdx).filter fun w => decide (w.2 / 4 = part)).flatMap fun w =>
            cellsOf (ray.addr + 4 * w.2) 4 w.1.toNat) (s.engineAgent gid)
          s.setRay gid { ray with final := final, parts := ray.parts ++ [part] }
        if ray.final ≠ [] then (if s.groupRuns g || decide ((rayRec ray.final).status = 4) then write s ray.final else s)
        else if !(s.groupRuns g) then s
        else
          let t := s.rayStep g ray
          -- the step that comes next ends the ray
          match t.group? gid with
          | some h =>
            if h.holdsRay n lane then s
            -- a fault of its step is reported now (R247)
            else write { s with outbox := t.outbox, tickets := t.tickets, faultQ := t.faultQ, nextId := t.nextId }
              ((List.range 32).map fun k => BitVec.ofNat 32 (t.rd ray.space (ray.addr + 4 * k) 4))
          | none => s

/-- ENGINE_COMMAND_COMPLETE of the ray engine: every ray has ended, or the image is in its slot. -/
def Group.rayDone (g : Group) (cmd : EngCmd) : Bool :=
  decide (cmd.st = .started) &&
  (if cmd.op = .tpload then decide (cmd.progress = 1)
   else decide (cmd.rays.length ≤ cmd.progress) && !(g.rays.any fun r => decide (r.n = cmd.n)))

/-! ### RBOX (R260) -/

def execRbox (o : FR) (s : State) : Host.Outcome State Fault Refusal := issue (.rbox o) s fun s c =>
  if c.lanes = [] then .done s
  else
    let b := c.block o.a 8
    let w0 := bw b 0
    let r := BitVec.ofNat 128 (c.rd .b (w0 / 2 ^ 24 % 32) 0)
    if ((List.range 7).any fun k => decide (bw b (k + 1) ≠ 0)) || operandBad w0 then .trap s 21 (encodingDetail c.i) c.act false
    else if lvlOf w0 = 0 ∧ recUnfit r then .trap s 53 0 c.act false
    else if opOff w0 % 16 ≠ 0 then .trap s (memCode (opPath w0) 1) 0 c.act false
    else match c.team.grid with
      | none => .trap s 143 0 c.act false
      | some q =>
        if q.shape ≠ 0 then .trap s 143 0 c.act false
        else withTokens s c (vals := [s.lastBefore c]) fun s =>
          c.blocked s ([s.lastBefore c, w0, r.toNat, c.act.toNat] ++
            c.lanes.flatMap fun l => (List.range 8).map fun k => c.rd .v (o.b.toNat + k) l)

/-- R260: the hit bits of one ray against the 32 boxes, read as one number. -/
def rboxHits (ray : List Nat) (boxes : Nat) : Nat :=
  let w (k : Nat) : Nat := boxes / 2 ^ (32 * k) % 2 ^ 32
  (List.range 32).foldl (fun h j =>
    if slab (ray.take 3) ((ray.drop 3).take 3) [w (6 * j), w (6 * j + 1), w (6 * j + 2)] [w (6 * j + 3), w (6 * j + 4), w (6 * j + 5)]
        (ray.getD 6 0) (ray.getD 7 0) then h + 2 ^ j else h) 0

/-- RBOX_FINISH: the cells compute, and after their clocks the boxes are read and v[D] is written; or the split parks, traps, or
its group is killed (R236). -/
def execRboxFinish (e : EvSplit) (s : State) : Host.Outcome State Fault Refusal :=
  match s.team? e.team with
  | none => .next s
  | some t =>
    match t.split? e.split, s.group? t.group with
    | some p, some g =>
      (match p.busy with
        | some (.rbox o, n :: w0 :: r :: act :: vs) =>
          let act := BitVec.ofNat 1024 act
          let c := { mkCtx (.rbox o) t p g s.nonce with act := act }
          let cmd : EngCmd := { n := 0, op := .mloop, team := 0, tword := 0, block := [BitVec.ofNat 32 w0], recs := [(0, BitVec.ofNat 128 r)], ahead := p.ahead }
          let range : OpRange := ⟨0, opOff w0, 768⟩
          if !(s.groupRuns g) || decide (t.residence ≠ .resident) || !(s.mxvReady t g n) then .next s
          else match firstFail (s.opFails g cmd false range) with
            | some (k, _) => .next ((s.raise t.id p.uid (memCode (opPath w0) (if k = 2 then 0 else 5)) 0 act false p.pc).getD s)
            | none =>
              .next (afterLines c (s.wholeLines c cmd false (c.lanes.map fun l => (l, range))) fun s =>
               -- R260: 8 clocks per mask word with active lanes
               if !p.clocked then s.beginClocks t.id p.uid (8 * (maskWords act t.size).length)
               else
                match s.opRead g cmd range with
                | .error x => wholeStops g.id x
                | .ok (s, boxes) =>
                  let ys := (c.lanes.zip (chunks 8 c.lanes.length vs)).map fun l => (l.1, rboxHits l.2 boxes)
                  (s.wrField c o.d.toNat 32 ys).complete t.id p.uid)
        | _ => .next s)
    | _, _ => .next s

/-- R286: a running MXV or RBOX reads a unit of 4 bytes ahead of its end. -/
def State.splitReadTurn (s : State) (tid uid lv addr : Nat) : State :=
  match s.team? tid with
  | none => s
  | some t =>
    match (t.split? uid).bind (·.busy), s.group? t.group with
    | some (i, n :: _ :: _), some g =>
      let streams := match i with | .mxv _ | .rbox _ => true | _ => false
      if !streams || !(s.groupRuns g) || decide (t.residence ≠ .resident ∨ addr % 4 ≠ 0) || !(s.mxvReady t g n) then s
      else match (if lv = 0 then s.unitGlobal g addr none else s.unitLocal g lv addr none 4 s.nextId) with
        | (s, .ok sp as x) => s.modSplit tid uid fun p =>
            let a := as.headD 0
            if p.ahead.any fun q => decide (q.space = sp) && decide (q.addr = a) then p else { p with ahead := p.ahead ++ [⟨sp, a, 4, x⟩] }
        | (s, _) => s
    | _, _ => s

/-! ### Build helpers (R261, R262) -/

/-- R261: BOXU. The type group of its IV trap, which R174 takes from MODE where the helpers ignore it, is that of f32, 4 (DESIGN
CHOICE, log 33). -/
def execBoxu (o : FE) (s : State) : Host.Outcome State Fault Refusal := issue (.boxu o) s fun s c =>
  let d := o.d.toNat
  arith s c o.d 6 32 (typeGroup 2) (c.rows o.d fun l =>
    (List.range 6).foldl (fun (q : Nat × Nat) k =>
      let (x, fl) := boxuReg k (c.rd .v (d + k) l) (c.rd .v (o.a.toNat + k) l)
      (q.1 + x * 2 ^ (32 * k), Nat.lor q.2 fl)) (0, 0))

def execSah (o : FE) (s : State) : Host.Outcome State Fault Refusal := issue (.sah o) s fun s c =>
  arith s c o.d 1 32 (typeGroup 2) (c.rows o.d fun l =>
    let r (k : Nat) : Nat := c.rd .v (o.a.toNat + k) l
    (sahOf [r 0, r 1, r 2] [r 3, r 4, r 5] (r 6), 0))

def execNpack (o : FE) (s : State) : Host.Outcome State Fault Refusal := issue (.npack o) s fun s c =>
  arith s c o.d 16 32 (typeGroup 2) (c.rows o.d fun l =>
    let r (k : Nat) : Nat := c.rd .v (o.a.toNat + k) l
    npackOf (fun k => Config.openValue (6 + 16 * (64 * l + k)) c.nonce)
      ((List.range 4).map fun i => (List.range 6).map fun k => r (6 * i + k)) [r 24, r 25, r 26, r 27] [r 28, r 29])

end Sys2Proof.Machine
end

