-- ==== Sys2Proof/Machine/Raster.lean ====
section
/-!
DEFINITION. Visibility and the shading atlas (R263 to R272): RAST and the rasteriser, the request pass, ATLNEXT, ATLDONE,
VRSL, VISRD and SAMP.
-/
namespace Sys2Proof.Machine

/-- R133: the selector of a group's rasteriser context. -/
def rastSel : Nat := 4

/-! ### RAST (R265) -/

def execRast (o : FE) (s : State) : Host.Outcome State Fault Refusal := issue (.rast o) s fun s c =>
  let b := c.block o.a 8
  acceptCmd s c rastSel o.d fun x =>
    { x with op := .rast, block := b, recs := c.opRecs b [1, 3], gs := o.gs.toNat, bar := b.getD 7 0,
             yard := yardTargets [bw b 1, bw b 3, bw b 7] }

/-- R265: the fields of the block. -/
def rMode (cmd : EngCmd) : Nat := bw cmd.block 0 % 4
def rScnt (x : Nat) : Nat := 2 ^ (x / 4 % 4)
def rS (cmd : EngCmd) : Nat := rScnt (bw cmd.block 0)
def rW (cmd : EngCmd) : Nat := bw cmd.block 2 % 65536
def rH (cmd : EngCmd) : Nat := bw cmd.block 2 / 65536
/-- The samples of the buffer, and where sample k lies. -/
def rTotal (cmd : EngCmd) : Nat := rW cmd * rH cmd * rS cmd
def rSample (cmd : EngCmd) (k : Nat) : OpRange := ⟨1, (opOff (bw cmd.block 1) + 16 * k : Nat), 16⟩

/-- R265: kinds 0 to 5. A W, an H or a list capacity outside its limits is taken as a reserved value, kind 0 (DESIGN CHOICE,
log 33). -/
def State.rastFails (s : State) (g : Group) (cmd : EngCmd) : Fails :=
  let b := cmd.block
  let m := rMode cmd
  let dim (x : Nat) : Bool := decide (x = 0 ∨ 16384 < x)
  let al (k : Nat) : Bool := lvlOf (bw b k) = 0 && decide (bufBase (opRec cmd k) % 16 ≠ 0)
  let f := failIf (decide (16 ≤ bw b 0 ∨ bw b 0 / 4 = 3 ∨ 2 ≤ m) || operandBad (bw b 1) || operandBad (bw b 3) || dim (rW cmd) || dim (rH cmd)) 0 ++
    failIf (decide (m = 1 ∧ (bw b 4 = 0 ∨ 0xFFFFFE < bw b 4 ∨ bw b 5 ≠ 0 ∨ bw b 6 ≠ 0))) 0 ++
    failIf (decide (opOff (bw b 1) % 16 ≠ 0) || al 1) 1 (some (opPlace cmd 1 (opOff (bw b 1)))) ++
    failIf (decide (opOff (bw b 3) % 16 ≠ 0) || (decide (m = 1) && al 3)) 1 (some (opPlace cmd 3 (opOff (bw b 3)))) ++
    s.barFails g cmd.bar cmd.before
  if f.any fun x => decide (x.1 = 0) then f
  else f ++ s.opFails g cmd true ⟨1, opOff (bw b 1), 16 * rTotal cmd⟩ ++
    (if m = 1 then s.opFails g cmd true ⟨3, opOff (bw b 3), 16 * bw b 4⟩
     -- of no triangle there is nothing out of bounds
     else (s.opFails g cmd false ⟨3, opOff (bw b 3), 48 * bw b 4⟩).filter fun f => decide (f.1 ≠ 2 ∨ bw b 4 ≠ 0))

/-- R268: the request list is free to be claimed. -/
def AtlasCtx.listFree (a : AtlasCtx) : Bool := a.list.isNone || (decide (a.doneSet.length = a.count) && !a.generating)

/-- R131: a RAST fails; a request pass that fails generates no more. -/
def State.rastFail (s : State) (gid n k : Nat) (loc : Option Nat) (pass : Bool) : State :=
  let s := s.engFail gid rastSel n k loc false
  if pass ∧ ((s.group? gid).bind fun g => (g.eng rastSel).cmd? n).any (fun c => decide (c.st = .failed)) = true then s.modGroup gid fun g => { g with atlas := { g.atlas with generating := false } } else s

/-- The start of the head of a rasteriser context, of one mode. -/
def State.startRast (s : State) (gid : Nat) (pass : Bool) : State :=
  match s.group? gid with
  | none => s
  | some g =>
    let x := g.eng rastSel
    let busy := x.cmds.any fun c => decide (c.st = .started)
    if !(s.groupRuns g) then s
    else match x.head with
      | none => s
      | some cmd =>
        if decide (rMode cmd = 1) != pass then s
        else match g.ruling cmd with
          | .pending => s
          -- R124: a discard waits for nothing
          | .no => s.engDiscard gid rastSel cmd.n
          | .yes =>
            if busy || !(s.priorDone cmd (barPaths cmd.bar ++ lvlPaths (lvlOf (bw cmd.block 1)) ++ lvlPaths (lvlOf (bw cmd.block 3)))) then s
            else match firstFail (s.rastFails g cmd) with
              | some (k, loc) => s.engFail gid rastSel cmd.n k loc false
              | none =>
                if pass && !g.atlas.listFree then s
                else
                  let s := s.modCmd gid rastSel cmd.n fun c => { c with st := .started, ahead := [] }
                  if pass then s.modGroup gid fun g => { g with
                    atlas := { list := some (BitVec.ofNat 32 (bw cmd.block 3), cmd.recs), generating := true } }
                  else s

/-- RAST_COMMAND_START. -/
def execRastCommandStart (e : EvGroup) (s : State) : Host.Outcome State Fault Refusal := .next (s.startRast e.group false)
/-- REQUEST_PASS_START. -/
def execRequestPassStart (e : EvGroup) (s : State) : Host.Outcome State Fault Refusal := .next (s.startRast e.group true)

/-! ### Shading rates (R271) -/

/-- R271: the rate code of a pixel's tile. -/
def RastCtx.code (r : RastCtx) (x y : Nat) : Nat :=
  match r.map with
  | none => 0
  | some m => if x / 16 < m.tw ∧ y / 16 < m.th then m.codes.getD (y / 16 * m.tw + x / 16) 0 else 0

/-- R271: the staged map latches; the results it owes are LSEQ. -/
def State.latchMap (s : State) (gid : Nat) : State :=
  match s.group? gid with
  | none => s
  | some g =>
    match g.rast.staged with
    | none => s
    | some (m, owed) =>
      let s := owed.foldl (fun (s : State) o => s.answer o.1 o.2 g.rast.lseq) s
      s.modGroup gid fun g => { g with rast := { g.rast with map := some m, staged := none } }

/-- R271: the context stands at a primitive boundary: no triangle is begun. -/
def Group.atBoundary (g : Group) : Bool :=
  !((g.eng rastSel).cmds.any fun c => decide (c.st = .started ∨ c.st = .parked) && decide (rMode c = 0) && !c.rays.isEmpty)

/-- VRSL_LATCH. -/
def execVrslLatch (e : EvGroup) (s : State) : Host.Outcome State Fault Refusal :=
  match s.group? e.group with
  | none => .next s
  | some g => .next (if g.atBoundary && s.groupRuns g then s.latchMap e.group else s)

/-! ### Triangles (R266, R267) -/

/-- R267: the offset of a sample in its pixel, in eighths. -/
def sampleAt (n s : Nat) : Nat × Nat :=
  match n, s with
  | 2, 0 => (2, 2)
  | 2, _ => (6, 6)
  | 4, 0 => (3, 1)
  | 4, 1 => (7, 3)
  | 4, 2 => (1, 5)
  | 4, _ => (5, 7)
  | _, _ => (4, 4)

/-- A triangle ready to be covered: its vertices ordered so that the area is positive, the area, FRONT. -/
structure Tri where
  vs : List (Dy × Dy × Dy)
  area : Dy
  front : Bool

/-- The edge function of a to b at p. -/
def edge (a b p : Dy × Dy) : Dy :=
  dySub (dyMul (dySub b.1 a.1) (dySub p.2 a.2)) (dyMul (dySub b.2 a.2) (dySub p.1 a.1))

/-- R267 step 1: the triangle of three vertices' words, none when it covers nothing. -/
def triOf (ws : List Word) : Option Tri :=
  let w (k : Nat) : Nat := (ws.getD k 0).toNat
  if !([0, 1, 2, 4, 5, 6, 8, 9, 10].all fun k => isFin32 (w k)) then none
  else
    let v (i : Nat) : Dy × Dy × Dy := (dy32 (w (4 * i)), dy32 (w (4 * i + 1)), dy32 (w (4 * i + 2)))
    let xy (q : Dy × Dy × Dy) : Dy × Dy := (q.1, q.2.1)
    let a := edge (xy (v 0)) (xy (v 1)) (xy (v 2))
    if a.m = 0 then none
    else if 0 < a.m then some ⟨[v 0, v 1, v 2], a, true⟩
    else some ⟨[v 0, v 2, v 1], dyNeg a, false⟩

/-- R267 steps 3 and 4: the depth of a covered point, none when it is not covered. -/
def Tri.depthAt (t : Tri) (p : Dy × Dy) : Option Nat :=
  match t.vs with
  | [a, b, c] =>
    let xy (q : Dy × Dy × Dy) : Dy × Dy := (q.1, q.2.1)
    let cov (u v : Dy × Dy × Dy) : Bool :=
      let e := edge (xy u) (xy v) p
      let dy := dySub v.2.1 u.2.1
      let dx := dySub v.1 u.1
      decide (0 < e.m) || (decide (e.m = 0) && (decide (0 < dy.m) || (decide (dy.m = 0) && decide (dx.m < 0))))
    if cov a b && cov b c && cov c a then
      some (rneDiv f32 (dySum [dyMul (edge (xy b) (xy c) p) a.2.2, dyMul (edge (xy c) (xy a) p) b.2.2, dyMul (edge (xy a) (xy b) p) c.2.2]) t.area)
    else none
  | _ => none

/-- The point of sample s of pixel (x, y). -/
def samplePoint (n x y s : Nat) : Dy × Dy := (⟨8 * x + (sampleAt n s).1, -3⟩, ⟨8 * y + (sampleAt n s).2, -3⟩)

/-- R267: the pixels a triangle may cover, clipped to W and H: first and end of x and of y. -/
def Tri.bounds (t : Tri) (w h : Nat) : (Nat × Nat) × (Nat × Nat) :=
  let clip (lo hi : Int) (n : Nat) : Nat × Nat := ((max 0 lo).toNat, min n (max 0 (hi + 1)).toNat)
  let lo (l : List Int) : Int := l.foldl min (l.headD 0)
  let hi (l : List Int) : Int := l.foldl max (l.headD 0)
  let xs := t.vs.map fun v => dyFloor v.1
  let ys := t.vs.map fun v => dyFloor v.2.1
  (clip (lo xs) (hi xs) w, clip (lo ys) (hi ys) h)

/-- R267: the covered samples of a triangle: sample number and depth, in ascending order. -/
def Tri.covered (t : Tri) (cmd : EngCmd) : List (Nat × Nat) :=
  let n := rS cmd
  let ((x0, x1), (y0, y1)) := t.bounds (rW cmd) (rH cmd)
  (List.range (y1 - y0)).flatMap fun y => (List.range (x1 - x0)).flatMap fun x => (List.range n).filterMap fun s =>
    (t.depthAt (samplePoint n (x0 + x) (y0 + y) s)).map fun d => (((y0 + y) * rW cmd + x0 + x) * n + s, d)

/-- R266: the content that a triangle leaves in a sample. -/
def Tri.content (t : Tri) (cmd : EngCmd) (r : RastCtx) (prim k d : Nat) : Nat :=
  let n := rS cmd
  let x := k / n % rW cmd
  let y := k / n / rW cmd
  let cov := (List.range n).foldl (fun c s => if (t.depthAt (samplePoint n x y s)).isSome then c + 2 ^ s else c) 0
  prim + d * 2 ^ 64 + (0xFFFFFF * 256 + 128 + (if t.front then 64 else 0) + r.code x y * 16 + cov) * 2 ^ 96

/-- R266: fields of a sample read as one number. -/
def visValid (x : Nat) : Bool := x.testBit 103
def visDepth (x : Nat) : Nat := x / 2 ^ 64 % 2 ^ 32
def visBlk (x : Nat) : Nat := x / 2 ^ 104 % 2 ^ 24
def visRate (x : Nat) : Nat := x / 2 ^ 100 % 4

/-- How the samples of a triangle came out: the state, how many were replaced, and, when they stopped, why, where and what is
left. -/
structure Covering where
  s : State
  wrote : Nat := 0
  stop : Option (UnitR × Nat × Nat) := none
  left : List Nat := []

/-- R267 step 5: update the samples one after the other, each as one compare-and-replace. -/
def State.updateSamples (s : State) (g : Group) (cmd : EngCmd) (t : Tri) (prim : Nat) : List Nat → Covering
  | [] => { s := s }
  | k :: ks =>
    let x := k / rS cmd % rW cmd
    let y := k / rS cmd / rW cmd
    let d := (t.depthAt (samplePoint (rS cmd) x y (k % rS cmd))).getD 0
    let a := opPlace cmd 1 (rSample cmd k).off.toNat
    match s.opUnit g cmd 1 a none 16 true (.unit g.id rastSel cmd.n) with
    | (s, .ok _ _ old) =>
      if !(visValid old) || ltF d (visDepth old) then
        match s.opUnit g cmd 1 a (some (t.content cmd g.rast prim k d)) 16 true (.unit g.id rastSel cmd.n) with
        | (s, .ok ..) => let q := s.updateSamples g cmd t prim ks; { q with wrote := q.wrote + 1 }
        | (s, r) => { s := s, stop := some (r, a, 1), left := k :: ks }
      else s.updateSamples g cmd t prim ks
    | (s, r) => { s := s, stop := some (r, a, 0), left := k :: ks }

/-- RAST_TRIANGLE: the rasteriser reads the next triangle's vertices and updates the samples it covers. -/
def execRastTriangle (e : EvGroup) (s : State) : Host.Outcome State Fault Refusal :=
  match s.group? e.group with
  | none => .next s
  | some g =>
    match (g.eng rastSel).cmds.find? fun c => decide (c.st = .started) with
    | none => .next s
    | some cmd =>
      if !(s.groupRuns g) || decide (rMode cmd ≠ 0) || decide (bw cmd.block 4 ≤ cmd.progress) then .next s
      else
        let s := if cmd.rays.isEmpty then s.latchMap e.group else s
        let g := (s.group? e.group).getD g
        let fetched : Except Stopped (State × List Word × List Nat) :=
          match cmd.rays with
          | (_, ws) :: _ => .ok (s, ws, cmd.idx)
          | [] =>
            match s.opRead g cmd ⟨3, (opOff (bw cmd.block 3) + 48 * cmd.progress : Nat), 48⟩ with
            | .error q => .error q
            | .ok (s, x) =>
              let ws := (List.range 12).map fun k => BitVec.ofNat 32 (x / 2 ^ (32 * k))
              .ok (s, ws, match triOf ws with | some t => (t.covered cmd).map (·.1) | none => [])
        match fetched with
        | .error q => .next (q.s.unitStops g rastSel cmd.n q.r q.loc 0)
        | .ok (s, ws, todo) =>
          let prim := (bw cmd.block 5 + bw cmd.block 6 * 2 ^ 32 + cmd.progress) % 2 ^ 64
          let r : Covering := match triOf ws with
            | some t => s.updateSamples g cmd t prim todo
            | none => { s := s }
          match r.stop with
          | some (u, a, path) =>
            let s := r.s.modCmd e.group rastSel cmd.n fun c => { c with rays := [(cmd.progress, ws)], idx := r.left, moved := c.moved + 16 * r.wrote }
            .next (s.unitStops g rastSel cmd.n u a path)
          | none =>
            let s := r.s.modCmd e.group rastSel cmd.n fun c => { c with
              rays := [], idx := [], progress := cmd.progress + 1, moved := c.moved + 16 * r.wrote, ahead := [] }
            let s := s.modGroup e.group fun g => { g with rast := { g.rast with lseq := (g.rast.lseq + 1) % 2 ^ 32 } }
            .next (s.latchMap e.group)

/-! ### The request pass (R268) -/

/-- R266: the rate a code stands for; 3 is not one, and what it stands for is left open. -/
def rateOf (code nonce : Nat) : Nat := match code with | 0 => 1 | 1 => 2 | 2 => 4 | _ => Config.openValue 7 nonce % 65536

/-- R268: the key of a sample at pixel (x, y). -/
def keyOf (v x y nonce : Nat) : List Nat :=
  let r := rateOf (visRate v) nonce
  [v % 2 ^ 64, r, x / (8 * r), y / (8 * r)]

/-- REQUEST_PASS_SAMPLE: the pass takes its next sample. -/
def execRequestPassSample (e : EvGroup) (s : State) : Host.Outcome State Fault Refusal :=
  match s.group? e.group with
  | none => .next s
  | some g =>
    match (g.eng rastSel).cmds.find? fun c => decide (c.st = .started) with
    | none => .next s
    | some cmd =>
      let k := cmd.progress
      if !(s.groupRuns g) || decide (rMode cmd ≠ 1) || decide (rTotal cmd ≤ k) then .next s
      else
        let stops (s : State) (r : UnitR) (a path : Nat) : State :=
          match r with
          | .fail kind => s.rastFail e.group cmd.n kind (some a) true
          | r => s.unitStops g rastSel cmd.n r a path
        let went (s : State) : State :=
          let s := s.modCmd e.group rastSel cmd.n fun c => { c with progress := k + 1, moved := c.moved + 16, ahead := [] }
          if k + 1 = rTotal cmd then s.modGroup e.group fun g => { g with atlas := { g.atlas with generating := false } } else s
        let a := opPlace cmd 1 (rSample cmd k).off.toNat
        match s.opUnit g cmd 1 a none 16 with
        | (s, .ok _ _ v) =>
          if !(visValid v) then .next (went s)
          else
            let x := k / rS cmd % rW cmd
            let y := k / rS cmd / rW cmd
            let key := keyOf v x y s.nonce
            let seen := g.atlas.keys.find? fun q => decide (q.1 = key)
            let n := g.atlas.count
            -- R268: the first occurrence of a key writes its request
            let req : State × UnitR :=
              match seen with
              | some _ => (s, .ok .glob [] 0)
              | none =>
                let at' := opPlace cmd 3 (opOff (bw cmd.block 3) + 16 * n)
                s.opUnit g cmd 3 at' (some (v % 2 ^ 64 + (visRate v * 2 ^ 30 + key.getD 3 0 % 2 ^ 15 * 2 ^ 15 + key.getD 2 0 % 2 ^ 15) * 2 ^ 64)) 16
            if seen = none ∧ bw cmd.block 4 ≤ n then .next (s.rastFail e.group cmd.n 2 (some (opPlace cmd 3 (opOff (bw cmd.block 3) + 16 * n))) true)
            else match req with
              | (s, .ok ..) =>
                let s := if seen.isSome then s else s.modGroup e.group fun g => { g with
                  atlas := { g.atlas with count := n + 1, keys := g.atlas.keys ++ [(key, n)] } }
                let b := match seen with | some (_, i) => i | none => n
                (match s.opUnit g cmd 1 (a + 12) (some (b * 256 + v / 2 ^ 96 % 256)) with
                  | (s, .ok ..) => .next { went s with nonce := s.nonce + 1 }
                  | (s, r) => .next (stops s r (a + 12) 1))
              | (s, r) => .next (stops s r (opPlace cmd 3 (opOff (bw cmd.block 3) + 16 * n)) 1)
        | (s, r) => .next (stops s r a 0)

/-- R268, R267: a RAST has done all its work. -/
def Group.rastDone (g : Group) (cmd : EngCmd) : Bool :=
  decide (cmd.st = .started) &&
  (if rMode cmd = 1 then decide (rTotal cmd ≤ cmd.progress) && !g.atlas.generating && decide (g.atlas.doneSet.length = g.atlas.count)
   else decide (bw cmd.block 4 ≤ cmd.progress))

/-! ### ATLNEXT, ATLDONE (R269, R270) -/

/-- A precise read of an engine-style operand by a team, whole: it waits, parks, traps on path 0, or kills the group. -/
def readWhole (s : State) (c : Ctx) (cmd : EngCmd) (r : OpRange) (path : Nat) (f : State → Nat → Res) : Res :=
  match s.wholeLines c cmd true [(0, r)] with
  | .trap s code detail lanes => .trap s code detail lanes false
  | .hold s => .hold s
  | .dead s code => .hold (s.groupPath c.grp.id code 0 true true)
  | .ok s _ reqs =>
    match reqs.find? fun (r : LineReq) => decide (r.st = .parked) with
    | some r => .jump (s.parkSplit c .whole (r.va * 64) path false)
    | none =>
      match s.opRead (s.myGroup c) cmd r with
      | .ok (s, x) => f s x
      | .error q =>
        match q.r with
        | .fail 2 => .trap q.s (memCode path 0) 0 c.act false
        | .fail 5 => .trap q.s (memCode path 5) 0 c.act false
        | _ => .hold (wholeStops c.grp.id q)

/-- R269: the pixel of a lane's texel. -/
def texelPixel (by' bx r l : Nat) : Nat :=
  (by' * 8 * r + l / 8 * r) % 65536 * 65536 + (bx * 8 * r + l % 8 * r) % 65536

def execAtlnext (o : FE) (s : State) : Host.Outcome State Fault Refusal := issue (.atlnext o) s fun s c =>
  let a := (s.myGroup c).atlas
  if c.team.size ≠ 64 then .trap s 256 0 c.act false
  else
    -- b, where it has been taken and its request could not be read yet
    let held : Option Nat := match c.sp.busy with | some (.atlnext _, [b]) => some b | _ => none
    match held, a.list with
    | none, none => if a.generating then c.blocked s [] else .done (s.wrG c o.d [0xFFFFFFFF])
    | some _, none => .done (s.wrG c o.d [0xFFFFFFFF])
    | _, some (w, recs) =>
     if held.isNone ∧ a.count ≤ a.next then (if a.generating then c.blocked s [] else .done (s.wrG c o.d [0xFFFFFFFF]))
     else
      let b := held.getD a.next
      let keep (s : State) : State := s.modSplit c.tid c.uid fun p => { p with busy := some (c.i, [b]) }
      let s := if held.isSome then s else s.modGroup c.grp.id fun g => { g with atlas := { g.atlas with next := a.next + 1 } }
      let cmd : EngCmd := { n := 0, op := .rast, team := 0, tword := 0, block := [0, 0, 0, w], recs := recs, before := s.nextId }
      let read := readWhole s c cmd ⟨3, (opOff w.toNat + 16 * b : Nat), 16⟩ 0 fun s q =>
        let word := q / 2 ^ 64 % 2 ^ 32
        let r := rateOf (word / 2 ^ 30) c.nonce
        let s := s.wrG c o.d [b, q % 2 ^ 32, q / 2 ^ 32 % 2 ^ 32, word]
        .done (s.wrField c o.a.toNat 32 (c.lanes.map fun l => (l, texelPixel (word / 2 ^ 15 % 2 ^ 15) (word % 2 ^ 15) r l)))
      match read with
      | .jump s => .jump (keep s)
      | .hold s => .hold (keep s)
      -- R9: b has been handed out
      | .trap s code detail lanes skip => .trap (s.modSplit c.tid c.uid fun p => { p with busy := none }) code detail lanes skip
      | r => r

def execAtldone (o : FE) (s : State) : Host.Outcome State Fault Refusal := issue (.atldone o) s fun s c =>
  let a := (s.myGroup c).atlas
  let b := c.g o.a
  if c.team.size ≠ 64 then .trap s 256 0 c.act false
  else if a.next ≤ b ∨ a.doneSet.contains b then .trap s 257 (b % 65536) c.act false
  else if !(s.teamPerformed c.tid) then .hold s
  else .done (s.modGroup c.grp.id fun g => { g with atlas := { g.atlas with doneSet := g.atlas.doneSet ++ [b] } })

/-! ### VRSL (R271) -/

/-- R271: a mode-0 RAST runs. -/
def Group.rasterising (g : Group) : Bool :=
  (g.eng rastSel).cmds.any fun c => decide (c.st = .started ∨ c.st = .parked) && decide (rMode c = 0)

/-- R271: a map that has been read is staged, and latches at once where no mode-0 RAST runs. -/
def stageMap (s : State) (c : Ctx) (d : Byte) (tw th : Nat) (bytes : List Nat) : Res :=
  if bytes.any fun b => decide (3 ≤ b) then .trap s 258 0 c.act false
  else
    let g := s.myGroup c
    let m : RateMap := ⟨tw, th, bytes⟩
    if !g.rasterising then
      -- one staged before would have latched at the last boundary
      let s := s.latchMap g.id
      .done ((s.modGroup c.grp.id fun g => { g with rast := { g.rast with map := some m } }).wrG c d [g.rast.lseq])
    else
      let (tok, s) := s.oweG c d
      let owed := match g.rast.staged with | some (_, l) => l | none => []
      .done (s.modGroup c.grp.id fun g => { g with rast := { g.rast with staged := some (m, owed ++ [(c.tid, tok)]) } })

def execVrsl (o : FE) (s : State) : Host.Outcome State Fault Refusal := issue (.vrsl o) s fun s c =>
  let b := c.block o.a 4
  let w := bw b 0
  let tw := bw b 1 % 65536
  let th := bw b 1 / 65536
  let n := tw * th
  let r := BitVec.ofNat 128 (c.rd .b (w / 2 ^ 24 % 32) 0)
  let cmd : EngCmd := { n := 0, op := .rast, team := 0, tword := 0, block := b, recs := [(0, r)], before := s.nextId }
  if operandBad w ∨ n = 0 ∨ 65536 < n ∨ bw b 2 ≠ 0 ∨ bw b 3 ≠ 0 then .trap s 21 (encodingDetail c.i) c.act false
  else
   -- R125: it counts on path 0 while it is parked
   let s := match c.sp.busy with | some (.vrsl _, [id]) => s.cancelFlight id | _ => s
   let count (r : Res) : Res :=
     match r with
     | .jump s =>
       let (id, s) := s.fresh
       let f : Flight := { id := id, team := c.tid, split := c.uid, path := 0, kind := .load 0, n := 1, pc := c.sp.pc, lanes := c.act, uniform := true,
                           reqs := [{ space := .glob, line := 0, lanes := [], st := .parked }] }
       .jump ((s.launch f none).modSplit c.tid c.uid fun p => { p with busy := some (c.i, [id]) })
     | r => r
   s.onPath c 0 fun _ => count <|
    if c.sp.fence.isSome || !(s.allPerformed c.tid c.uid) then .hold s
    else if lvlOf w = 0 ∧ recUnfit r then .trap s (memCode 0 5) 0 c.act false
    else if lvlOf w = 0 ∧ bufExtent r * bufS r < opOff w + n then
      if bufTb r then .trap s (memCode 0 0) 0 c.act false
      else stageMap (s.modTeam c.tid fun t => t.stick bBOUND) c o.d tw th (List.replicate n 0)
    -- R218
    else if opOff w % 8 ≠ 0 then .trap s (memCode 0 1) 0 c.act false
    else match (if lvlOf w = 0 then s.watchpoint c 0 n false true [(0, (bufBase r + opOff w) % 2 ^ 48)] else none) with
     | some (k, _) => .trap s 160 k c.act false
     | none => match firstFail (s.opFails (s.myGroup c) cmd false ⟨0, opOff w, n⟩) with
      | some (k, _) => .trap s (memCode 0 (if k = 2 then 0 else 5)) 0 c.act false
      | none => readWhole s c cmd ⟨0, opOff w, n⟩ 0 fun s x => stageMap s c o.d tw th ((List.range n).map fun i => x / 256 ^ i % 256)

/-! ### VISRD, SAMP (R272) -/

/-- R272, R76: form the accesses of lanes to an operand word: per lane a byte offset, none when it is out of bounds. -/
def State.formOperand (s : State) (c : Ctx) (w n : Nat) (offs : List (Option Nat × LaneAcc)) : Formed :=
  let a : AccSpec := { path := 7, n := n }
  let lanesOf (l : List (Option Nat × LaneAcc)) : LaneMask := maskOf 1024 (l.map (·.2.lane))
  if lvlOf w = 0 then
    let r := BitVec.ofNat 128 (c.rd .b (w / 2 ^ 24 % 32) 0)
    if recUnfit r then .trap s (memCode 7 5) 0 c.act
    else
      let inb (o : Option Nat × LaneAcc) : Bool := match o.1 with | some x => decide (x + n ≤ bufExtent r * bufS r) | none => false
      let out := offs.filter fun o => !(inb o)
      if out ≠ [] ∧ bufTb r then .trap s (memCode 7 0) 0 (lanesOf out)
      else
        let s := if out = [] then s else s.modTeam c.tid fun t => t.stick bBOUND
        let sup := (out.map (·.2.lane)).eraseDups
        let ins := (offs.filter inb).filter fun o => !(sup.contains o.2.lane)
        let va (o : Option Nat × LaneAcc) : Nat := (bufBase r + o.1.getD 0) % 2 ^ 48
        let mis := ins.filter fun o => decide (va o % n ≠ 0)
        if mis ≠ [] then .trap s (memCode 7 1) 0 (lanesOf mis)
        else s.formLines c a (groupBy (ins.map fun o => (va o / 64, { o.2 with off := va o % 64 }))) sup
  else
    let lvl : Level := match lvlOf w with | 1 => .win | 2 => .yard | _ => .loft
    let base := if lvl = .yard then w / 2 ^ 24 % 8 * 2 ^ 24 else 0
    if s.levelAbsent c lvl then .trap s (memCode 7 5) 0 c.act
    else
      let locs := offs.map fun o => (o.2, match o.1 with
        | some x => s.locate1 c lvl base x n n o.2.lane false
        | none => Except.error 0)
      let failing (k : Nat) : List Nat := (locs.filter fun l => match l.2 with | .error e => decide (e = k) | .ok _ => false).map (·.1.lane)
      match [0, 5, 1].find? fun k => decide (failing k ≠ []) with
      | some k => .trap s (memCode 7 k) 0 (maskOf 1024 (failing k))
      | none =>
        let oks := locs.filterMap fun l => match l.2 with | .ok x => some (x, l.1) | .error _ => none
        .ok s [] (((oks.map fun o => (o.1.1, o.1.2 / 64)).eraseDups).map fun k =>
          { space := k.1, line := k.2,
            lanes := (oks.filter fun o => decide (o.1.1 = k.1 ∧ o.1.2 / 64 = k.2)).map fun o => { o.2 with off := o.1.2 % 64 } })

/-- R272: the common words of the block: a violation of their limits. -/
def visBlockBad (b : List Word) : Bool :=
  operandBad (bw b 0) || decide (bw b 1 % 65536 = 0 ∨ 16384 < bw b 1 % 65536 ∨ bw b 1 / 65536 = 0 ∨ 16384 < bw b 1 / 65536 ∨ bw b 2 % 4 = 3)

/-- R272: a lane's pixel and sample. -/
def Ctx.pixel (c : Ctx) (d : Byte) (l : Nat) : Nat × Nat × Nat :=
  let p := c.rd .v d.toNat l
  (p % 65536, p / 65536, c.rd .v (d.toNat + 1) l % 4)
/-- R265: where a lane's sample lies. -/
def Ctx.sampleOff (c : Ctx) (b : List Word) (d : Byte) (l : Nat) : Option Nat :=
  let (x, y, k) := c.pixel d l
  let w := bw b 1 % 65536
  let n := 2 ^ (bw b 2 % 4)
  if w ≤ x ∨ bw b 1 / 65536 ≤ y ∨ n ≤ k then none else some (opOff (bw b 0) + 16 * ((y * w + x) * n + k))

def execVisrd (o : FE) (s : State) : Host.Outcome State Fault Refusal := issue (.visrd o) s fun s c =>
  let b := c.block o.a 4
  if visBlockBad b then .trap s 21 (encodingDetail c.i) c.act false
  else s.onPath c 7 fun _ =>
    depart c { path := 7, n := 16 } (s.formOperand c (bw b 0) 16 (c.lanes.map fun l => (c.sampleOff b o.d l, { lane := l, off := 0 })))
      (some ⟨.v, o.d.toNat, 4, c.act⟩) fun f => { f with kind := .load 6 }

/-- R139: read the lanes of formed requests where they lie, now; none when some line cannot be read yet. -/
def State.readNow (s : State) (c : Ctx) (n : Nat) : List LineReq → State × Option (List (Nat × Nat × Bool))
  | [] => (s, some [])
  | r :: rs =>
    let f : Flight := { id := 0, team := c.tid, split := c.uid, path := 7, kind := .load 6, n := n, core := c.core, group := c.grp.id }
    let away := match r.space with | .win g => (match s.group? g with | some x => !x.here | none => true) | _ => false
    let (s, ok, p) := s.prepare c.core f r .passing
    if !ok || away then (s, none)
    else
      let here := r.lanes.map fun a => (a.lane, s.placeRd p r.line a.off n)
      match s.readNow c n rs with
      | (s, some l) => (s, some (here ++ l))
      | (s, none) => (s, none)

/-- R272: the position of a pixel centre in its block, in eighths of a texel: whole texel and fraction. -/
def texelPos (x r : Nat) : Nat × Nat :=
  -- (x + 0.5 - 8 r floor(x / 8r)) / r - 0.5, in eighths, clamped to 0 .. 7
  let q : Int := ((8 * (2 * (x % (8 * r)) + 1) : Nat) : Int) / (2 * r : Nat) - 4
  let q := (max 0 (min 56 q)).toNat
  (q / 8, q % 8)

/-- R272: the texels a lane reads: neighbour, offset in its block. -/
def texelTaps (x y r : Nat) : (Nat × Nat) × List (Nat × Nat) :=
  let (u, fu) := texelPos x r
  let (w, fw) := texelPos y r
  ((fu, fw), ((List.range 4).filter fun k => decide (tapWeight fu fw k ≠ 0)).map fun k => (k, 8 * (8 * (w + k / 2) + u + k % 2)))

/-- What the samples of some lanes lead to: not readable yet; a trap or the like; or the lanes that receive zeros, what the
others filter, and the requests for their texels. -/
inductive Sampled where
  | busy (s : State)
  | stop (f : Formed)
  | ok (s : State) (zero : List Nat) (contrib : List (Nat × Nat)) (reqs : List LineReq)

/-- R272: the samples of the lanes that have theirs are read and their texels found; the lanes of a sample whose line is missing
stay parked, marked by the neighbour number 15. -/
def State.sampTexels (s : State) (c : Ctx) (o : FE) (sup : List Nat) (reqs : List LineReq) : Sampled :=
  let b := c.block o.a 8
  let parked (r : LineReq) : Bool := decide (r.st = .parked)
  match s.readNow c 16 (reqs.filter fun r => !(parked r)) with
  | (s, none) => .busy s
  | (s, some vs) =>
    -- R365: a poisoned sample poisons what its lane receives
    let bad := (vs.filter fun v => v.2.2).map (·.1)
    let hit := vs.filter fun v => !v.2.2 && visValid v.2.1 && decide (visBlk v.2.1 ≠ 0xFFFFFF)
    let taps := hit.map fun v =>
      let (x, y, _) := c.pixel o.d v.1
      (v.1, visBlk v.2.1, texelTaps x y (rateOf (visRate v.2.1) c.nonce))
    let blank := sup ++ (vs.filter fun v => !(hit.any fun h => decide (h.1 = v.1))).map (·.1)
    match s.formOperand c (bw b 3) 8 (taps.flatMap fun t => t.2.2.2.map fun k =>
        (some (opOff (bw b 3) + 512 * t.2.1 + k.2), { lane := t.1, off := 0, cmp := k.1 })) with
    | .ok s sup2 texels =>
      .ok s (blank ++ sup2) ((taps.filter fun t => !(sup2.contains t.1)).map fun t => (t.1, t.2.2.1.1 * 8 + t.2.2.1.2))
        (texels ++ (if bad = [] then [] else [{ space := .glob, line := 0, st := .done, lanes := bad.map fun l => { lane := l, off := 0, poison := true } }]) ++
          (reqs.filter parked).map fun r => { r with lanes := r.lanes.map fun a => { a with cmp := 15 } })
    | f => .stop f

def execSamp (o : FE) (s : State) : Host.Outcome State Fault Refusal := issue (.samp o) s fun s c =>
  let b := c.block o.a 8
  if visBlockBad b || operandBad (bw b 3) || ((List.range 4).any fun k => decide (bw b (4 + k) ≠ 0)) then .trap s 21 (encodingDetail c.i) c.act false
  else s.onPath c 7 fun _ =>
    if c.sp.fence.isSome || !(s.allPerformed c.tid c.uid) then .hold s
    else match s.formOperand c (bw b 0) 16 (c.lanes.map fun l => (c.sampleOff b o.d l, { lane := l, off := 0 })) with
      | .ok s sup reqs =>
        (match s.sampTexels c o sup reqs with
          | .busy s => .hold s
          | .stop f => depart c { path := 7, n := 8 } f none id
          | .ok s zero contrib reqs =>
            match depart c { path := 7, n := 8 } (.ok s zero reqs) (some ⟨.v, o.d.toNat, 2, c.act⟩) fun f =>
                { f with kind := .samp, contrib := contrib, aux := [BitVec.ofNat 32 o.a.toNat] } with
            -- R90: what its parked lanes replay with
            | .jump s => .jump (s.modSplit c.tid c.uid fun p => { p with caps := c.capture })
            | r => r)
      | f => depart c { path := 7, n := 8 } f none id

end Sys2Proof.Machine
end

