-- ==== Sys2Proof/Machine/EngRun.lean ====
section
/-!
DEFINITION. The engine events that several engines share (R118, R120, R122): starting, moving, completing a command.
-/
namespace Sys2Proof.Machine

/-- ENGINE_COMMAND_START: the head of a copy, collective or ray context. The matrix contexts and the rasteriser start
by events of their own. -/
def execEngineCommandStart (e : EvEngine) (s : State) : Host.Outcome State Fault Refusal :=
  .next (match selEngine e.sel with
    | 0 | 1 => s.startCopy e.group e.sel
    | 3 => s.startRay e.group
    | _ => s)

/-- ENGINE_TRANSFER: the next unit of a started copy or collective command, or of MLDA and MSTA (R239). -/
def execEngineTransfer (e : EvEngineCmd) (s : State) : Host.Outcome State Fault Refusal :=
  if selEngine e.sel ≤ 1 then .next (s.transferUnit e.group e.sel e.n)
  else
    match s.group? e.group with
    | none => .next s
    | some g =>
      match (g.eng e.sel).cmd? e.n with
      | none => .next s
      | some cmd =>
        if s.groupRuns g && decide (cmd.st = .started) && decide (cmd.op = .mlda ∨ cmd.op = .msta) && !(s.gridStopped cmd) then
          .next (s.tileStep g e.sel cmd)
        else .next s

/-- R286: a unit of 4 bytes that a command reads ahead of the step that uses it: of one that has started, or of one at the head
of its queue whose team's earlier accesses have been performed. A matrix command reads nothing ahead while its team's grid is to be
taken again (R233). -/
def State.engineReadTurn (s : State) (gid sel n lv addr : Nat) : State :=
  match s.group? gid with
  | none => s
  | some g =>
    match (g.eng sel).cmd? n with
    | none => s
    | some cmd =>
      let ready := decide (cmd.st = .started) || (decide ((g.eng sel).head = some cmd) && s.priorDone cmd (List.range 8))
      if !(s.groupRuns g) || !ready || decide (addr % 4 ≠ 0) || (decide (selEngine sel = 2) && s.gridStopped cmd) then s
      else match (if lv = 0 then s.unitGlobal g addr none else s.unitLocal g lv addr none 4 (cmd.stamp s.nextId)) with
        | (s, .ok sp as x) =>
          let a := as.headD 0
          if cmd.ahead.any fun q => decide (q.space = sp) && decide (q.addr = a) then s
          else s.modCmd gid sel n fun c => { c with ahead := c.ahead ++ [⟨sp, a, 4, x⟩] }
        | (s, _) => s


/-- R122: the command has done all its work. -/
def Group.cmdDone (g : Group) (sel : Nat) (cmd : EngCmd) : Bool :=
  match selEngine sel with
  | 0 | 1 => cmd.moved?
  | 3 => decide (cmd.st = .started) && g.rayDone cmd
  | 4 => decide (cmd.st = .started) && g.rastDone cmd
  | _ => false

/-- ENGINE_COMMAND_COMPLETE: the timeline moves on and the barrier gets its arrival. -/
def execEngineCommandComplete (e : EvEngineCmd) (s : State) : Host.Outcome State Fault Refusal :=
  match s.group? e.group with
  | none => .next s
  | some g =>
    match (g.eng e.sel).cmd? e.n with
    | none => .next s
    | some cmd =>
      if s.groupRuns g && g.cmdDone e.sel cmd then .next (s.engDone e.group e.sel e.n 0) else .next s

end Sys2Proof.Machine
end

