-- ==== Sys2Proof/Machine/Traffic.lean ====
section
/-!
DEFINITION. The events of memory traffic: accesses performed and returned (R101, R125, R150), fences (R283), faults
served and replayed (R88 to R94, R351, R387), requests of the host (R100, R103, R384), maintenance (R105, R106), banks
(R64 to R69).
-/
namespace Sys2Proof.Machine

/-! ### Accesses performed and returned -/

/-- R112, R114: a yard access finds on its arrival that the member has gone: code 71 with those lanes. It waits while the
team owes results (R41). -/
def State.yardFault (s : State) (t : Team) (f : Flight) : State :=
  let lanes : LaneMask := if f.uniform then f.lanes
    else maskOf 1024 ((f.reqs.filter fun r => decide (r.st ≠ .done) && s.yardGone f r).flatMap fun r => r.lanes.map (·.lane))
  let rest : Flight := { f with reqs := f.donePart.reqs, contrib := f.donePart.contrib }
  let s' := (s.modFlight f.id fun _ => rest).endFlight rest
  match t.split? f.split with
  | none => s'
  | some _ => (s'.raise t.id f.split (memCode f.path 5) f.recNo lanes false f.pc).getD s

/-- An access of a kind is performed, as far as it may be, and returns. -/
def State.serve (s : State) (fid : Nat) (p : AccKind → Bool) : State :=
  match s.flight? fid with
  | none => s
  | some f =>
    if !(p f.kind) then s
    else
      match s.team? f.team with
      | some t => if f.reqs.any (fun r => decide (r.st = .ready) && s.yardGone f r) then s.yardFault t f else (s.performAll fid).returnFlight fid
      | none => (s.performAll fid).returnFlight fid

/-- LOAD_DATA_RETURN. -/
def execLoadDataReturn (e : EvFlight) (s : State) : Host.Outcome State Fault Refusal := .next (s.serve e.flight AccKind.isLoad)
/-- STORE_PERFORMED, of a store or an atomic. -/
def execStorePerformed (e : EvFlight) (s : State) : Host.Outcome State Fault Refusal :=
  .next (s.serve e.flight fun (k : AccKind) => decide (k = .store) || k.isAtomic)
/-- MONITOR_REGISTRATION. -/
def execMonitorRegistration (e : EvFlight) (s : State) : Host.Outcome State Fault Refusal :=
  .next (s.serve e.flight fun (k : AccKind) => decide (k = .arm))

/-- SLC_REQUEST: one line of an access is performed; the access has not returned. -/
def execSlcRequest (e : EvFlightLine) (s : State) : Host.Outcome State Fault Refusal :=
  match s.flight? e.flight with
  | none => .next s
  | some f => .next ((List.range f.reqs.length).foldl (fun s k =>
      match f.reqs[k]? with
      | some r => if r.line = e.line then s.performReq e.flight k else s
      | none => s) s)

/-- L1_INVALIDATION. -/
def execL1Invalidation (e : EvCoreLine) (s : State) : Host.Outcome State Fault Refusal :=
  if s.l1Invs.contains (e.core, e.line) then
    let s := { s with l1Invs := s.l1Invs.filter fun q => q ≠ (e.core, e.line) }
    .next ((s.dropHcCopy e.core e.line).conflict .glob e.line .device (some e.core))
  else .next s

/-! ### Translating an access anew (R90, R95) -/

/-- What the leaf of an access must permit. -/
def AccKind.need (k : AccKind) : Need :=
  match k with
  | .store => { r := false, w := true }
  | .atomic .. | .atagg _ => { r := true, w := true }
  | _ => { r := true }

/-- What a new translation of some lines of an access gives. -/
inductive Again where
  | busy
  | fail (code detail : Nat) (lanes : LaneMask)
  | alien
  /-- the requests as they now stand, and the first line that is not present -/
  | ok (reqs : List LineReq) (missing : Option Nat)

/-- R90, R91: translate the chosen lines of an access anew. -/
def State.retranslate (s : State) (core asid : Nat) (f : Flight) (pick : LineReq → Bool) : State × Again :=
  let (s, ts) := f.reqs.foldl (fun (q : State × List (LineReq × Option LineT)) r =>
    if pick r then
      let (s, t) := q.1.lineOf (some core) asid (r.va * 64) f.kind.need
      (s, q.2 ++ [(r, some t)])
    else (q.1, q.2 ++ [(r, none)])) (s, [])
  let write := f.kind.isWrite
  let lanesOf (p : LineT → Bool) : LaneMask :=
    if f.uniform then f.lanes
    else maskOf 1024 ((ts.filter fun t => match t.2 with | some x => p x | none => false).flatMap fun t => t.1.lanes.map (·.lane))
  let kinds := ts.filterMap fun t => match t.2 with | some (.bad k) => some k | _ => none
  let has (x : LineT) : Bool := ts.any fun t => decide (t.2 = some x)
  if has .busy then (s, .busy)
  else match lowest kinds with
    | some k => (s, .fail (memCode f.path k) f.recNo (lanesOf fun t => decide (t = .bad k)))
    | none =>
      if has .unbacked then (s, .fail 336 (f.path + if write then 8 else 0) (lanesOf fun t => decide (t = .unbacked)))
      else if has .alien then (s, .alien)
      else (s, .ok (ts.map fun t => match t.2 with
          | some (.ok cc line pte) => { t.1 with cc := cc, line := line, pte := some pte, st := .ready, gen := s.gen }
          | some _ => { t.1 with st := .parked, gen := s.gen }
          | none => t.1)
        ((ts.find? fun t => decide (t.2 = some .absent)).map fun t => t.1.va * 64))

/-! ### Fences (R155, R283) -/

/-- R283: the accesses of a split before an identifier let a fence of a kind and a scope complete. What other splits of the core
have released to the split goes on with it where the fence releases past the core (R277). -/
def State.fenceReady (s : State) (tid uid kind scope before : Nat) : Bool :=
  (s.flights.all fun e => !(s.ofSplit tid uid e) || decide (before ≤ e.id) || e.returned ||
    (if kind = 1 then !(e.kind.isLoad || e.kind.isAtomic) else !e.kind.isLoad && e.performedAt scope)) &&
  (decide (kind = 1) || decide (scope < 4) || (match s.team? tid with | some t => s.coreSettled t.core s.nextId | none => true))

/-- R95: a held store meets a fault at its release. The trap is taken when the fence completes; the earliest store's is. -/
def State.lateTrap (s : State) (tid uid code detail : Nat) (lanes : LaneMask) (pc : Word) : State :=
  s.modSplit tid uid fun p => { p with fence := p.fence.map fun q => { q with trap := q.trap.orElse fun _ => some (code, detail, lanes, pc) } }

/-- R95, R155: one held store is performed; the Bool says that it has been. A dropped translation is made anew; a page
that is not present parks the lanes at their split. -/
def State.releaseHeld (s : State) (tid uid fid : Nat) : State × Bool :=
  let go (s : State) : State × Bool :=
    let s := (s.modFlight fid fun f => { f with held := false }).performAll fid
    match s.flight? fid with
    | some f => if f.performed then (s.returnFlight fid, true) else (s, false)
    | none => (s, true)
  match s.flight? fid, s.team? tid with
  | some f, some t =>
    let stale (r : LineReq) : Bool := decide (r.space = .glob) && decide (r.pte = none)
    if !(f.reqs.any stale) then go s
    else
      let asid := match s.group? t.group with | some g => g.asid | none => 0
      match s.retranslate t.core asid f stale with
      | (s, .busy) => (s, false)
      | (s, .alien) => (s.groupPath t.group 342 0 true true, false)
      | (s, .fail code detail lanes) =>
        ((s.cancelFlight fid).lateTrap tid uid code detail lanes f.pc, true)
      | (s, .ok reqs none) => go (s.modFlight fid fun f => { f with reqs := reqs })
      | (s, .ok reqs (some va)) =>
        match t.split? uid with
        | none => (s.cancelFlight fid, true)
        | some p =>
          if p.park.isSome then (s, false)
          else
            let s := s.modFlight fid fun f => { f with held := false, reqs := reqs }
            let s := s.modSplit tid uid fun p => { p with
              st := if p.st = .ready then .parked else p.st, park := some ⟨.access fid, va, f.path, true, false, false, true⟩ }
            (s.reportFault ⟨.split tid uid, asid, va, f.path, true, t.sourceWord⟩, false)
  | _, _ => (s, true)

/-- Held stores are performed in issue order, each after the one before it. -/
def State.releaseAll (s : State) (tid uid : Nat) : List Nat → State × Bool
  | [] => (s, true)
  | x :: xs =>
    match s.releaseHeld tid uid x with
    | (s, true) => s.releaseAll tid uid xs
    | r => r

/-- FENCE_COMPLETE. The stores held behind the fence are performed; while one of them has not been, later stores are
still held, but nothing is speculative any more. -/
def execFenceComplete (e : EvSplit) (s : State) : Host.Outcome State Fault Refusal :=
  let mine := s.flights.filter fun f => decide (f.team = e.team) && decide (f.split = e.split)
  let held := (mine.filter fun f => f.held).map (·.id)
  match (s.team? e.team).bind (·.split? e.split) with
  | none =>
    -- the split has gone; what it held is performed after everything before it
    (match held with
      | [] => .next s
      | x :: _ => if s.fenceReady e.team e.split 0 7 x then .next (s.releaseAll e.team e.split held).1 else .next s)
  | some p =>
    match p.fence with
    | none => .next s
    | some f =>
      if !(s.fenceReady e.team e.split f.kind f.scope f.before) then .next s
      else
        let waiting := mine.any fun x => decide (f.before ≤ x.id) && decide (x.kind = AccKind.store) && !x.held && !x.performed &&
          decide (held ≠ [])
        let (s, ok) := if waiting then (s, false) else s.releaseAll e.team e.split held
        let s := if f.kind ≠ 2 ∧ f.trap = none then s.splitAcquires e.team e.split f.scope else s
        let kept := s.modSplit e.team e.split fun p => { p with
          restarts := 0
          fence := p.fence.map fun f => { f with kind := if f.kind = 3 then 3 else 2, readSet := [] } }
        if !ok then .next kept
        else
          let free := kept.modSplit e.team e.split fun p => { p with fence := none }
          -- R95, R155: the trap of a held store comes now
          match ((kept.team? e.team).bind (·.split? e.split)).bind (fun p => p.fence.bind (·.trap)) with
          | none => .next free
          | some (code, detail, lanes, pc) => .next ((free.raise e.team e.split code detail lanes false pc).getD kept)

/-- WAITMON_TIMEOUT. -/
def execWaitmonTimeout (e : EvSplit) (s : State) : Host.Outcome State Fault Refusal :=
  match s.team? e.team with
  | none => .next s
  | some t =>
    match t.split? e.split with
    | none => .next s
    | some p =>
      match p.monWait with
      | some ⟨_, some d, none⟩ =>
        -- one in the spill area waits for its reload
        if d ≤ s.time ∧ p.st = .monWait ∧ t.residence = .resident ∧ t.thawed p.uid = true ∧ t.deferred.all (fun q => decide (q.uid ≠ p.uid)) = true then
          .next { s.modTeam e.team (fun t => t.wake e.split 3) with
            monRegs := s.monRegs.filter fun r => !(decide (r.2.1 = e.team) && decide (r.2.2.1 = e.split)) }
        else .next s
      | _ => .next s

/-! ### Page walks, faults and replays (R88 to R92, R351, R387) -/

/-- PAGE_WALK_COMPLETE: the TLBs are filled; a result that is not present is cached nowhere. -/
def execPageWalkComplete (e : EvWalk) (s : State) : Host.Outcome State Fault Refusal :=
  match s.core? e.core, s.ctx? e.asid with
  | some _, some _ => .next (s.translate (some e.core) e.asid e.va).1
  | _, _ => .next s

/-- R387: a ticket frees, and the fault that has waited longest is sent. -/
def State.freeFaultTicket (s : State) (k : Nat) : State :=
  let s := { s with tickets := s.tickets.filter fun q => q.1 ≠ k }
  match s.faultQ with
  | [] => s
  | f :: fs => ({ s with faultQ := fs }).reportFault f

/-- R351: the host's answer reaches a parked split. -/
def State.answerSplit (s : State) (tid uid : Nat) (ok : Bool) : State :=
  let s := s.modSplit tid uid fun p => { p with park := p.park.map fun k => { k with resumed := ok, refused := !ok } }
  -- R288: the host's resume of the split is an acquire
  if ok then s.splitAcquires tid uid 6 else s

/-- R121, R351: the host's answer reaches a parked command. -/
def State.answerEngine (s : State) (gid sel n : Nat) (ok : Bool) : State :=
  match s.group? gid with
  | none => s
  | some g =>
    match (g.eng sel).cmd? n with
    | none => s
    | some cmd =>
      if cmd.st ≠ .parked then s
      else if ok then s.modCmd gid sel n fun c => { c with st := .started }
      else
        match selEngine sel with
        | 2 => s.matFail gid sel cmd 4 (some cmd.va)
        | 4 => s.rastFail gid n 4 (some cmd.va) (decide (rMode cmd = 1))
        | _ => s.engFail gid sel n 4 (some cmd.va) false

/-- FAULT_REPLY. -/
def execFaultReply (e : EvReply) (s : State) : Host.Outcome State Fault Refusal :=
  match s.tickets.find? fun q => decide (q.1 = e.ticket) with
  | some (_, .fault f) =>
    let s := s.freeFaultTicket e.ticket
    let ok := decide (e.status = 0)
    .next (match f.src with
      | .split tid uid => s.answerSplit tid uid ok
      | .engine gid sel n => s.answerEngine gid sel n ok
      | .ray => s
      | .joinAdd i =>
        if ok then { s with jcAdds := s.jcAdds.map fun a => if a.id = i then { a with parked := false } else a }
        else { s with jcAdds := s.jcAdds.filter fun a => a.id ≠ i }.send (.jcaError f.asid))
  | _ => .next s

/-- The lanes of an access that have not completed. -/
def Flight.unfinished (f : Flight) : LaneMask :=
  if f.uniform then f.lanes
  else maskOf 1024 ((f.reqs.filter fun r => decide (r.st = ReqSt.parked)).flatMap fun r => r.lanes.map (·.lane))

/-- R351: the refusal of a parked split: code 323. -/
def State.refuse (s : State) (t : Team) (p : Split) (k : Park) : State :=
  let (s', lanes, detail) := match k.kind with
    | .fetch => (s, p.exec, 0x10)
    | .whole => ((match p.busy with | some (.vrsl _, [id]) => s.cancelFlight id | _ => s), s.lanesOf t p, k.path + if k.write then 8 else 0)
    | .access fid => (s.abandonFlight fid, (match s.flight? fid with | some f => f.unfinished | none => 0), k.path + if k.write then 8 else 0)
  let s' := s'.modSplit t.id p.uid fun q => { q with park := none, busy := if k.late then q.busy else none, st := if q.st = .parked then .ready else q.st }
  match k.late, k.kind with
  -- R95: a held store; its trap comes with the end of the fence
  | true, .access fid => s'.lateTrap t.id p.uid 323 detail lanes (match s.flight? fid with | some f => f.pc | none => p.pc)
  | _, _ => (s'.raise t.id p.uid 323 detail lanes false p.pc).getD s

/-- R90, R338: the passes of a replay: over the mask words that hold unfinished lanes, each on its own bay. -/
def State.replayPasses (s : State) (t : Team) (p : Split) (g : Group) (f : Flight) : List Pass :=
  let k (w : Nat) (m : LaneMask) : Nat := popcount 32 (m.toNat / 2 ^ (32 * w))
  let once : Bool := match f.dst with | some (file, _) => decide (file ≠ .v) | none => false
  let weight := if f.kind.isAtomic then 4 else if f.path = 7 ∧ f.kind ≠ .samp then 1 else 3
  (match maskWords f.unfinished t.size with | [] => [0] | ws => ws).map fun (w : Nat) =>
    { team := t.id, split := p.uid, bay := 4 * t.quad + w % 4, sync := false
      charge := weight * (if once then 1 else k w f.unfinished), pc := f.pc, next := f.pc + 4
      lanes := [k w f.unfinished, k w (t.present &&& ~~~p.exec), k w (p.exec &&& ~~~f.unfinished), 32 - k w t.present]
      shown := !(s.protected g.asid) }

/-- R272: a request of a SAMP for the samples of its lanes, parked. -/
def LineReq.unsampled (r : LineReq) : Bool := decide (r.st = .parked) && r.lanes.any fun a => decide (a.cmp = 15)

/-- R90, R272: the lanes of a SAMP whose samples were not there: they are looked for again, and the texels of those that are
there now. -/
def State.resample (s : State) (t : Team) (p : Split) (g : Group) (f : Flight) : State × Again :=
  match f.reqs.filter LineReq.unsampled with
  | [] => s.retranslate t.core g.asid f fun r => decide (r.st = .parked)
  | rs =>
    let o : FE := ⟨false, BitVec.ofNat 8 (match f.dst with | some d => d.2 | none => 0), BitVec.ofNat 8 (f.aux.headD 0).toNat, 0⟩
    let c := { mkCtx (.samp o) t p g s.nonce with act := maskOf 1024 ((rs.flatMap fun r => r.lanes).map (·.lane)) }
    let stop (q : Formed) : State × Again :=
      match q with
      | .trap s code detail lanes => (s, .fail code detail lanes)
      | .dead s _ => (s, .alien)
      | .hold s | .ok s _ _ => (s, .busy)
    match s.formOperand c (bw (c.block o.a 8) 0) 16 (c.lanes.map fun l => (c.sampleOff (c.block o.a 8) o.d l, { lane := l, off := 0 })) with
    | .ok s sup reqs =>
      (match s.sampTexels c o sup reqs with
        | .busy s => (s, .busy)
        | .stop q => stop q
        | .ok s zero contrib new =>
          let f' : Flight := { f with zero := f.zero ++ zero, contrib := f.contrib ++ contrib, reqs := (f.reqs.filter fun r => !r.unsampled) ++ new }
          match (s.modFlight f.id fun _ => f').retranslate t.core g.asid f' fun r => decide (r.st = .parked) && !r.unsampled with
          | (s, .ok reqs none) => (s, .ok reqs ((reqs.find? LineReq.unsampled).map fun r => r.va * 64))
          | q => q)
    | q => stop q

/-- R90: the replay of the unfinished lanes of an access. -/
def State.replayAccess (s : State) (t : Team) (p : Split) (g : Group) (k : Park) (f : Flight) : State :=
  let passes := s.replayPasses t p g f
  let may := match s.core? t.core with | some c => passes.any fun q => c.openBay q.bay | none => false
  if !may then s.wakeBay t.core t.quad (passes.map (·.bay))
  else
    match s.resample t p g f with
    | (s, .busy) => s
    | (s, .alien) => s.groupPath g.id 342 0 true true
    | (s, .fail code detail lanes) =>
      let s' := (s.abandonFlight f.id).modSplit t.id p.uid fun q => { q with park := none, st := if q.st = .parked then .ready else q.st }
      if k.late then s'.lateTrap t.id p.uid code detail lanes f.pc else (s'.raise t.id p.uid code detail lanes false f.pc).getD s
    | (s, .ok reqs missing) =>
      let s := (s.modFlight f.id fun f => { f with reqs := reqs }).modCore t.core fun c => { c with passes := c.passes ++ passes }
      match missing with
      | some va =>
        (s.modSplit t.id p.uid fun q => { q with park := some { k with va := va, resumed := false } }).reportFault
          ⟨.split t.id p.uid, g.asid, va, k.path, k.write, t.sourceWord⟩
      | none => s.modSplit t.id p.uid fun q => { q with
          park := none, caps := [], st := if q.st = .parked then .ready else q.st, pc := if k.late then q.pc else q.pc + 4 }

/-- PARKED_REPLAY: a parked split whose fault the host has answered. -/
def execParkedReplay (e : EvSplit) (s : State) : Host.Outcome State Fault Refusal :=
  match s.team? e.team with
  | none => .next s
  | some t =>
    match t.split? e.split, s.group? t.group with
    | some p, some g =>
      (match p.park with
        | none => .next s
        | some k =>
          let frozen : Bool := match t.handler with | some h => decide (h.uid ≠ p.uid) | none => false
          if decide (t.residence ≠ .resident) || frozen || !(s.groupRuns g) then .next s
          else if k.refused then .next (s.refuse t p k)
          else if !k.resumed then .next s
          else
            match k.kind with
            | .access fid =>
              (match s.flight? fid with
                | some f => .next (s.replayAccess t p g k f)
                | none => .next (s.modSplit t.id p.uid fun q => { q with park := none, st := .ready }))
            | _ => .next (s.modSplit t.id p.uid fun q => { q with park := none, st := .ready }))
    | _, _ => .next s

/-! ### Translation invalidation (R93 to R96) -/

/-- An invalidation covers the pages [vpn, vpn + 2^lg) of an ASID. -/
def invCovers (k : InvKind) (asid vpn lg : Nat) (global : Bool) : Bool :=
  match k with
  | .range a va len => !global && decide (a = asid) && decide (va < (vpn + 2 ^ lg) * 4096) && decide (vpn * 4096 < va + len)
  | .asid a => !global && decide (a = asid)
  | .global => global
  | .all => true

/-- R93 step 3: the code at [va, va + n) of an ASID that an invalidation drops; `glob` says that it came from a global
page. -/
def invCoversCode (k : InvKind) (asid va n : Nat) (glob : Bool) : Bool :=
  match k with
  | .range a lo len => decide (a = asid) && decide (lo < va + n) && decide (va < lo + len)
  | .asid a => decide (a = asid)
  | .global => glob
  | .all => true

/-- TRANSLATION_INVALIDATION: an INV message; the link holds back a ninth (R96). -/
def execTranslationInvalidation (e : EvInv) (s : State) : Host.Outcome State Fault Refusal :=
  if 8 ≤ s.invs.length then .next s
  else
    let keep (x : TlbEntry) : Bool := !(invCovers e.kind x.asid x.vpn x.lg x.global)
    let asidOf (f : Flight) : Nat := match (s.team? f.team).bind fun t => s.group? t.group with | some g => g.asid | none => 0
    .next { s with
      gen := s.gen + 1
      invs := s.invs ++ [⟨e.kind, s.gen⟩]
      l2Tlb := s.l2Tlb.filter keep
      cores := s.cores.map fun c => { c with tlb := c.tlb.filter keep, icache := c.icache.filter fun l => !(invCoversCode e.kind l.asid (l.line * 64) 64 l.glob) }
      teams := s.teams.map fun t => { t with loop := t.loop.filter fun l => !(invCoversCode e.kind l.asid l.va (if l.w1.isSome then 8 else 4) l.glob) }
      -- R95: a held store drops its translation
      flights := s.flights.map fun f =>
        if f.held then { f with reqs := f.reqs.map fun r =>
            if r.space = .glob ∧ (invCovers e.kind (asidOf f) (r.va / 64) 0 false || decide (e.kind = .global)) then { r with pte := none } else r }
        else f }

/-- R93, R94: every request translated under a generation has completed at its home, a CMAINT of translated lines among them. -/
def State.drained (s : State) (gen : Nat) : Bool :=
  s.flights.all fun f => f.held || f.reqs.all fun r => (match f.kind with | .cmaint _ x _ => decide (x = 2) | _ => decide (r.space ≠ .glob)) || decide (r.st = .parked) || decide (gen < r.gen) ||
    -- a load that ran ahead of an acquire may be performed anew until it returns
    (decide (r.st = .done) && (!r.early || f.returned))

/-- INVALIDATION_ACK: acknowledgements go out in the order of the invalidations. -/
def execInvalidationAck (s : State) : Host.Outcome State Fault Refusal :=
  match s.invs with
  | [] => .next s
  | p :: ps => if s.drained p.gen then .next ({ s with invs := ps }.send (.invAck p.gen)) else .next s

/-! ### Host memory requests (R100, R383, R384, R393) -/

/-- R389: MEM requests are served from MINCFG on. -/
def State.memOpen (s : State) : Bool := decide (2 ≤ s.boot.state)

/-- R393: a request with the binding of a TDI, protected by IDE or not, reaches a frame: one that no key owns, or with the
binding of the owner, valid in RUN, over IDE with the key that has been set. -/
def State.hostMay (s : State) (binding : Option Nat) (ide : Bool) (pa : Nat) : Bool :=
  let k := sget 0 s.frameOwner (pa / 4096)
  decide (k = 0) || (match binding.bind fun t => (s.tdis.find? fun q => decide (q.1 = t)) with
    | some (_, d) => decide (d.st = .run) && d.loaded && decide (d.keySlot = some k) && ide && d.ideKey
    | none => false)

/-- R384: the completion status of a host request: 0 SC, 1 UR, 2 CA. -/
def State.hostStatus (s : State) (binding : Option Nat) (ide : Bool) (pa n : Nat) : Nat :=
  if !((List.range n).all fun i => s.backed (pa + i)) then 1
  else if !((List.range n).all fun i => s.hostMay binding ide (pa + i)) then 2 else 0

def linesOf (pa n : Nat) : List Nat := ((List.range n).map fun i => (pa + i) / 64).eraseDups

/-- R100: the directory's part of a host request for a line. One that owns the line first removes every device L1 copy and
the copies of other host agents. -/
def State.hostDir (s : State) (line : Nat) (own : Bool) (agent : Nat) : State × Bool :=
  let d := s.dirOf line
  if s.recalls.any fun r => decide (r.1 = line) then (s, false)
  else if !own then (s, true)
  else if d.host = .s ∨ (d.host = .m ∧ d.owner ≠ agent) then (s.recall line true, false)
  else
    match bitsBelow d.cores 16 with
    | [] => (s, true)
    | cs => (s.invalidate line cs, false)

/-- R100, R101: a host request asks at the slices of its lines, each with the sectors that must be present. The Bool says
that it can be performed now. -/
def State.hostAsk (s : State) (lines : List (Nat × List Nat)) (own : Bool) (agent : Nat) (who : Asker) : State × Bool :=
  lines.foldl (fun (q : State × Bool) l =>
    if !(q.1.turnOf l.1 who) then (q.1, false)
    else
      match q.1.hostDir l.1 own agent with
      | (s, false) => (s, false)
      | (s, true) => let (s, ok) := s.slcFill l.1 l.2; (s, q.2 && ok)) (s, true)

def State.setHost (s : State) (lines : List Nat) (h : HostSt) (agent : Nat) : State :=
  lines.foldl (fun s l => s.setDir l { s.dirOf l with host := h, owner := if h = .m then agent else 0 }) s

/-- R384: the data of a host read: the bytes, and the poisoned sectors. -/
def State.hostData (s : State) (pa n : Nat) : Msg :=
  .memData 0 ((List.range n).map fun i => s.rdByte .glob (pa + i))
    (((List.range n).map fun i => (pa + i) / 16).eraseDups.filter fun k => s.isPoisoned .glob (k * 16) 16)

/-- The lines of n bytes at an address with their sectors, all of them or only those the bytes do not fill (R14). -/
def lineSectors (pa n : Nat) (fillAll : Bool) : List (Nat × List Nat) :=
  (linesOf pa n).map fun l => (l, (List.range 4).filter fun k =>
    decide (pa < 64 * l + 16 * k + 16) && decide (64 * l + 16 * k < pa + n) &&
    (fillAll || decide (64 * l + 16 * k < pa) || decide (pa + n < 64 * l + 16 * k + 16)))

/-- R274, R277: an agent of the host has written some lines; it acts at system scope, with PLAT at platform scope. -/
def State.noticeHost (s : State) (lines : List Nat) (who : Agent) : State :=
  lines.foldl (fun s l => s.missed .glob l who) s
/-- R274, R277: an agent of the host has read; it may have acquired from every agent whose scope takes it in. -/
def State.hostAcquires (s : State) (id : Nat) (plat : Bool) : State :=
  let hear (r : LineReq) : LineReq :=
    if r.heard.any (fun o => match o with | .host _ p => plat || !p | _ => true) ∧ !(r.heard.contains (.host id plat)) then
      { r with heard := r.heard ++ [.host id plat] } else r
  { s with flights := s.flights.map fun f => { f with reqs := f.reqs.map hear } }

/-- R100, R383, R384: a host request is performed, or refused; the Bool says that nothing of it is left. -/
def State.hostTry (s : State) (who : Asker) (r : HostReq) : State × Bool :=
  match r with
  | .read e own =>
    (match s.hostStatus e.binding e.ide e.pa e.n with
      | 0 =>
        (match s.hostAsk (lineSectors e.pa e.n true) own e.agent who with
          | (s, false) => (s, false)
          | (s, true) => (((s.hostAcquires e.agent e.plat).send (s.hostData e.pa e.n)).setHost (linesOf e.pa e.n) (if own then .m else .s) e.agent, true))
      | st => (s.send (.memData st (List.replicate e.n 255) []), true))
  | .write e =>
    (match s.hostStatus e.binding e.ide e.pa e.data.length with
      | 0 =>
        let ls := linesOf e.pa e.data.length
        (match s.hostAsk (lineSectors e.pa e.data.length false) true e.agent who with
          | (s, false) => (s, false)
          | (s, true) => (((((s.noticeHost ls (.host e.agent e.plat)).slcWrite (e.data.zipIdx.map fun p => (e.pa + p.2, p.1))).setHost ls .m e.agent).send (.memDone 0)), true))
      | st => (s.send (.memDone st), true))
  | .atomic e =>
    let n := if e.width = 8 then 8 else 4
    match s.hostStatus e.binding e.ide e.pa n with
    | 0 =>
      let ls := linesOf e.pa n
      (match s.hostAsk (lineSectors e.pa n true) true e.agent who with
        | (s, false) => (s, false)
        | (s, true) =>
          let msg := s.hostData e.pa n
          let s := match atomNew (e.op % 8) (if n = 8 then 4 else 1) (s.rd .glob e.pa n) e.operand e.compare with
            | some x => (s.noticeHost ls (.host e.agent e.plat)).slcWrite (cellsOf e.pa n x)
            | none => s
          (((s.hostAcquires e.agent e.plat).setHost ls .m e.agent).send msg, true))
    | st => (s.send (.memData st (List.replicate n 255) []), true)

/-- The lines that a host request needs. -/
def HostReq.lines : HostReq → List Nat
  | .read e _ => linesOf e.pa e.n
  | .write e => linesOf e.pa e.data.length
  | .atomic e => linesOf e.pa (if e.width = 8 then 8 else 4)

/-- R101: a host request takes its place at its lines. -/
def State.hostWait (s : State) (r : HostReq) : State :=
  let (i, s) := s.fresh
  let s := { s with hostQ := s.hostQ ++ [(i, r)] }
  r.lines.foldl (fun s l => s.claim l (.host i)) s

/-- R101: a host request arrives. It is performed at once, or it takes its place at its lines and waits. -/
def State.hostArrive (s : State) (r : HostReq) : State :=
  if !s.memOpen then s
  else if r.lines.all fun l => s.turnOf l (.host 0) then
    match s.hostTry .passing r with
    | (s, true) => s
    | (s, false) => s.hostWait r
  else s.hostWait r

/-- R101: a waiting host request is tried again. -/
def State.hostTurn (s : State) (i : Nat) : State :=
  match s.hostQ.find? fun q => decide (q.1 = i) with
  | none => s
  | some (_, r) =>
    match s.hostTry (.host i) r with
    | (s, true) => { s with hostQ := s.hostQ.filter fun q => q.1 ≠ i }
    | (s, false) => s

/-- HOST_READ_SHARED. -/
def execHostReadShared (e : EvHostRead) (s : State) : Host.Outcome State Fault Refusal := .next (s.hostArrive (.read e false))
/-- HOST_READ_FOR_OWNERSHIP. -/
def execHostReadForOwnership (e : EvHostRead) (s : State) : Host.Outcome State Fault Refusal := .next (s.hostArrive (.read e true))
/-- HOST_WRITE. -/
def execHostWrite (e : EvHostWrite) (s : State) : Host.Outcome State Fault Refusal := .next (s.hostArrive (.write e))
/-- HOST_ATOMIC: on unsigned integers of 4 or 8 bytes; the old value is returned. -/
def execHostAtomic (e : EvHostAtomic) (s : State) : Host.Outcome State Fault Refusal := .next (s.hostArrive (.atomic e))

/-- SNOOP_RESPONSE: the host's dirty sectors reach the SLC and the waiting request can go on. -/
def execSnoopResponse (e : EvSnoop) (s : State) : Host.Outcome State Fault Refusal :=
  match s.recalls.find? fun r => decide (r.1 = e.line) with
  | none => .next s
  | some (_, drop) =>
    let s := { s with recalls := s.recalls.filter fun r => r.1 ≠ e.line }
    let s := e.dirty.foldl (fun s d => s.slcSectorWrite e.line (d.1 % 4) d.2.toNat false) s
    .next (s.setDir e.line { s.dirOf e.line with host := if drop then .i else .s, owner := 0 })

/-! ### Cleaning and maintenance (R103, R105, R106) -/

/-- Act on lines of one core's L1: clean, then drop. The Bool says that all of it is done. -/
def State.maintL1 (s : State) (core : Nat) (lines : List Nat) (clean drop : Bool) : State × Bool :=
  lines.foldl (fun (q : State × Bool) l =>
    let (s, ok) := if clean then q.1.cleanL1 core l else (q.1, true)
    if !ok then (s, false) else (if drop then s.dropL1 core l else s, q.2)) (s, true)
/-- The same for the L2. -/
def State.maintL2 (s : State) (lines : List Nat) (clean drop : Bool) : State × Bool :=
  lines.foldl (fun (q : State × Bool) l =>
    let (s, ok) := if clean then q.1.cleanL2 l else (q.1, true)
    if !ok then (s, false) else (if drop then s.dropL2 l else s, q.2)) (s, true)

def State.l1Lines (s : State) (core : Nat) : List Nat := match s.core? core with | some c => c.l1.map (·.line) | none => []

/-- R103: write back and drop every device copy of some frames' lines. -/
def State.cleanFrames (s : State) (frames : List Nat) : State × Bool :=
  let mine (l : Nat) : Bool := frames.contains (l / 64)
  let (s, ok) := (List.range 16).foldl (fun (q : State × Bool) c =>
    let (s, ok) := q.1.maintL1 c ((q.1.l1Lines c).filter mine) true true
    (s, q.2 && ok)) (s, true)
  let (s, ok') := s.maintL2 ((s.l2.map (·.line)).filter mine) true true
  ((s.dir.filter fun d => mine d.1 && decide (d.2.cores ≠ 0)).foldl (fun s d => s.setDir d.1 { s.dirOf d.1 with cores := 0 }) s, ok && ok')

/-- FRAME_CLEAN: a CLN request arrives and its work begins. -/
def execFrameClean (e : EvFrames) (s : State) : Host.Outcome State Fault Refusal :=
  .next ({ s with cleans := s.cleans ++ [e.frames] }.cleanFrames e.frames).1

/-- FRAME_CLEAN_COMPLETE: nothing is left of the first request's frames. -/
def execFrameCleanComplete (s : State) : Host.Outcome State Fault Refusal :=
  match s.cleans with
  | [] => .next s
  | f :: fs =>
    match s.cleanFrames f with
    | (s, true) => .next ({ s with cleans := fs }.send (.cleanDone f))
    | (s, false) => .next s

/-- CMAINT_COMPLETE. -/
def execCmaintComplete (e : EvFlight) (s : State) : Host.Outcome State Fault Refusal :=
  match s.flight? e.flight with
  | none => .next s
  | some f =>
    match f.kind, f.reqs with
    | .cmaint opn extent scope, [r] =>
      if !(s.mayPerform f r) then .next s
      else
        let clean := decide (opn ≠ 1)
        let drop := decide (opn ≠ 0)
        let (s, ok) := s.maintL1 f.core (if extent = 2 then s.l1Lines f.core else f.zero) clean drop
        let (s, ok') := if 6 ≤ scope then s.maintL2 (if extent = 2 then s.l2.map (·.line) else f.zero) clean drop else (s, true)
        if ok && ok' then
          .next ((s.modFlight f.id fun f => { f with reqs := f.reqs.map fun r => { r with st := .done } }).returnFlight f.id)
        else .next s
    | _, _ => .next s

/-- ICINV_COMPLETE. -/
def execIcinvComplete (e : EvSplit) (s : State) : Host.Outcome State Fault Refusal :=
  match s.team? e.team with
  | none => .next s
  | some t =>
    match t.split? e.split, s.group? t.group with
    | some p, some g =>
      (match p.icinv with
        | none => .next s
        | some (lo, hi) =>
          let drop (c : Core) : Core := { c with icache := c.icache.filter fun l =>
              !(decide (l.asid = g.asid) && decide (lo ≤ l.line * 64) && decide (l.line * 64 < hi)) }
          let loops (t : Team) : Team := { t with loop := t.loop.filter fun l =>
              !(decide (l.asid = g.asid) && decide (lo < l.va + (if l.w1.isSome then 8 else 4)) && decide (l.va < hi)) }
          .next ({ s with cores := s.cores.map drop, teams := s.teams.map loops }.modSplit t.id p.uid fun p => { p with icinv := none }))
    | _, _ => .next s

/-! ### Trace records (R60, R399) -/

/-- The addresses that the next record of some bytes would take in the ring. -/
def Dbg.ringPlaces (d : Dbg) (len : Nat) : List Nat := (List.range len).map fun i => d.ringBase + (d.ringWp + i) % d.ringSize
/-- The lines of some bytes, each with the sectors that they do not fill (R14). -/
def partSectors (as : List Nat) : List (Nat × List Nat) :=
  ((as.map (· / 64)).eraseDups).map fun l => (l, (List.range 4).filter fun k =>
    let n := (as.filter fun a => decide (a / 16 = 4 * l + k)).length
    decide (0 < n ∧ n < 16))

/-- R399: a record comes to the SLC. Records of one split keep their order; those of its team that name no split keep theirs to
all of them. R100, R101: it asks at the slices of its lines as any write does, and meanwhile no other record does. -/
def State.ringTurn (s : State) (i : Nat) : State :=
  match s.dbg.ringQ.find? fun q => decide (q.1 = i) with
  | none => s
  | some (_, (tid, uid), words) =>
    let gone (s : State) : State := { s with dbg := { s.dbg with ringQ := s.dbg.ringQ.filter fun q => q.1 ≠ i } }
    let len := words.length * 4
    if (s.dbg.ringQ.any fun q => decide (q.1 < i ∧ q.2.1.1 = tid ∧ (q.2.1.2 = uid ∨ q.2.1.2 = 0 ∨ uid = 0))) ||
        (s.slcQ.any fun q => s.claimLive q && (match q.2 with | .ring j => decide (j ≠ i) | _ => false)) then s
    -- one that is dropped reaches no line
    else if s.dbg.ringSize = 0 ∨ s.dbg.ringFree ≤ len then gone (s.ringWrite words)
    else
      let ls := partSectors ((s.dbg.ringPlaces len).filter fun a => s.backed a && decide (sget 0 s.frameOwner (a / 4096) = 0))
      match ls.foldl (fun (q : State × Bool) l => let (s, ok) := q.1.slcAsk l.1 l.2 true none (.ring i); (s, q.2 && ok)) (s, true) with
      | (s, false) => s
      | (s, true) => gone ((ls.foldl (fun s l => s.noticeWrite (.slc none) l.1 .device) s).ringWrite words)

/-! ### Banks (R62 to R69) -/

/-- BANK_ACCESS: it is served at once, or as the head of the queue; otherwise it takes its place behind what arrived
before it. -/
def execBankAccess (e : EvBankAccess) (s : State) : Host.Outcome State Fault Refusal :=
  let b := s.bank e.bank
  match b.running, b.queue with
  | none, [] => .next (s.putBank e.bank (s.serveBank b e.row e.write))
  | none, .access row write line :: q =>
    if row = e.row ∧ write = e.write then .next ((s.putBank e.bank { b with queue := q }).accessServed e.bank row write line)
    else .next (s.putBank e.bank { b with queue := b.queue ++ [.access e.row e.write none] })
  | _, _ => .next (s.putBank e.bank { b with queue := b.queue ++ [.access e.row e.write none] })

/-- PER_BANK_REFRESH: a refresh that falls due during a segment operation runs after it. Refresh management counts the
activations since the last one (R55). -/
def execPerBankRefresh (e : EvBank) (s : State) : Host.Outcome State Fault Refusal :=
  let b := s.bank e.bank
  .next { s.putBank e.bank (if b.running.isSome then { b with refreshDue := true } else { b with refreshDue := false, acts := [] }) with
    selfRefresh := s.selfRefresh }

/-- BANK_SEGMENT_REQUEST: the head of the queue is a promotion or a demotion; an access before them is served (R64). -/
def execBankSegmentRequest (e : EvBank) (s : State) : Host.Outcome State Fault Refusal :=
  let b := s.bank e.bank
  if b.running.isSome ∨ b.refreshDue then .next s
  else
    match b.queue with
    | .promote row pin tok team :: q =>
      let b := { b with queue := q }
      (match b.slotOf row with
        | some (k, x) =>
          .next ((s.putBank e.bank { b with slots := putSlot b.slots k { x with pin := x.pin || pin } }).answer team tok (promoteResult k 3))
        | none =>
          match b.choose s.slotsS with
          | none => .next ((s.putBank e.bank b).answer team tok (promoteResult 0 5))
          | some (k, none) => .next (s.putBank e.bank { s.segmentActs b row k with running := some (.copy k row pin 0 tok team) })
          | some (k, some v) =>
            if v.dirty then .next (s.putBank e.bank { s.segmentActs b v.frow k with running := some (.evictWb k row pin tok team) })
            else .next (s.putBank e.bank { s.segmentActs b row k with slots := dropSlot b.slots k, running := some (.copy k row pin 1 tok team) }))
    | .demote row tok team :: q =>
      let b := { b with queue := q }
      (match b.slotOf row with
        | none => .next ((s.putBank e.bank b).answer team tok (promoteResult 0 6))
        | some (k, x) =>
          if x.dirty then .next (s.putBank e.bank { s.segmentActs b row k with running := some (.demoteWb k tok team) })
          else .next ((s.putBank e.bank { b with slots := dropSlot b.slots k }).answer team tok (promoteResult k 1)))
    | .access row write line :: q => .next ((s.putBank e.bank { b with queue := q }).accessServed e.bank row write line)
    | [] => .next s

/-- SEGMENT_WRITEBACK_DONE. -/
def execSegmentWritebackDone (e : EvBank) (s : State) : Host.Outcome State Fault Refusal :=
  let b := s.bank e.bank
  match b.running with
  | some (.evictWb k row pin tok team) =>
    .next (s.putBank e.bank { s.segmentActs b row k with slots := dropSlot b.slots k, running := some (.copy k row pin 2 tok team) })
  | some (.demoteWb k tok team) =>
    .next ((s.putBank e.bank { b with slots := dropSlot b.slots k, running := none }).answer team tok (promoteResult k 2))
  | _ => .next s

/-- SEGMENT_COPY_DONE. -/
def execSegmentCopyDone (e : EvBank) (s : State) : Host.Outcome State Fault Refusal :=
  let b := s.bank e.bank
  match b.running with
  | some (.copy k row pin status tok team) =>
    .next ((s.putBank e.bank { b with
      slots := putSlot b.slots k { pin := pin, dirty := false, frow := row, stamp := s.time / 1024 % 2 ^ 32 }
      running := none }).answer team tok (promoteResult k status))
  | _ => .next s

end Sys2Proof.Machine
end

