-- ==== Sys2Proof/Machine/Launch.lean ====
section
/-!
DEFINITION. From spawn to placement and from the last EXIT to DONE: the spawn window (R316), the checks of a launch
(R320 to R322), tile staging (R330), placement (R290, R291, R323, R327), the ends of teams, groups and nodes (R308, R318,
R324, R325), claim queues (R313, R314), rotation (R297).
-/
namespace Sys2Proof.Machine

/-! ### Claim queues (R313, R314) -/

/-- R314: a command of the core that has not finished names the object of a BWAIT. -/
def State.objectNamed (s : State) (core : Nat) (g : Group) (w : Nat) : Bool :=
  match s.engWord g w 16 16 false with
  | .error _ => false
  | .ok x => s.groups.any fun h => decide (h.core = core) && h.engs.any fun e => e.2.cmds.any fun (c : EngCmd) =>
      c.unfinished && decide (c.bar ≠ 0) && (match s.engWord h c.bar.toNat 16 16 true with
        | .ok y => decide (x = y)
        | .error _ => false)

/-- R314: a split that only the head of the claim queue could set going. -/
def State.stuck (s : State) (t : Team) (p : Split) : Bool :=
  match p.st, p.busy with
  | .barWait, _ | .joinWait, _ => true
  | .blocked, some (.claim _, _) => true
  | .blocked, some (.grid o, _) => (gridQuads o.d.toNat t.quad).any fun q => s.quadUngridded t.core q && !(s.quadRoom t.core q)
  | .blocked, some (.bwait _, [w]) =>
    (match s.group? t.group with | some g => !(s.objectNamed t.core g w) | none => false)
  | _, _ => false

/-- CLAIM_GRANT: the head of a quad's queue gets its units, or, in a claim deadlock, traps. -/
def execClaimGrant (e : EvQuad) (s : State) : Host.Outcome State Fault Refusal :=
  match (s.quadOf e.core e.quad).claims with
  | [] => .next s
  | (tid, uid) :: rest =>
    let off (s : State) : State := s.modQuad e.core e.quad fun q => { q with claims := rest }
    match s.team? tid with
    | none => .next (off s)
    | some t =>
      match (t.split? uid).bind fun p => p.busy.map fun b => (p, b) with
      | some (p, (.claim o, [n])) =>
        let back := (off s).modSplit tid uid fun p => { p with st := .ready, busy := none }
        -- R312: an earlier grant to the team may have left no room for this one (DEDUCED, log 34)
        if 24 < t.gran + n ∨ 524288 < (t.gran + n) * 32 * t.size then
          .next ((back.raise tid uid 149 (n % 65536) (s.lanesOf t p) false p.pc).getD s)
        else if n * t.size / 32 ≤ s.freeUnits e.core e.quad then
          .next (((off s).grantClaim tid uid n o.d).complete tid uid)
        -- the units of a team that has ended are still to return
        else if (s.homed e.core e.quad).all fun t => decide (t.residence ≠ .ended) && (t.live ++ t.handler.toList).all (s.stuck t) then
          .next ((back.raise tid uid 148 (n * t.size / 32 % 65536) p.own false p.pc).getD s)
        else .next s
      | _ => .next (off s)

/-! ### Rotation (R297 to R299) -/

/-- R297: a resident split that rotation may spill: at an instruction boundary, or BLOCKED in an instruction that has not
acted (R294). -/
def Team.spillable (t : Team) (p : Split) : Bool :=
  p.park.isNone && decide (p.st ≠ .parked) && decide (p.exec = p.own) && !(t.owes p.uid) && decide (p.reload = 0) &&
  p.icinv.isNone && (match p.fence with | some f => decide (2 ≤ f.kind) | none => true) &&
  (match p.busy with | some (.mxv _, _ :: _) | some (.rbox _, _ :: _) | some (.atlnext _, [_]) => false | _ => true)
/-- R292, R297: every pass of the split's last instruction has issued. -/
def State.passed (s : State) (t : Team) (p : Split) : Bool :=
  match s.core? t.core with | some k => k.passes.all fun x => decide (x.team ≠ t.id ∨ x.split ≠ p.uid) | none => true

/-- SPLIT_ROTATION. The splits of one divergence share RES: of several eligible splits with the smallest, the one that the
model's table lists first is spilled; R297 does not say which (DESIGN CHOICE, log 33). -/
def execSplitRotation (e : EvTeam) (s : State) : Host.Outcome State Fault Refusal :=
  match s.team? e.team with
  | none => .next s
  | some t =>
    match t.deferred, t.splits.filter fun p => t.spillable p && s.passed t p with
    | d :: ds, c :: cs =>
      if decide (t.rotDue = 0) || t.handler.isSome || decide (t.residence ≠ .resident) then .next s
      else
        let v := cs.foldl (fun (a : Split) p => if p.res < a.res then p else a) c
        let arming := s.arming t.id v.uid
        let s := s.dropArms t.id v.uid
        let s := { s with monRegs := s.monRegs.filter fun r => !(decide (r.2.1 = t.id) && decide (r.2.2.1 = v.uid))
                          rpcQ := s.rpcQ.filter fun r => r ≠ (t.id, v.uid) }
        let s := s.modQuad t.core t.quad fun q => { q with claims := q.claims.filter fun r => r ≠ (t.id, v.uid) }
        .next (s.modTeam t.id fun t =>
          let t := t.settle v.uid
          -- R152: an armed monitor becomes fired, and so does one whose registration is on its way (DEDUCED, log 34)
          let v' : Split := { v with mon := if arming then .fired else v.mon }
          { t with
            splits := t.splits.filter fun p => p.uid ≠ v.uid
            deferred := ds ++ [v'.spill]
            rotDue := t.rotDue - 1 }.reloadAt d v.slot)
    | _, _ => .next s

/-- SPLIT_RELOAD: the cycles of the shortest reload of the team pass. -/
def execSplitReload (e : EvTeam) (s : State) : Host.Outcome State Fault Refusal :=
  match s.team? e.team with
  | none => .next s
  | some t =>
    let left := (t.splits.map (·.reload)).filter fun n => decide (n ≠ 0)
    match left with
    | [] => .next s
    | n :: ns =>
      if t.residence ≠ .resident then .next s
      else .next (s.passCycles t.core (ns.foldl min n))

/-! ### The end of teams and groups (R308) -/

/-- TEAM_GRANULE_RETURN: an ended team whose accesses have all returned leaves its quad. -/
def execTeamGranuleReturn (e : EvTeam) (s : State) : Host.Outcome State Fault Refusal :=
  match s.team? e.team with
  | none => .next s
  | some t =>
    if t.residence = .ended ∧ t.grid = none ∧ s.flights.all fun f => decide (f.team ≠ t.id) then .next (s.dropTeam t.id) else .next s

/-- The lowest-numbered halted context of a group, with its code. -/
def Group.firstHalted (g : Group) : Option (Nat × Nat) :=
  g.engs.foldl (fun a e => match e.2.halted with
    | some c => (match a with | some (k, _) => if e.1 < k then some (e.1, c) else a | none => some (e.1, c))
    | none => a) none

/-- GROUP_END. A group with a halted context takes the group path; a yard member leaves its yard first (R114). -/
def execGroupEnd (e : EvGroup) (s : State) : Host.Outcome State Fault Refusal :=
  match s.group? e.group with
  | none => .next s
  | some g =>
    if s.teams.any fun t => decide (t.group = g.id) then .next s
    else
      match g.firstHalted with
      | some (sel, code) => .next (s.groupPath g.id code (engDetail sel) true true)
      | none =>
        if !(g.engs.all fun x => x.2.cmds.all fun (c : EngCmd) => !c.unfinished) then .next s
        else
          let leave (s : State) : State :=
            let s := { (s.revokeYard g.id) with groups := s.groups.filter fun x => x.id ≠ g.id
                                                poisoned := s.poisoned.filter fun q => !(decide (q.1 = Space.win g.id)) }
            match s.node? g.node with
            | none => s
            | some n => (s.modNode n.id fun n => { n with live := n.live - 1 }).jcAdd n.asid n.jca 1
          match s.yardOf g.id with
          | none => .next (leave s)
          | some (y, m) =>
            let s := s.markLeaving g.id
            .next (if s.yardQuiet g y m.idx then leave s else s)

/-! ### Spawns (R316, R317) -/

/-- SPAWN_WRITE. -/
def execSpawnWrite (e : EvSpawn) (s : State) : Host.Outcome State Fault Refusal :=
  if !(s.spawnsOpen e.asid) ∨ e.offset ≠ 0 ∨ e.payload.length ≠ 16 then .next (s.send (.memDone 1))
  else if s.poolFree = 0 then .next (s.send (.spawnDone 1))
  else
    let w (k : Nat) : Nat := (e.payload.getD k 0).toNat
    let hdr := w 0 + w 1 * 2 ^ 32
    let jca := w 10 + w 11 * 2 ^ 32
    let bad := decide (hdr % 256 ≠ 0 ∨ 2 ^ 48 ≤ hdr ∨ jca % 8 ≠ 0) || (List.range 4).any fun i => decide (w (12 + i) ≠ 0)
    let (s, _) := s.createNode fun i h =>
      { id := i, handle := h, asid := e.asid, hdrAddr := hdr % 2 ^ 48, spawned := true,
        args := (List.range 8).map fun i => e.payload.getD (2 + i) 0, jcaSpawn := jca, bad := bad }
    .next (s.send (.spawnDone 0))

/-! ### The checks of a launch (R320 to R322) -/

/-- n bits of a header from byte b. -/
def hBits (h b lo n : Nat) : Nat := h / 256 ^ b / 2 ^ lo % 2 ^ n
def hWord (h b : Nat) : Nat := hBits h b 0 32
def hDword (h b : Nat) : Nat := hBits h b 0 64

/-- R321: role r of a header. -/
def hRole (h r : Nat) : RoleEnt :=
  let b := 0x40 + 24 * r
  { entry := BitVec.ofNat 32 (hWord h b), trapv := BitVec.ofNat 32 (hWord h (b + 4)), logT := hBits h (b + 8) 0 8,
    regs := hBits h (b + 9) 0 8, count := hBits h (b + 10) 0 16, lanes := hWord h (b + 12) }

/-- R320: a header as read. -/
def parseHeader (h : Nat) (recs : Nat) (param : Option (List Word)) : Header :=
  let f := hWord h 4
  let sp := hBits h 0x2C 0 16
  { urgent := f.testBit 4, yard := f.testBit 3, region := f.testBit 2, trapDepth := f.testBit 1, idem := f.testBit 0
    widths := (List.range 6).map fun i => hBits h 8 (6 * i) 6
    exts := (List.range 4).map fun i => hWord h (0x10 + 4 * i)
    ws := max 256 ((hWord h 0x20 + 255) / 256 * 256), xb := hWord h 0x24, privBytes := hWord h 0x28
    accSlots := hBits h 0x2C 16 16, spill := if sp = 0 then 24 else sp
    pwr := hBits h 0x30 10 2, prio := hBits h 0x30 8 2, retry := hBits h 0x30 0 8
    loftReq := hWord h 0x34, jca := hDword h 0x38
    roles := (List.range 4).map (hRole h)
    records := (List.range 32).map fun i => BitVec.ofNat 128 (recs / 2 ^ (128 * i))
    param := param
    tiles := (List.range 4).map fun i => (hBits h (0xB0 + 8 * i) 60 2, hBits h (0xB0 + 8 * i) 48 12, hBits h (0xB0 + 8 * i) 12 36 * 4096)
    kind := hBits h 0xD0 16 4, maxd := hBits h 0xD0 0 16, codeBase := hDword h 0xD8 }

/-- R322: the first reason against a header; 0 when there is none. -/
def headerReason (raw : Nat) (h : Header) (bad : Bool) (slots : Nat) : Nat :=
  let live := h.roles.filter fun r => decide (r.count ≠ 0)
  let roleRsv := (List.range 4).any fun r => decide (hBits raw (0x4A + 24 * r) 0 16 ≠ 0) && decide (hDword raw (0x50 + 24 * r) ≠ 0)
  let tileRsv := (List.range 4).any fun i => decide (hBits raw (0xB0 + 8 * i) 62 2 ≠ 0) || decide (hBits raw (0xB0 + 8 * i) 0 12 ≠ 0)
  let ts := teamsOf h.roles
  if decide (hBits raw 0 16 16 ≠ 0x4751) || decide (hBits raw 0 0 16 ≠ 1) || decide (hWord raw 4 / 32 ≠ 0) || decide (hDword raw 8 / 2 ^ 36 ≠ 0) ||
      decide (hWord raw 0x30 / 2 ^ 12 ≠ 0) || decide (h.prio = 3) || decide (h.pwr = 3) || tileRsv || decide (hDword raw 0xD0 / 2 ^ 20 ≠ 0) ||
      decide (h.codeBase % 256 ≠ 0) || decide (2 ^ 48 ≤ h.codeBase) || decide (hBits raw 0xE0 0 256 ≠ 0) || decide (h.jca % 8 ≠ 0) ||
      decide (hDword raw 0xA0 % 16 ≠ 0) || decide (hDword raw 0xA8 % 32 ≠ 0) || roleRsv || bad then 2
  else if decide ((h.roles.getD 0 (hRole raw 0)).count = 0) || decide (64 < (live.map (·.count)).sum) ||
      live.any (fun r => decide (r.logT < 5 ∨ 10 < r.logT ∨ r.regs % 8 ≠ 0 ∨ r.regs < 8 ∨ 192 < r.regs ∨
        r.entry.toNat % 4 ≠ 0 ∨ r.trapv.toNat % 4 ≠ 0 ∨ 524288 < r.regs * 4 * 2 ^ r.logT ∨ r.count * 2 ^ r.logT < r.lanes)) then 3
  else if decide (h.widths.getD 0 0 ≠ (live.map (·.logT)).foldl max 0) || decide (2 ^ h.widths.getD 1 0 < ts.length) ||
      decide (64 < h.widths.sum) || (List.range 4).any (fun i => decide (2 ^ h.widths.getD (i + 2) 0 < h.exts.getD i 0)) then 4
  else if h.exts.contains 0 || decide (2 ^ 32 - 1 < gridCount h.exts) then 5
  else if decide (h.xb % 256 ≠ 0 ∨ h.ws - 256 < h.xb ∨ h.privBytes % 4 ≠ 0 ∨ 4096 < h.privBytes ∨ 256 ≤ h.spill ∨
      h.accSlots < 1 ∨ 2048 < h.accSlots ∨ 2 ^ 20 < h.scratch) then 6
  else if decide (2 ≤ h.kind) || (decide (h.kind = 1) && h.exts.any fun e => decide (e ≠ 1)) then 7
  else if decide (slots < h.accSlots) || (homeTeams (ts.map fun t => t.2.1.units) ((List.range 4).map fun q => (q, 512, 0))).isNone then 8
  else 0

/-! ### Dispatch, completion, cancellation (R318, R322, R324, R325) -/

/-- R324: the nodes that are cancelled with some nodes, and those cancelled with them in turn. The length bounds the
recursion. -/
def cancelAfter : Nat → List Nat → List Node → List Node
  | 0, _, l => l
  | k + 1, ids, l =>
    let hit (x : Node) : Bool := !x.cancelled && x.preds.any fun i => ids.contains i
    cancelAfter k ((l.filter hit).map (·.id)) (l.map fun x => if hit x then { x with cancelled := true } else x)

/-- R324: a node is complete: its last add, its entry, its successors; `failed` when it was rejected or cancelled. -/
def State.finishNode (s : State) (n : Node) (jca value : Nat) (failed : Bool) : State :=
  let s := s.jcAdd n.asid jca value
  let e := n.handle % 4096
  { s with
    nodes := (let l := s.nodes.filter fun x => x.id ≠ n.id
      let l := if failed then cancelAfter l.length [n.id] l else l
      l.map fun x => { x with preds := x.preds.filter (· ≠ n.id) })
    entryGens := freedEntry s.entryGens e
    staged := s.staged.filter fun q => q.1 ≠ n.id }

/-- R322: a node is rejected or cancelled with a reason. -/
def State.rejectNode (s : State) (n : Node) (jca r : Nat) : State := s.finishNode n jca (r * 2 ^ 48 + 2 ^ 56) true

/-- R322, R379: the most accumulator slots that a core of a context has. -/
def State.mostSlots (s : State) (x : Ctxt) : Nat := ((bitsBelow x.mask 16).map s.coreSlots).foldl max 0

/-- NODE_DISPATCH: the checks at first dispatch. The first record of a node of KIND 1 is added whatever room the pool has: R317
does not say what happens when no entry is free (DESIGN CHOICE, log 33). -/
def execNodeDispatch (e : EvNode) (s : State) : Host.Outcome State Fault Refusal :=
  match s.node? e.node with
  | none => .next s
  | some n =>
    match s.ctx? n.asid with
    | none => .next s
    | some x =>
      if n.cancelled then
        -- R324: it completes at once; only its counter's address may still have to be read
        let (s', r) := if n.jcaSpawn ≠ 0 then (s, DRead.ok n.jcaSpawn) else s.dispRead n.asid (n.hdrAddr + 0x38) 8
        match r with
        | .busy => .next s'
        | .ok jca => .next (s'.rejectNode n jca 16)
        | .fail => .next (s'.rejectNode n 0 16)
      else if n.header.isSome || decide (n.preds ≠ []) || x.halted || x.swapped then .next s
      else
        let (s', hr) := s.dispRead n.asid n.hdrAddr 256
        let raw := match hr with | .ok x => x | _ => 0
        -- the counter's address may be readable where the header is not
        let (s', jr) := if n.jcaSpawn ≠ 0 then (s', DRead.ok n.jcaSpawn) else match hr with
          | .ok x => (s', .ok (hDword x 0x38))
          | _ => s'.dispRead n.asid (n.hdrAddr + 0x38) 8
        let jca := match jr with | .ok x => x | _ => 0
        let block (s : State) (va k : Nat) : State × DRead := if va = 0 then (s, .ok 0) else s.dispRead n.asid (va % 2 ^ 48) k
        let (s', rr) := block s' (hDword raw 0xA0) 512
        let (s', pr) := block s' (hDword raw 0xA8) 32
        let (s', ar) := block s' n.argAddr 32
        let words (r : DRead) : List Word := match r with | .ok x => (List.range 8).map (blockWord x) | _ => []
        let rs := [hr, rr, pr, ar, if jr = .busy then .busy else .ok 0]
        if rs.any fun r => decide (r = .busy) then .next s'
        else if rs.any fun r => decide (r = .fail) then .next (s'.rejectNode n jca 1)
        else
          let recs := match rr with | .ok x => x | _ => 0
          let h := parseHeader raw recs (if hDword raw 0xA8 = 0 then none else some (words pr))
          match headerReason raw h n.bad (s.mostSlots x) with
          | 0 =>
            let arg := if n.argAddr = 0 then none else some (words ar)
            let first := if h.kind = 0 then []
              else if n.spawned then [⟨n.args, 0⟩] else match arg with | some w => [⟨w, 0⟩] | none => []
            .next (s'.modNode n.id fun n => { n with header := some h, argBlock := arg, records := first ++ n.records })
          | r => .next (s'.rejectNode n jca r)

/-- R318, R325: the node has nothing left to run. -/
def Node.spent (n : Node) : Bool :=
  match n.header with
  | none => false
  | some h => decide (n.live = 0) && decide (n.again = []) && (if h.kind = 0 then decide (gridCount h.exts ≤ n.nextGroup) else decide (n.records = []))

/-- NODE_COMPLETE. -/
def execNodeComplete (e : EvNode) (s : State) : Host.Outcome State Fault Refusal :=
  match s.node? e.node with
  | none => .next s
  | some n => if n.spent && decide (n.preds = []) then .next (s.finishNode n n.jca (2 ^ 56) false) else .next s

/-! ### Tile staging (R329, R330) -/

/-- R386: line x of the loft lies in the staging space: in no region. -/
def State.stagingLine (s : State) (x : Nat) : Bool :=
  s.ctxs.all fun c => c.regions.all fun r => decide (64 * x + 64 ≤ r.1 ∨ r.1 + r.2 ≤ 64 * x)
/-- R13, R115, R330: where a line of a mesh stop may be staged: the free lines of the staging space in the stop's loft banks;
banks 16k to 16k + 15 are taken as those of stop k (PRESUMED, log 35). -/
def State.stagePlaces (s : State) (stop : Nat) (taken : List Nat) : List Nat :=
  (List.range 65536).filterMap fun i =>
    let x := i / 16 * 256 + 16 * stop + i % 16
    if s.stagingLine x && !(taken.contains x) then some x else none

/-- R330: the physical lines of some pages that can be read; none while a table is being read. -/
def State.stageLines (s : State) (asid : Nat) : List Nat → State × Option (List Nat)
  | [] => (s, some [])
  | va :: vas =>
    match s.lineOf none asid va { r := true, anyOwner := true } with
    | (s, .busy) => (s, none)
    | (s, .ok _ line _) =>
      let (s, r) := s.stageLines asid vas
      (s, r.map fun l => (List.range 64).map (line + ·) ++ l)
    | (s, _) => s.stageLines asid vas
/-- R330: the lines that are staged beside `acc`, each with its place in the loft, of which no rule says which: staging stops at
the first that the loft banks of its mesh stop have no room for. -/
def State.stageFits (s : State) (nid : Nat) : List Nat → List (Nat × Nat × Nat) → List (Nat × Nat × Nat)
  | [], acc => acc
  | l :: ls, acc =>
    let free := s.stagePlaces (s.slcSlice l) ((s.staged ++ acc).map (·.2.2))
    match free[Config.openValue (15 + 16 * l) s.nextId % free.length]? with
    | some x => s.stageFits nid ls (acc ++ [(nid, l, x)])
    | none => acc

/-- TILE_STAGING. -/
def execTileStaging (e : EvNode) (s : State) : Host.Outcome State Fault Refusal :=
  match s.node? e.node with
  | none => .next s
  | some n =>
    match n.header with
    | none => .next s
    | some h =>
      if n.staged then .next s
      else
        match s.stageLines n.asid (h.tilePages [1, 3]) with
        | (s, none) => .next s
        | (s, some l) =>
          let l := s.stageFits n.id (l.take ((h.loftReq + 63) / 64)) []
          .next ({ s with staged := s.staged ++ l }.modNode n.id fun n => { n with staged := true })

/-! ### Placement (R327, R328, R335) -/

/-- R335: T of a core. -/
def State.target (s : State) (core : Nat) : Nat :=
  let here := s.groupsOn core
  let next := match s.nextPlaced with | some (_, _, c) => decide (c = core) | none => false
  if here = [] ∧ next = false then 0
  else
    let cap (x : Ctxt) : Nat := min (s.request core x.asid) x.ceiling
    min ((s.ctxs.map cap).foldl max 0) s.gov.ceiling

/-- R335, R336: T of a core were every request at its most: what the ceilings alone allow. -/
def State.ceilTarget (s : State) (core : Nat) : Nat :=
  let here (x : Ctxt) : Bool := (s.groupsOn core).any (fun g => decide (g.asid = x.asid)) ||
    (match s.nextPlaced with | some (n, _, c) => decide (c = core ∧ n.asid = x.asid) | none => false)
  min (((s.ctxs.filter here).map (·.ceiling)).foldl max 0) s.gov.ceiling

/-- R323, R52, R293: a team as placed. -/
def launchTeam (h : Header) (x : Ctxt) (gid core gamma per : Nat) (words : List Word) (id uid index quad slot : Nat)
    (role : Nat) (r : RoleEnt) (lanes : Nat) : Team :=
  let own := lanesBelow lanes
  let serial := gamma * per + index
  let st := BitVec.ofNat 32 (serial % 65536) * (0x9E3779B9 : Word) ^^^ 0x6A09E667
  { id := id, group := gid, role := role, index := index, serial := serial, size := 2 ^ r.logT, gran := r.regs / 8,
    slot := slot, quad := quad, core := core, trapv := r.trapv, entry := r.entry, present := own,
    g := ssets 0 [] ((List.range 8).map fun k => (k, words.getD k 0)),
    b := ssets 0 [] ((List.range 32).map fun k => (k, h.records.getD k 0)),
    splits := [{ uid := uid, pc := r.entry, own := own, exec := own }],
    stoch := if st = 0 then 1 else st, perf := h.request x,
    regpc := if h.region then r.entry else 0,
    region := if h.region then some { own := own, exec := own, mode := 0 } else none,
    placedAt := id }

/-- R327: the team slots free on a core, ascending. -/
def State.teamSlots (s : State) (core : Nat) : List Nat :=
  (List.range 64).filter fun k => !((s.teamsOn core).any fun t => decide (t.slot = k))

/-- R290, R291, R327: place a group of a node on a core whose quads are given. -/
def State.placeGroup (s : State) (n : Node) (h : Header) (x : Ctxt) (core : Nat) (quads : List Nat)
    (p : Nat × Nat × List Word × Nat) : State :=
  let (gamma, relaunch, words, depth) := p
  let ts := teamsOf h.roles
  let gid := s.nextId
  let slots := s.teamSlots core
  let teams := ts.zipIdx.map fun t =>
    launchTeam h x gid core gamma ts.length words (gid + 1 + 2 * t.2) (gid + 2 + 2 * t.2) t.2 (quads.getD t.2 0) (slots.getD t.2 0)
      t.1.1 t.1.2.1 t.1.2.2
  let g : Group := {
    id := gid, node := n.id, asid := n.asid, gamma := gamma, core := core, ws := h.ws, xb := h.xb, privBytes := h.privBytes, spill := h.spill,
    accSlots := h.accSlots, depth := depth, words := words, relaunch := relaunch, cls := h.cls, idem := h.idem,
    yardOk := h.yard, trapDepth := h.trapDepth, codeBase := h.codeBase, widths := h.widths, exts := h.exts, perTeams := ts.length, placedAt := gid }
  let s := { s with nextId := gid + 1 + 2 * ts.length, groups := s.groups ++ [g], teams := s.teams ++ teams }
  let s := s.modCore core fun k => { k with idleNs := 0 }
  -- R288: each team begins with an acquire at system scope
  let s := teams.foldl (fun s t => t.splits.foldl (fun s p => s.splitAcquires t.id p.uid 6) s) s
  s.modNode n.id fun n =>
    let n := { n with live := n.live + 1 }
    if n.again.any fun a => decide (a = p) then { n with again := n.again.erase p }
    else if h.kind = 0 then { n with nextGroup := n.nextGroup + 1 } else { n with records := n.records.tail }

/-- GROUP_PLACEMENT: the node that is served next places its next group, when its core is on and at its level (R336). -/
def execGroupPlacement (e : EvNode) (s : State) : Host.Outcome State Fault Refusal :=
  match s.nextPlaced with
  | none =>
    .next (match s.headNode.bind fun n => n.header.map fun h => (n, h) with
      | some (n, h) => (s.findTiles n.asid (h.tilePages [2])).1
      | none => s)
  | some (n, h, c) =>
    match n.nextPlace, s.ctx? n.asid, s.core? c with
    | some p, some x, some k =>
      -- R345: a gated core wakes first, one core at a time
      if decide (n.id = e.node) && decide (k.power = .gated) then
        .next (if s.cores.any fun k => decide (k.power = .waking) then s else { s.modCore c fun k => { k with power := .waking } with selfRefresh := false })
      else if decide (n.id ≠ e.node) || decide (k.power ≠ .on) || k.moving.isSome ||
          (!h.urgent && decide (s.groupsOn c = []) && decide (k.level ≠ s.target c)) then .next s
      else
        match s.homesOn c h (s.coreSlots c) with
        | some quads => .next (s.placeGroup n h x c quads p)
        | none => .next s
    | _, _, _ => .next s

end Sys2Proof.Machine
end

