-- ==== Sys2Proof/Machine/Power.lean ====
section
/-!
DEFINITION. The events of power: performance levels (R335, R336), droop (R343), gates and wakes (R344, R345), the
skin-temperature ladder (R347), the governor's levers (R342, R349), timers (R47, R48), the charge window (R340), idle bay
cycles (R397).
-/
namespace Sys2Proof.Machine

/-- The core is on, and not moving between levels. -/
def State.coreOn (s : State) (core : Nat) : Bool :=
  match s.core? core with | some k => decide (k.power = .on) && decide (k.moving = none) | none => false

/-! ### Levels (R336) -/

/-- R336, R371: a group is in a run: it is on its core and its teams have not been stopped. -/
def State.inRun (s : State) (g : Group) : Bool :=
  g.here &&
  (let ts := s.livingTeams g.id
   decide (ts = []) || ts.any fun t => decide (t.residence = .resident))

/-- R328, R373: an urgent group that fits no core, with the cores that may make room for it. -/
def State.urgentNeed (s : State) : Option (Header × Ctxt) :=
  match s.headNode with
  | none => none
  | some n =>
    match n.header, s.ctx? n.asid with
    | some h, some x => if h.urgent && (s.chooseCore n h).isNone then some (h, x) else none
    | _, _ => none

/-- R373, R376: what a core lacks for the group: scratchpad or accumulator slots. -/
def State.lacksSpace (s : State) (core : Nat) (h : Header) : Bool :=
  let gs := s.groupsOn core
  decide (2 ^ 20 < (gs.map s.scratchOf).sum + h.scratch ∨ s.coreSlots core < (gs.map (·.accSlots)).sum + h.accSlots)
/-- R373: a core lacks team slots for the group. -/
def State.lacksSlots (s : State) (core : Nat) (h : Header) : Bool :=
  decide (64 < (s.teamsOn core).length + (teamsOf h.roles).length)

/-- R327, R373: the quad that lacks units or homing room: the one that homing chooses, of the most free units, the lowest on a
tie, for the first team that it cannot take. The units of each team in index order; the quads with free units and homed
counts. -/
def quadNeed : List Nat → List (Nat × Nat × Nat) → Option Nat
  | [], _ => none
  | u :: us, qs =>
    let roomy := qs.filter fun q => decide (q.2.2 < 16)
    match (if roomy = [] then qs else roomy) with
    | [] => none
    | q :: rest =>
      let best := rest.foldl (fun (a : Nat × Nat × Nat) x => if a.2.1 < x.2.1 then x else a) q
      if best.2.2 < 16 ∧ u ≤ best.2.1 then quadNeed us (qs.map fun x => if x.1 = best.1 then (x.1, x.2.1 - u, x.2.2 + 1) else x)
      else some best.1
def State.lacksQuad (s : State) (core : Nat) (h : Header) : Option Nat :=
  quadNeed ((teamsOf h.roles).map fun t => t.2.1.units)
    ((List.range 4).map fun q => (q, s.freeUnits core q - s.headNeed core q, (s.homed core q).length))

/-- R328, R373: a team that holds units of its quad: it runs, or a level move has stopped it in place. -/
def State.holdsRoom (s : State) (t : Team) : Bool :=
  decide (t.residence = .resident) || (decide (t.residence = .stopped) && (match s.group? t.group with | some g => s.coreHolds g | none => false))

/-- R373, R376: the victim among the teams of a core whose class is lower than the incoming group's and whose eviction reduces
what that group still needs there: lowest class first, then the most recently placed. -/
def State.victim (s : State) (core : Nat) (h : Header) : Option Team :=
  let c (t : Team) : Nat := match s.group? t.group with | some g => g.cls | none => 0
  let helps (t : Team) : Bool := s.lacksSpace core h || s.lacksSlots core h || decide (s.lacksQuad core h = some t.quad)
  match s.teams.filter fun t => decide (t.core = core) && s.holdsRoom t && decide (h.cls < c t) && helps t with
  | [] => none
  | t :: ts => some (ts.foldl (fun (a : Team) x => if c a < c x ∨ (c a = c x ∧ a.placedAt < x.placedAt) then x else a) t)

/-- R372: the bytes of a team image. -/
def Team.imageBytes (t : Team) : Nat := 32 * t.gran * t.size + 16384

/-- R376: the bytes of a group image: its teams, its scratchpad, its accumulator slots. -/
def State.groupBytes (s : State) (g : Group) : Nat :=
  ((s.livingTeams g.id).map Team.imageBytes).sum + s.scratchOf g + 4096 * g.accSlots

/-- R374: the bytes taken in the eviction area of a context on a core. -/
def State.evictUsed (s : State) (asid core : Nat) : Nat :=
  let gs := s.groups.filter fun g => decide (g.asid = asid) && decide (g.core = core)
  ((gs.filter (·.evicted)).map s.groupBytes).sum +
    ((s.teams.filter fun t => (match t.residence with | .evicted _ => true | _ => false) && gs.any fun g => decide (g.id = t.group) && !g.evicted).map
      Team.imageBytes).sum
/-- R374: an image fits. -/
def State.evictFits (s : State) (g : Group) (n : Nat) : Bool :=
  match s.ctx? g.asid with
  | some x => decide (s.evictUsed g.asid g.core + n ≤ x.evictSize)
  | none => false

/-- R373, R374, R376: an eviction on the core can be made for the urgent group: of the victim, or of the victim's group where
scratchpad or slots are lacking. -/
def State.canEvict (s : State) (core : Nat) (h : Header) : Bool :=
  match s.victim core h with
  | none => false
  | some t => match s.group? t.group with
    | some g => s.evictFits g (if s.lacksSpace core h then s.groupBytes g else t.imageBytes)
    | none => false

/-- R328, R373, R374: room made on a core is kept for the urgent group that it was made for. -/
def State.urgentFirst (s : State) (core : Nat) : Bool :=
  (match s.nextPlaced with | some (_, h, c) => h.urgent && decide (c = core) | none => false) ||
  (match s.urgentNeed with | some (h, x) => x.mask.getLsbD core && s.canEvict core h | none => false)

/-- R336: a forced transition of a core is due: a ceiling that fell has taken its target below its level, and still does. -/
def State.forced (s : State) (core : Nat) : Bool :=
  match s.core? core with
  | none => false
  | some k => k.fell.isSome && decide (s.target core < k.level) && decide (s.ceilTarget core < k.level)

/-- R336: the cores whose target a fall of a ceiling has taken below their level are to move by force; `before` is the
state before the ceiling changed. -/
def State.fallFrom (s before : State) : State :=
  { s with cores := s.cores.map fun (c : Core) =>
      if !(before.forced c.id) && decide (s.target c.id < c.level ∧ s.target c.id < before.target c.id) then { c with fell := some s.nextId }
      else if s.forced c.id then c else { c with fell := none } }

/-- R328, R336: the forced transition stops the team; an urgent group placed since is followed by the move. -/
def State.forcedOut (s : State) (t : Team) : Bool :=
  s.forced t.core && (match s.group? t.group, (s.core? t.core).bind (·.fell) with
    | some g, some n => !(decide (g.cls = 0) && decide (n ≤ g.placedAt))
    | _, _ => false)

/-- LEVEL_MOVE. An urgent group that is next placed, or that room can be made for, comes before the move. -/
def execLevelMove (e : EvCore) (s : State) : Host.Outcome State Fault Refusal :=
  match s.core? e.core with
  | none => .next s
  | some k =>
    let t := s.target e.core
    if decide (k.power = .on) && k.moving.isNone && decide (t ≠ k.level) && !(s.urgentFirst e.core) &&
        (s.groupsOn e.core).all fun g => !(s.inRun g) then
      .next (s.modCore e.core fun k => { k with moving := some t })
    else .next s

/-- LEVEL_MOVE_COMPLETE. -/
def execLevelMoveComplete (e : EvCore) (s : State) : Host.Outcome State Fault Refusal :=
  .next (s.modCore e.core fun k => match k.moving with | some l => { k with level := l, moving := none, fell := none } | none => k)

/-! ### Droop (R343) -/

/-- DROOP_TRIGGER: ignored while the cycles of an earlier trigger are still stretched. Its own cycle and six stretched ones
pass before issue is halved. -/
def execDroopTrigger (e : EvDroop) (s : State) : Host.Outcome State Fault Refusal :=
  if s.drpthr = 0 ∨ e.mv < s.drpthr * 5 then .next s
  else .next (s.modCore e.core fun k => match k.droop with | .stretched _ => k | _ => { k with droop := .stretched 7 })

/-- DROOP_STRETCH_END: what is left of the stretched cycles passes. -/
def execDroopStretchEnd (e : EvCore) (s : State) : Host.Outcome State Fault Refusal :=
  match (s.core? e.core).map Core.droop with
  | some (.stretched k) => .next (s.passCycles e.core k)
  | _ => .next s
/-- DROOP_HALVING_END: what is left of the halved cycles passes. -/
def execDroopHalvingEnd (e : EvCore) (s : State) : Host.Outcome State Fault Refusal :=
  match (s.core? e.core).map Core.droop with
  | some (.halved k) => .next (s.passCycles e.core k)
  | _ => .next s

/-! ### Gates (R344, R345) -/

/-- BAY_POWER_GATE. -/
def execBayPowerGate (e : EvBay) (s : State) : Host.Outcome State Fault Refusal :=
  if e.bay < 16 ∧ (s.gridder e.core (e.bay / 4)).isNone then
    .next (s.modCore e.core fun k =>
      let b := sget {} k.bays e.bay
      if b.gate = .awake ∧ 1024 ≤ b.idle then { k with bays := sset {} k.bays e.bay { b with gate := .gated } } else k)
  else .next s

/-- BAY_WAKE_COMPLETE: what is left of the wake passes; the bay needed next then starts to wake. -/
def execBayWakeComplete (e : EvQuad) (s : State) : Host.Outcome State Fault Refusal :=
  match s.core? e.core with
  | none => .next s
  | some k =>
    let left := (List.range 4).findSome? fun b => match (sget {} k.bays (4 * e.quad + b)).gate with | .waking n => some n | _ => none
    match left with
    | none => .next s
    | some n => .next (s.passCycles e.core n)

/-- R55: every core is idle, and the host link has no request outstanding. -/
def State.restful (s : State) : Bool :=
  s.cores.all (fun k => decide (k.power = .gated ∨ k.power = .dark)) &&
  decide (s.tickets = [] ∧ s.recalls = [] ∧ s.invs = [] ∧ s.cleans = [] ∧ s.hostQ = [])

/-- CORE_POWER_GATE. With the last core memory enters self-refresh (R55). -/
def execCorePowerGate (e : EvCore) (s : State) : Host.Outcome State Fault Refusal :=
  match s.core? e.core with
  | none => .next s
  | some k =>
    if k.power = .on ∧ s.groupsOn e.core = [] ∧ 100000 ≤ k.idleNs then
      let s := s.modCore e.core fun k => { k with power := .gated }
      .next { s with selfRefresh := s.restful }
    else .next s

/-- CORE_WAKE_COMPLETE. -/
def execCoreWakeComplete (e : EvCore) (s : State) : Host.Outcome State Fault Refusal :=
  .next (s.modCore e.core fun k => if k.power = .waking then { k with power := .on, idleNs := 0 } else k)

/-! ### The ladder and the governor (R342, R346 to R349) -/

/-- R342: the pool becomes p tokens, of which some are held. -/
def Gov.setPool (g : Gov) (p held : Nat) : Gov := { g with pool := p, free := p - held }

/-- R346: the quantity, the start value, the notch and the floor of a rung. -/
def Gov.rung (g : Gov) (r : Nat) : Nat × Nat × Nat × Nat :=
  match r with
  | 1 => (g.rscale, 128, 16, 64)
  | 2 => (g.planes, 8, 1, 4)
  | 3 => (g.rung3.getD g.powerCeil, g.powerCeil, 1, 2)
  | _ => (g.rung4.getD g.powerPool, g.powerPool, 8, min 8 g.powerPool)
/-- Set the quantity of a rung; its start value releases it. -/
def Gov.setRung (g : Gov) (r x : Nat) : Gov :=
  match r with
  | 1 => { g with rscale := x }
  | 2 => { g with planes := x }
  | 3 => { g with rung3 := if g.powerCeil ≤ x then none else some x }
  | _ => { g with rung4 := if g.powerPool ≤ x then none else some x }
/-- R346: one notch down, not below the floor. -/
def Gov.notch (g : Gov) (r : Nat) : Gov :=
  let (q, _, n, fl) := g.rung r
  g.setRung r (max (q - n) (min fl q))

/-- R347: the governor acts on a reading, above the limit or not. -/
def Gov.skin (g : Gov) (now : Nat) (above below : Bool) : Gov :=
  let k := g.step
  let entered (r : Nat) : Nat := sget 0 g.entered r
  if above then
    if k = 0 then { g.notch 1 with step := 1, entered := sset 0 g.entered 1 now }
    else
      let (q, _, _, fl) := g.rung k
      if fl < q then g.notch k
      else if k < 4 ∧ (3 ≤ k ∨ g.grace ≤ now - entered k) then
        { g.notch (k + 1) with step := k + 1, entered := sset 0 g.entered (k + 1) now }
      else g
  else if below && decide (0 < k) then
    let (q, st, n, _) := g.rung k
    let x := min st (q + n)
    let g := g.setRung k x
    if x = st then { g with step := k - 1 } else g
  else g

/-- R349: POOL is the lower of the power-based pool and the pool of rung 4. The head of the token queue has received what FREE
covered before the change (R341). -/
def State.repool (s : State) : State :=
  let s := s.gov.queue.foldl (fun s _ => s.grantHead) s
  let p := match s.gov.rung4 with | some r => min s.gov.powerPool r | none => s.gov.powerPool
  if p = s.gov.pool then s else { s with gov := s.gov.setPool p s.tokensHeld }

/-- R346, R347: the governor with a reading in 1/1000 °C, or with none; four missing in a row count as above the limit. -/
def Gov.read (g : Gov) (now : Nat) (reading : Option Int) : Gov :=
  match reading with
  | some x => { g with missing := 0, sampled := some now }.skin now (decide (g.limit < x)) (decide (x < g.limit - (g.hysteresis : Int)))
  | none =>
    let g : Gov := { g with missing := min 4 (g.missing + 1), sampled := some now }
    if g.missing = 4 then g.skin now true false else g

/-- SKIN_TEMPERATURE_INTERVAL: the interval has passed since the last one. A notch of rung 3 can force a transition. -/
def execSkinTemperatureInterval (e : EvSkin) (s : State) : Host.Outcome State Fault Refusal :=
  match s.gov.sampled with
  | some last => if s.time < last + s.gov.interval then .next s else .next ({ s with gov := s.gov.read s.time e.reading }.repool.fallFrom s)
  | none => .next ({ s with gov := s.gov.read s.time e.reading }.repool.fallFrom s)

/-- GOVERNOR_ESTIMATE: the levers as the governor leaves them. A later lever is tightened only once the earlier ones are
at their ends (R349); other choices are no estimate of this governor's. -/
def execGovernorEstimate (e : EvGovernor) (s : State) : Host.Outcome State Fault Refusal :=
  if e.threshold < 65536 ∨ 2097151 < e.threshold ∨ e.pool < 4 ∨ 64 < e.pool ∨ 7 < e.ceiling ∨
      (e.pool < 64 ∧ e.threshold ≠ 65536) ∨ (e.ceiling < 7 ∧ e.pool ≠ 4) then .next s
  else
    let s' := { s with gov := { s.gov with threshold := e.threshold, powerPool := e.pool, powerCeil := e.ceiling } }
    let all (c : Core) : Core := { c with threshold := e.threshold }
    .next ({ s' with cores := s.cores.map all }.repool.fallFrom s)

/-! ### Timers and windows -/

/-- RTIMER_EXPIRY: the cycles left on a team's timer pass (R47). -/
def execRtimerExpiry (e : EvTeam) (s : State) : Host.Outcome State Fault Refusal :=
  match s.team? e.team with
  | none => .next s
  | some t =>
    if t.rtimer ≠ 0 ∧ t.residence = .resident ∧ s.coreOn t.core then .next (s.passCycles t.core t.rtimer.toNat) else .next s

/-- WALL_DEADLINE_EXPIRY: a deadline that TIME has reached fires once (R48, R381). -/
def execWallDeadlineExpiry (e : EvTeam) (s : State) : Host.Outcome State Fault Refusal :=
  match s.team? e.team with
  | none => .next s
  | some t =>
    if t.wdl ≠ 0 ∧ t.wdl ≤ s.time ∧ t.residence = .resident then
      .next (s.modTeam t.id fun t => { t with wdl := 0, wdlLo := 0, async := if t.async.contains 322 then t.async else t.async ++ [322] })
    else .next s

/-- CHARGE_WINDOW_AGING: a cycle in which nothing issues; charges of 256 cycles ago leave the window (R340). -/
def execChargeWindowAging (e : EvCore) (s : State) : Host.Outcome State Fault Refusal :=
  if s.coreOn e.core then .next (s.passCycles e.core 1) else .next s

/-- IDLE_BAY_CYCLE: while LCREN is set, a cycle in which the bay does not issue (R397); nor does any other bay in it. -/
def execIdleBayCycle (e : EvBay) (s : State) : Host.Outcome State Fault Refusal :=
  if s.dbg.lcren ∧ e.bay < 16 ∧ s.coreOn e.core then .next (s.passCycles e.core 1) else .next s

end Sys2Proof.Machine
end

