-- ==== Sys2Proof/Machine/Preempt.lean ====
section
/-!
DEFINITION. Pre-emption and what enters a team from outside: asynchronous traps (R352), poison in registers (R365),
stops and restores of teams (R371 to R375), groups (R376, R377) and partitions (R378 to R380), core retirement (R395).
-/
namespace Sys2Proof.Machine

/-! ### Asynchronous traps (R352, R353) -/

/-- R352: the lowest-slot resident split in state READY. -/
def Team.asyncTarget (t : Team) : Option Split :=
  (List.range 8).findSome? fun k => t.splits.find? fun p =>
    decide (p.slot = k) && decide (p.st = .ready) && p.park.isNone

/-- ASYNC_TRAP_ENTRY: the trap that became pending first is taken. -/
def execAsyncTrapEntry (e : EvTeam) (s : State) : Host.Outcome State Fault Refusal :=
  match s.team? e.team with
  | none => .next s
  | some t =>
    match t.async, t.asyncTarget, s.group? t.group with
    | code :: rest, some f, some g =>
      if t.depth ≠ 0 ∨ t.residence ≠ .resident ∨ s.outstanding t ∨ (s.groupRuns g) = false then .next s
      else
        -- R353: the FENCE of a discarded fence is F's next instruction
        let s := (s.flushParked t.id).discardFence t.id f.uid
        let pc := match (s.team? t.id).bind (·.split? f.uid) with | some p => p.pc | none => f.pc
        let s := s.modTeam t.id fun t => { t with async := rest }
        .next (s.takeTrap t.id f.uid code 0 0 false pc false)
    | _, _, _ => .next s

/-- A poisoned word of the register file, as an event names it: register file, register, lane. -/
def poisonWord (w : Nat) : RFile × Nat × Nat :=
  ((match w % 4 with | 0 => .v | 1 => .g | 2 => .m | _ => .b), w / 4 / 1024 % 192, if w % 4 = 0 then w / 4 % 1024 else 0)

/-- POISONED_REGISTER_READ: an uncorrectable error poisons words of the register file, and the split reads the first. -/
def execPoisonedRegisterRead (e : EvPoison) (s : State) : Host.Outcome State Fault Refusal :=
  match s.team? e.team with
  | none => .next s
  | some t =>
    match e.words, t.split? e.split with
    | w :: _, some _ =>
      if t.residence ≠ .resident then .next s
      -- R363: b registers are control state
      else if e.words.any fun w => decide ((poisonWord w).1 = .b) then .next (s.groupPath t.group 338 0 true true)
      else
        let s := s.modTeam t.id fun t => { t with poison := t.poison ++ e.words.map poisonWord }
        .next (s.poisonHit t.id e.split ((poisonWord w).1, (poisonWord w).2.1))
    | _, _ => .next s

/-! ### Stops (R371 to R374) -/

/-- R371, R233: the team may be stopped now: its outstanding register results have been written, and its sequencers are between
steps. -/
def State.stoppable (s : State) (t : Team) : Bool := !(s.outstanding t) && s.betweenSteps t
/-- The stop of a team that may be stopped. -/
def State.stopNow (s : State) (t : Team) (res : Residence) : State := if s.stoppable t then s.stopTeam t.id res else s

/-- TEAM_STOP: a stop that is due, for one of the reasons of R371. -/
def execTeamStop (e : EvStop) (s : State) : Host.Outcome State Fault Refusal :=
  match s.team? e.team with
  | none => .next s
  | some t =>
    match s.group? t.group with
    | none => .next s
    | some g =>
      if decide (t.residence ≠ .resident ∧ (t.residence ≠ .stopped ∨ e.why ≠ .evict)) || !(s.stoppable t) then .next s
      else
        match e.why with
        | .evict =>
          (match s.urgentNeed with
            | some (h, x) =>
              if x.mask.getLsbD t.core && s.coreTakes t.core && !(s.lacksSpace t.core h) &&
                  decide ((s.victim t.core h).map (·.id) = some t.id) && s.evictFits g t.imageBytes then
                let gone := if t.residence = .stopped then s.modTeam t.id fun t => { t with residence := .evicted s.nextId } else s.stopTeam t.id (.evicted s.nextId)
                .next { gone with nextId := s.nextId + 1 }
              else .next s
            | none => .next s)
        | .level => .next (if s.forcedOut t then s.stopTeam t.id .stopped else s)
        | .partition => .next (if s.coreHalted t.core then s.stopTeam t.id .stopped else s)
        | .debug => .next (if s.dbg.stopreq && decide (s.dbg.asid = g.asid) && !(s.protected g.asid) then s.debugStop t.id 0 none else s)
        -- the teams of an evicted group are stopped together (GROUP_EVICTION)
        | .group => .next s

/-! ### Restores (R371, R375) -/

/-- R371: a team continues: waits that a stop ended are reported; while there is a handler its own alone. -/
def Team.resume (t : Team) : Team :=
  let t := { t with residence := .resident }
  match t.handler with
  | some h => (match h.monWait.bind (·.reason) with | some r => t.wake h.uid r | none => t)
  | none => t.unfreeze

/-- R375: an evicted team's turn has come and its quad has room. -/
def State.canReturn (s : State) (t : Team) (order : Nat) : Bool :=
  decide (t.units ≤ s.freeUnits t.core t.quad - s.headNeed t.core t.quad) && decide ((s.homed t.core t.quad).length < 16) &&
  decide (s.teamSlots t.core ≠ []) && s.coreOn t.core && !(s.urgentFirst t.core) &&
  s.teams.all fun u => decide (u.core ≠ t.core) || (match u.residence with | .evicted o => decide (order ≤ o) | _ => true)

/-- TEAM_RESTORE: of an evicted team, or of one stopped in place for a level move. -/
def execTeamRestore (e : EvTeam) (s : State) : Host.Outcome State Fault Refusal :=
  match s.team? e.team with
  | none => .next s
  | some t =>
    match s.group? t.group with
    | none => .next s
    | some g =>
      let open_ := s.coreHolds g
      match t.residence with
      | .evicted o =>
        if open_ && !g.evicted && s.canReturn t o then
          let slots := s.teamSlots t.core
          .next (s.modTeam t.id fun t => { t.resume with slot := if slots.contains t.slot then t.slot else slots.headD t.slot })
        else .next s
      | .stopped => .next (if open_ && s.coreOn t.core && !(s.forced t.core) then s.modTeam t.id Team.resume else s)
      | _ => .next s

/-! ### Groups (R376, R377) -/

/-- R258: a running ray is suspended: its record is written with STATUS 4, by parts (R257), but in the group's own window, which
leaves the core with it, at once. One that is writing the record it ends with goes on with that. -/
def State.suspendRay (s : State) (gid : Nat) (ray : Ray) : State :=
  let own := decide (ray.space = .win gid)
  if ray.final ≠ [] then (if own then s.endRay gid ray (rayRec ray.final) else s)
  else if ray.words = [] then s
  else
    let r : RayRec := { rayRec ray.words with status := 4 }
    let r := if ray.started then r.sealed ray.bufNode else r.unloaded
    if own then (s.writeRecord (s.engineAgent gid) ray r).setRay gid ray.suspended
    else s.setRay gid { ray with final := r.words, parts := [], ahead := [] }

/-- R376: a group leaves its core; none when one of its teams still has results outstanding, or a leaving member has not
left its yard (R377). -/
def State.evictGroup (s : State) (g : Group) : Option State :=
  let ts := s.livingTeams g.id
  let leaving := match s.yardOf g.id with | some (_, m) => m.leaving | none => false
  if !g.here || leaving || ts.any (fun t => !(s.stoppable t) || decide (t.residence = .debugStopped)) then none
  else
    let s := ts.foldl (fun (s : State) (t : Team) =>
      if t.residence = .resident ∨ t.residence = .stopped then s.stopTeam t.id .saved else s.modTeam t.id fun t => { t with residence := .saved }) s
    let s := g.rays.foldl (fun s r => s.suspendRay g.id r) s
    some (s.modGroup g.id fun g => { g with evicted := true })

/-- GROUP_EVICTION: room is made for an urgent group that lacks scratchpad or accumulator slots, in the victim order. -/
def execGroupEviction (e : EvGroup) (s : State) : Host.Outcome State Fault Refusal :=
  match s.group? e.group, s.urgentNeed with
  | some g, some (h, x) =>
    if x.mask.getLsbD g.core && s.coreTakes g.core && s.lacksSpace g.core h && decide ((s.victim g.core h).map (·.group) = some g.id) &&
        s.evictFits g (s.groupBytes g) then
      .next ((s.evictGroup g).getD s)
    else .next s
  | _, _ => .next s

/-- R376, R377: where the teams of an evicted group would be homed on a core. -/
def State.restoreHomes (s : State) (g : Group) (core : Nat) : Option (List Nat) :=
  match s.ctx? g.asid with
  | none => none
  | some x =>
    let gs := s.groupsOn core
    let ts := s.livingTeams g.id
    let yard := match s.yardOf g.id with
      | some (y, _) => y.members.any fun m => decide (m.group ≠ g.id) && (match s.group? m.group with | some h => decide (h.core = core) && h.here | none => false)
      | none => false
    if !(x.mask.getLsbD core) || x.swapped || yard || !(s.coreTakes core) || g.region.isSome ||
        -- R243: the core's engine holds the group's rays beside its own
        decide (2048 < (gs.map Group.rayCount).sum + g.rayCount) ||
        decide (2 ^ 20 < (gs.map s.scratchOf).sum + s.scratchOf g ∨ s.coreSlots core < (gs.map (·.accSlots)).sum + g.accSlots ∨
          64 < (s.teamsOn core).length + ts.length) then none
    else homeTeams (ts.map Team.units) ((List.range 4).map fun q => (q, s.freeUnits core q - s.headNeed core q, (s.homed core q).length))

/-- R345: a gated core starts to wake, one core at a time; memory leaves self-refresh (R55). -/
def State.wakeCore (s : State) (core : Nat) : State :=
  if s.cores.any fun k => decide (k.power = .waking) then s
  else { s.modCore core fun k => if k.power = .gated then { k with power := .waking } else k with selfRefresh := false }

/-- R336, R345: the core is gated. -/
def State.coreGated (s : State) (core : Nat) : Bool := (s.core? core).any fun k => decide (k.power = .gated)

/-- GROUP_RESTORE: a gated core wakes first, where no core that is on can take the group. -/
def execGroupRestore (e : EvGroupCore) (s : State) : Host.Outcome State Fault Refusal :=
  match s.group? e.group with
  | none => .next s
  | some g =>
    if !g.evicted then .next s
    else
      match s.restoreHomes g e.core with
      | none => .next s
      | some quads =>
        if !(s.coreOn e.core) then
          .next (if s.coreGated e.core && (List.range 16).all fun c => !(s.coreOn c) || (s.restoreHomes g c).isNone then s.wakeCore e.core else s)
        else
        let s := s.modCore e.core fun k => { k with idleNs := 0 }
        let slots := s.teamSlots e.core
        let ids := (s.livingTeams g.id).map (·.id)
        let s := s.modGroup g.id fun g => { g with evicted := false, core := e.core }
        .next (ids.zipIdx.foldl (fun (s : State) (i : Nat × Nat) => s.modTeam i.1 fun t =>
          { t.resume with core := e.core, quad := quads.getD i.2 0, slot := slots.getD i.2 0 }) s)

/-! ### Partitions (R378 to R380) -/

/-- R378: every group of the cores is stopped and every access of theirs has returned, parked lanes apart. -/
def State.quiet (s : State) (cores : List Nat) : Bool :=
  s.teams.all (fun t => !(cores.contains t.core) || decide (t.residence ≠ .resident)) &&
  s.flights.all fun f => match s.team? f.team with
    | some t => !(cores.contains t.core) || f.returned || f.onlyParked || f.held
    | none => true

/-- R378: the cores' caches hold nothing. -/
def State.clean (s : State) (cores : List Nat) : Bool :=
  s.cores.all fun c => !(cores.contains c.id) || (decide (c.l1 = []) && decide (c.icache = []) && decide (c.tlb = []))

/-- PARTITION_HALT: teams stop as they can; once all is quiet the caches are cleaned and dropped. -/
def execPartitionHalt (e : EvCtx) (s : State) : Host.Outcome State Fault Refusal :=
  match s.ctx? e.asid with
  | none => .next s
  | some x =>
    if x.shadow = 0 then .next s
    else
      let cs := x.cores
      let s := s.modCtx x.asid fun x => { x with halted := true }
      let s := (s.teams.filter fun t => cs.contains t.core && decide (t.residence = .resident)).foldl (fun s t => s.stopNow t .stopped) s
      if !(s.quiet cs) then .next s
      else
        let (s, ok) := cs.foldl (fun (q : State × Bool) c =>
          let (s, ok) := q.1.maintL1 c (q.1.l1Lines c) true true
          (s, q.2 && ok)) (s, true)
        let (s, ok') := s.maintL2 (s.l2.map (·.line)) true true
        if ok && ok' then .next { s with cores := s.cores.map fun c => if cs.contains c.id then { c with icache := [], tlb := [] } else c }
        else .next s

/-- R379: the VALID word of the image of a context's core of an index. -/
def Ctxt.imageAt (x : Ctxt) (i : Nat) : Nat := x.shadow + i * (10 * 2 ^ 20)
/-- R385: the images of some of a context's cores are written with VALID 0. -/
def State.clearImages (s : State) (x : Ctxt) (is : List Nat) : State := s.wrCells .loft (is.flatMap fun i => cellsOf (x.imageAt i) 4 0)

/-- R380: the exchange of a partition's cores with its shadow region: the groups on the cores go to the region, those in the
region whose image is VALID come to the cores, and one whose image is not is lost (R379). -/
def State.exchange (s : State) (x : Ctxt) : State :=
  let cs := x.cores
  let valid (i : Nat) : Bool := decide (s.rd .loft (x.imageAt i) 4 % 2 = 1)
  let index (core : Nat) : Nat := (cs.findIdx? (· = core)).getD 0
  let leaves (g : Group) : Bool := g.here && cs.contains g.core
  -- the core that a group comes to
  let comes (g : Group) : Option Nat := match g.region with | some (a, i) => if a = x.asid ∧ valid i then cs[i]? else none | none => none
  let lost := (s.groups.filter fun g => match g.region with | some (a, i) => decide (a = x.asid) && !(valid i) | none => false).map (·.id)
  let out := s.groups.filter leaves
  let back := s.groups.filter fun g => (comes g).isSome
  let gone (y : Ctxt) : Bool := decide (y.asid = x.asid ∧ x.swapped = false) || out.any fun g => decide (g.asid = y.asid ∧ y.shadow ≠ 0)
  let home (y : Ctxt) : Bool := decide (y.asid = x.asid) || back.any fun g => decide (g.asid = y.asid)
  let full (i : Nat) : Nat := if !x.swapped || (out.any fun g => decide (index g.core = i)) then 1 else 0
  let s' := s.wrCells .loft ((List.range cs.length).flatMap fun i => cellsOf (x.imageAt i) 4 (full i))
  let s' := { s' with
    groups := s'.groups.map fun g =>
      if leaves g then { g with region := some (x.asid, index g.core) }
      else match comes g with | some c => { g with region := none, core := c } | none => g
    teams := s'.teams.map fun t =>
      if (out.any fun g => decide (g.id = t.group)) && decide (t.residence = .stopped) then { t with residence := .saved }
      else match (back.find? fun g => decide (g.id = t.group)).bind comes with
        | some c => let t : Team := { t with core := c }
                    if t.residence = .saved then t.resume else t
        | none => t
    ctxs := s'.ctxs.map fun y =>
      { y with swapped := if gone y then true else if home y then false else y.swapped, halted := y.halted && decide (y.asid ≠ x.asid) } }
  lost.foldl (fun s g => s.groupPath g 0 0 false false) s'

/-- PARTITION_SWAP: of cores that have been halted. -/
def execPartitionSwap (e : EvCtx) (s : State) : Host.Outcome State Fault Refusal :=
  match s.ctx? e.asid with
  | none => .next s
  | some x =>
    if x.shadow = 0 ∨ !x.halted ∨ !(s.quiet x.cores && s.clean x.cores) then .next s
    -- R345: the gated cores wake before groups come to them
    else if x.swapped ∧ !(x.cores.all s.coreOn) then .next (match x.cores.find? s.coreGated with | some c => s.wakeCore c | none => s)
    else .next ({ s with cores := s.cores.map fun (c : Core) => if x.cores.contains c.id then { c with idleNs := 0 } else c }.exchange x)

/-! ### Core retirement (R395) -/

/-- CORE_RETIREMENT: once every group has left the core, the core leaves every mask and its fuse is blown. -/
def execCoreRetirement (e : EvCore) (s : State) : Host.Outcome State Fault Refusal :=
  if s.boot.state ≠ 4 ∨ s.boot.retired.getLsbD e.core ∨ 16 ≤ e.core ∨ s.unfit e.core = false then .next s
  else
    let s := (s.groups.filter fun g => decide (g.core = e.core)).foldl (fun s g => (s.evictGroup g).getD s) s
    if s.groupsOn e.core ≠ [] then .next s
    else
      match s.maintL1 e.core (s.l1Lines e.core) true true with
      | (s, false) => .next s
      | (s, true) =>
        let bit := BitVec.ofNat 16 (2 ^ e.core)
        let s := s.modCore e.core fun k => { k with power := .dark, moving := none, icache := [], tlb := [] }
        let less (x : Ctxt) : Ctxt := { x with mask := x.mask &&& ~~~bit }
        let s := { s with boot := { s.boot with retired := s.boot.retired ||| bit }, ctxs := s.ctxs.map less }
        .next (s.send (.ctxEvent e.core))

end Sys2Proof.Machine
end

