-- ==== Sys2Proof/Machine/HostCtx.lean ====
section
/-!
DEFINITION. Context messages (R385, R386, R393) and replies to team RPCs (R388).
-/
namespace Sys2Proof.Machine

/-- R386: aligned, within the loft, and apart from every other region. -/
def regionsOk : List (Nat × Nat) → Bool
  | [] => true
  | r :: rs => decide (r.1 % 65536 = 0 ∧ r.1 + r.2 ≤ 2 ^ 26) && rs.all (fun q => decide (r.1 + r.2 ≤ q.1 ∨ q.1 + q.2 ≤ r.1)) && regionsOk rs

/-- R385, R386: the fields of a context as a request gives them are legal beside the other contexts. -/
def State.ctxOk (s : State) (x : Ctxt) : Bool :=
  decide (x.asid < 65536 ∧ x.root % 4096 = 0 ∧ x.defaultReq ≤ 7 ∧ x.ceiling ≤ 7 ∧ x.loftSize % 65536 = 0 ∧ x.evictSize ≤ 12 * 2 ^ 20 ∧
    (x.shadow = 0 ∨ x.cores.length ≤ 4)) &&
  regionsOk (x.regions ++ (s.ctxs.filter fun y => y.asid ≠ x.asid).flatMap Ctxt.regions)

/-- R394: the TDI of an index. -/
def State.tdi (s : State) (i : Nat) : Tdi := match s.tdis.find? fun q => decide (q.1 = i) with | some (_, d) => d | none => {}
def State.setTdi (s : State) (i : Nat) (d : Tdi) : State :=
  { s with tdis := s.tdis.filter (fun q => decide (q.1 < i)) ++ [(i, d)] ++ s.tdis.filter fun q => decide (i < q.1) }

/-- R63, R64, R393, R394: a frame is zeroed: its bytes read 0, no device copy of them is left, and each line is a write at its
bank. No rule says where it is performed, so it fires no monitor (DESIGN CHOICE, log 33). -/
def State.zeroFrame (s : State) (f : Nat) : State :=
  let away (l : List CacheLine) : List CacheLine := l.filter fun x => decide (x.line / 64 ≠ f)
  let core (c : Core) : Core := { c with l1 := away c.l1, icache := c.icache.filter fun x => decide (x.pline / 64 ≠ f) }
  let s := (List.range 64).foldl (fun s i => (s.bankAsk (f * 64 + i) [0, 1, 2, 3] true).1) s
  { s with
    teams := s.teams.map fun t => { t with loop := t.loop.filter fun l => l.lines.all fun x => decide (x / 64 ≠ f) }
    mem := sdrop s.mem (f * 4096) (f * 4096 + 4096)
    poisoned := s.poisoned.filter fun q => !(decide (q.1 = Space.glob) && decide (q.2 / 256 = f))
    l2 := away s.l2
    slc := s.slc.filter fun x => decide (x.line / 64 ≠ f)
    staged := s.staged.filter fun q => decide (q.2.1 / 64 ≠ f)
    l1Invs := s.l1Invs.filter fun q => decide (q.2 / 64 ≠ f)
    dir := ((s.dir.filter fun d => decide (d.1 / 64 = f)).map (·.1)).foldl (fun l i => sset {} l i { (sget {} l i : DirEntry) with cores := 0 }) s.dir
    cores := s.cores.map core }

/-- R393: the frames of a key slot, as a request leaves them: those that enter or leave ownership are zeroed. -/
def State.setFrames (s : State) (k : Nat) (frames : List Nat) : State :=
  let old := (s.frameOwner.filter fun q => decide (q.2 = k)).map (·.1)
  let out := old.filter fun f => !(frames.contains f)
  let new := frames.filter fun f => !(old.contains f)
  let s := (out ++ new).foldl (fun s f => s.zeroFrame f) s
  { s with frameOwner := ssets 0 (ssets 0 s.frameOwner (out.map fun f => (f, 0))) (new.map fun f => (f, k)) }

/-- R393: no frame of the list belongs to another key. -/
def State.framesFree (s : State) (k : Nat) (frames : List Nat) : Bool :=
  frames.all fun f => decide (sget 0 s.frameOwner f = 0) || decide (sget 0 s.frameOwner f = k)

/-- R393: one of the 63 key slots that no TDI has; no rule says which. -/
def State.freeKey (s : State) : Nat :=
  let l := ((List.range 63).map (· + 1)).filter fun k => !(s.tdis.any fun q => decide (q.2.keySlot = some k))
  l.getD (Config.openValue 8 s.nextId % l.length) 0

/-- R386: staged lines whose place has been assigned are dropped. -/
def State.trimStaged (s : State) : State := { s with staged := s.staged.filter fun q => s.stagingLine q.2.2 }

/-- R379, R385: the images of a context's cores that it has been assigned are not VALID; `old` are the images it had. -/
def State.newImages (s : State) (x : Ctxt) (old : Nat) : State :=
  if x.shadow = 0 then s else s.clearImages x ((List.range x.cores.length).filter fun i => decide (old ≤ i))

/-- The context that a request describes. -/
def ctxOf (e : EvCtxCfg) : Ctxt :=
  { asid := e.asid, root := e.root, mask := e.mask, defaultReq := e.defaultReq, ceiling := e.ceiling, loftBase := e.loftBase,
    loftSize := e.loftSize, evictBase := e.evictBase, evictSize := e.evictSize, shadow := e.shadow, tdi := e.tdi }

/-- CTX_CREATE. -/
def execCtxCreate (e : EvCtxCfg) (s : State) : Host.Outcome State Fault Refusal :=
  let x := { ctxOf e with mask := e.mask &&& ~~~s.boot.retired }
  let tdiOk := match e.tdi with
    | none => decide (e.frames = [])
    | some t => decide (t < 16 ∧ (s.tdi t).st = .unlocked ∧ (s.tdi t).asid = none)
  if !s.isOpen ∨ (s.ctx? e.asid).isSome ∨ !(s.ctxOk x && tdiOk && s.framesFree 0 e.frames) then .next (s.send (.ctxDone e.asid false))
  else
    let s := { s with ctxs := s.ctxs ++ [x], slotsFixed := true }
    let s := match e.tdi with
      | some t =>
        let k := s.freeKey
        { (s.setTdi t { s.tdi t with asid := some e.asid, keySlot := some k }).setFrames k e.frames with nextId := s.nextId + 1 }
      | none => s
    .next ((s.newImages x 0).trimStaged.send (.ctxDone e.asid true))

/-- R394: a TDI enters ERROR: its binding is void, its key slot is scrubbed, and its context's groups take the group path. -/
def State.tdiError (s : State) (i : Nat) : State :=
  let d := s.tdi i
  let s := s.setTdi i { d with st := .error, loaded := false }
  match d.asid with
  | none => s
  | some a => ((s.groups.filter fun g => decide (g.asid = a)).map (·.id)).foldl (fun s g => s.groupPath g 342 0 true true) s

/-- CTX_SET: every field but the ASID and the TDI. -/
def execCtxSet (e : EvCtxCfg) (s : State) : Host.Outcome State Fault Refusal :=
  match s.ctx? e.asid with
  | none => .next (s.send (.ctxDone e.asid false))
  | some x =>
    let st : TdiState := match x.tdi with | some t => (s.tdi t).st | none => .unlocked
    let key := match x.tdi with | some t => (s.tdi t).keySlot.getD 0 | none => 0
    let before := s
    let y := { ctxOf e with mask := e.mask &&& ~~~s.boot.retired, tdi := x.tdi, halted := x.halted, swapped := x.swapped }
    if !s.isOpen then .next (s.send (.ctxDone e.asid false))
    else if decide (st = TdiState.locked) || decide (st = TdiState.run) then
      -- R394: the configuration is frozen
      .next ((s.tdiError (x.tdi.getD 0)).send (.ctxDone e.asid false))
    else if decide (st = TdiState.error) || !(s.ctxOk y) || !(s.framesFree key e.frames) || (decide (key = 0) && decide (e.frames ≠ [])) then .next (s.send (.ctxDone e.asid false))
    else
      let s := s.modCtx e.asid fun _ => y
      -- R336: a context ceiling that falls can force a transition
      let s := if y.ceiling = x.ceiling then s else s.fallFrom before
      let s := if key = 0 then s else s.setFrames key e.frames
      .next ((s.newImages y (if y.shadow = x.shadow then x.cores.length else 0)).trimStaged.send (.ctxDone e.asid true))

/-- CTX_DESTROY. -/
def execCtxDestroy (e : EvCtx) (s : State) : Host.Outcome State Fault Refusal :=
  match s.ctx? e.asid with
  | none => .next (s.send (.ctxDone e.asid false))
  | some x =>
    if !s.isOpen then .next (s.send (.ctxDone e.asid false))
    else
      let s := ((s.groups.filter fun g => decide (g.asid = e.asid)).map (·.id)).foldl (fun s g => s.groupPath g 0 0 false false) s
      let gone : List Node := s.nodes.filter fun n => decide (n.asid = e.asid)
      let s := match x.tdi with
        | some t => match (s.tdi t).keySlot with
          | some k => (s.setFrames k []).setTdi t { s.tdi t with asid := none, keySlot := none, loaded := false }
          | none => s.setTdi t { s.tdi t with asid := none }
        | none => s
      let s := { s with
        nodes := s.nodes.filter fun n => n.asid ≠ e.asid
        entryGens := gone.foldl (fun (l : List (Nat × Nat)) (n : Node) => freedEntry l (n.handle % 4096)) s.entryGens
        staged := s.staged.filter fun q => !(gone.any fun n => decide (n.id = q.1))
        jcAdds := s.jcAdds.filter fun a => a.asid ≠ e.asid
        yards := s.yards.filter fun y => y.asid ≠ e.asid
        ctxs := s.ctxs.filter fun y => y.asid ≠ e.asid }
      .next (s.send (.ctxDone e.asid true))

/-- RPC_REPLY: the reply is kept with the team until an RPCWAIT consumes it. -/
def execRpcReply (e : EvReply) (s : State) : Host.Outcome State Fault Refusal :=
  .next { s with tickets := s.tickets.map fun q => match q with
    | (k, .team t none) => if k = e.ticket then (k, TicketUse.team t (some e)) else (k, TicketUse.team t none)
    | q => q }

end Sys2Proof.Machine
end

