-- ==== Sys2Proof/Machine/Trust.lean ====
section
/-!
DEFINITION. Boot (R389 to R391, R54, R345), attestation (R392), TDISP (R393, R394).
-/
namespace Sys2Proof.Machine

/-! ### Boot -/

/-- POWER_ON_RESET: the state after reset, with what the fuses and the link give; blown fuses stay blown. TIME, the
messages already sent and the model's own fields go on. -/
def execPowerOnReset (e : EvPower) (s : State) : Host.Outcome State Fault Refusal :=
  .next { State.reset with
    boot := { state := 1, retired := e.retired ||| s.boot.retired, minSvn := max e.minSvn s.boot.minSvn, modules := e.modules }
    time := s.time, outbox := s.outbox, agenda := s.agenda, nonce := s.nonce, nextId := s.nextId }

/-- MEMORY_TRAINING_COMPLETE: any geometry but those of R56 fails. -/
def execMemoryTrainingComplete (e : EvTraining) (s : State) : Host.Outcome State Fault Refusal :=
  if s.boot.state ≠ 1 then .next s
  else if e.ok ∧ (e.rows = 32768 ∨ e.rows = 65536 ∨ e.rows = 131072) then
    .next { s with boot := { s.boot with state := 2, err := 0, chan := 0 }, rows := e.rows }
  else .next { s with boot := { s.boot with state := 2, err := 1, chan := e.channel % 64 } }

/-- FWGO: writing 1 in MINCFG. A device whose training failed stays there (R54). -/
def execFwgo (e : EvRegValue) (s : State) : Host.Outcome State Fault Refusal :=
  if s.boot.state = 2 ∧ s.boot.err ≠ 1 ∧ e.value = 1 then .next { s with boot := { s.boot with state := 3 } } else .next s

/-- n bytes of the pushed image from an offset. -/
def Boot.bytes (b : Boot) (off n : Nat) : List Byte := (List.range n).map fun i => sget 0 b.image (off + i)
def Boot.word (b : Boot) (off : Nat) : Nat := leNat (fun i => sget 0 b.image i) off 4

/-- R391: the digest that is signed. -/
def Boot.digest (b : Boot) : BitVec 256 := Config.sha256 (b.bytes 0 0x190 ++ b.bytes 0x400 (b.word 8))

/-- R391: the first check that fails, as ERR; 0 when none does. -/
def Boot.verify (b : Boot) : Nat :=
  if b.word 0 ≠ 0x4A46574D ∨ 0x400 + b.word 8 ≠ b.fwlen.toNat ∨ 0xF00000 < b.fwlen.toNat then 2
  else if Config.sha256 (b.bytes 0x10 384) ≠ Config.fusedKeyHash then 5
  else if !(Config.pssVerify (b.bytes 0x10 384) (b.bytes 0x190 384) b.digest) then 3
  else if b.word 4 < b.minSvn then 4
  else 0

/-- FIRMWARE_VERIFICATION. -/
def execFirmwareVerification (s : State) : Host.Outcome State Fault Refusal :=
  if s.boot.state ≠ 3 then .next s
  else match s.boot.verify with
    | 0 => .next { s with boot := { s.boot with state := 4, err := 0, firmware := some (s.boot.digest, s.boot.word 4), nextCore := 0 } }
    | k => .next { s with boot := { s.boot with state := 2, err := k } }

/-- CORE_POWER_UP: the cores in ascending number; a retired one, and one that is unfit (R16), stays dark. -/
def execCorePowerUp (e : EvCore) (s : State) : Host.Outcome State Fault Refusal :=
  if s.boot.state ≠ 4 ∨ e.core ≠ s.boot.nextCore ∨ 16 ≤ e.core then .next s
  else
    let s := { s with boot := { s.boot with nextCore := e.core + 1 } }
    .next (if s.boot.retired.getLsbD e.core || s.unfit e.core then s else s.modCore e.core fun k => { k with power := .on, idleNs := 0 })

/-- R390: BOOTSTAT: STATE [2:0], ERR [5:3], CHAN [11:6], RETIRED [27:12]; [31:28] are reserved, so a disabled module of the
link shows in measurement 4 alone (DEDUCED, log 34). -/
def State.bootstat (s : State) : Word :=
  BitVec.ofNat 32 (s.boot.state % 8 + s.boot.err % 8 * 2 ^ 3 + (if s.boot.err = 1 then s.boot.chan % 64 else 0) * 2 ^ 6 + s.boot.retired.toNat * 2 ^ 12)
/-- R390: what a read of a register of the firmware window gives. -/
def State.fwRead (s : State) (off : Nat) : Word :=
  match off with
  | 0 => s.bootstat
  | 4 => s.boot.fwlen
  | _ => 0

/-! ### Attestation (R392) -/

/-- The interface report of a TDI: BAR0, BAR2, its ASID, core mask and loft window. -/
def State.reportOf (s : State) (i : Nat) : Nat × Nat × Nat × BitVec 16 × Nat × Nat :=
  let d := s.tdi i
  match d.asid.bind s.ctx? with
  | some x => (d.bar0, d.bar2, x.asid, x.mask, x.loftBase, x.loftSize)
  | none => (d.bar0, d.bar2, 0, 0, 0, 0)
def reportBytes (r : Nat × Nat × Nat × BitVec 16 × Nat × Nat) : List Byte :=
  [r.1, r.2.1, r.2.2.1, r.2.2.2.1.toNat, r.2.2.2.2.1, r.2.2.2.2.2].flatMap fun x => (List.range 8).map (byteOf x)

/-- R389: only the minimal configuration function responds before RUN. -/
def State.runs (s : State) : Bool := decide (s.boot.state = 4)

/-- R392: the contents of a measurement. -/
def State.measure (s : State) (i : Nat) : Option (List Nat) :=
  match i with
  | 1 => some [Config.romDigest.toNat]
  | 2 => some (match s.boot.firmware with | some (d, v) => [d.toNat, v] | none => [])
  | 3 => some [Config.fusedKeyHash.toNat, s.boot.minSvn]
  | 4 => some [s.boot.retired.toNat, (~~~s.boot.modules).toNat, s.rows, s.slotsS]
  | 5 => some ((s.tdis.filter fun q => decide (q.2.st = .locked ∨ q.2.st = .run)).map fun q => (Config.sha256 (reportBytes (s.reportOf q.1))).toNat)
  | _ => none

/-- GET_MEASUREMENTS. -/
def execGetMeasurements (e : EvIndex) (s : State) : Host.Outcome State Fault Refusal :=
  if !s.runs then .next s
  else match s.measure e.index with
  | some b => .next (s.send (.measurements b (Config.signMeasurement b)))
  | none => .next s

/-- IDE_KM_KEY_SET. -/
def execIdeKmKeySet (e : EvIndex) (s : State) : Host.Outcome State Fault Refusal :=
  if e.index < 16 ∧ s.runs then .next (s.setTdi e.index { s.tdi e.index with ideKey := true }) else .next s

/-! ### TDISP (R394) -/

/-- LOCK_INTERFACE_REQUEST. -/
def execLockInterfaceRequest (e : EvIndex) (s : State) : Host.Outcome State Fault Refusal :=
  if !s.runs then .next s
  else if e.index < 16 ∧ (s.tdi e.index).st = .unlocked then
    .next ((s.setTdi e.index { s.tdi e.index with st := .locked }).send (.tdispDone e.index true))
  else .next (s.send (.tdispDone e.index false))

/-- GET_DEVICE_INTERFACE_REPORT. -/
def execGetDeviceInterfaceReport (e : EvIndex) (s : State) : Host.Outcome State Fault Refusal :=
  if !s.runs then .next s
  else if e.index < 16 ∧ (s.tdi e.index).st = .locked then
    let (b0, b2, a, m, lb, ls) := s.reportOf e.index
    .next (s.send (.report e.index a b0 b2 m lb ls))
  else .next (s.send (.tdispDone e.index false))

/-- START_INTERFACE_REQUEST. -/
def execStartInterfaceRequest (e : EvIndex) (s : State) : Host.Outcome State Fault Refusal :=
  if !s.runs then .next s
  else if e.index < 16 ∧ (s.tdi e.index).st = .locked then
    .next ((s.setTdi e.index { s.tdi e.index with st := .run, loaded := true }).send (.tdispDone e.index true))
  else .next (s.send (.tdispDone e.index false))

/-- STOP_INTERFACE_REQUEST: from any state; the owned frames are zeroed and released. -/
def execStopInterfaceRequest (e : EvIndex) (s : State) : Host.Outcome State Fault Refusal :=
  if !s.runs then .next s
  else if 16 ≤ e.index then .next (s.send (.tdispDone e.index false))
  else
    let d := s.tdi e.index
    let s := match d.keySlot with | some k => s.setFrames k [] | none => s
    .next ((s.setTdi e.index { d with st := .unlocked, loaded := false }).send (.tdispDone e.index true))

/-- FROZEN_CONFIGURATION_WRITE: the write keeps the frozen value. -/
def execFrozenConfigurationWrite (e : EvIndex) (s : State) : Host.Outcome State Fault Refusal :=
  if (s.tdi e.index).st = .locked ∨ (s.tdi e.index).st = .run then .next (s.tdiError e.index) else .next s

/-- IDE_INTEGRITY_FAILURE: of the link of a TDI that is bound. -/
def execIdeIntegrityFailure (e : EvIndex) (s : State) : Host.Outcome State Fault Refusal :=
  let d := s.tdi e.index
  if d.st = .locked ∨ d.st = .run then .next ((s.tdiError e.index).setTdi e.index { d with st := .error, loaded := false, ideKey := false })
  else .next s

/-- R394: a write to the configuration of a TDI: its command register, BAR0 and BAR2, at the places a PCIe function has them
(PRESUMED, log 35). A frozen one keeps its value, and the TDI enters ERROR. -/
def State.tdiWrite (s : State) (i off value : Nat) : State :=
  let d := s.tdi i
  if 16 ≤ i ∨ !(off = 0x04 ∨ off = 0x10 ∨ off = 0x18) then s
  else match d.st with
    | .unlocked => s.setTdi i (match off with
        | 0x04 => { d with command := value % 65536 }
        | 0x10 => { d with bar0 := value % 2 ^ 64 / 4096 * 4096 }
        | _ => { d with bar2 := value % 2 ^ 64 / 4096 * 4096 })
    | .locked | .run => s.tdiError i
    | .error => s

end Sys2Proof.Machine
end

