-- ==== Sys2Proof/Machine/Debug.lean ====
section
/-!
DEFINITION. The debug window (R396 to R401) and the registers that host and firmware write (R6, R390).
-/
namespace Sys2Proof.Machine

/-- R401: a team stopped for the debugger goes on; a trap that stopped it enters its handler. One whose group's image lies in a
shadow region goes on when it comes back (R380). -/
def State.debugResume (s : State) (tid : Nat) : State :=
  match s.team? tid with
  | none => s
  | some t =>
    if t.residence ≠ .debugStopped then s
    else
      let away := (s.group? t.group).any fun g => g.region.isSome
      let s := s.modTeam tid fun t => if away then { t with residence := .saved, stopTrap := none } else { t.resume with stopTrap := none }
      match t.stopTrap with
      | some (uid, code, detail, lanes, skip, epc) => s.takeTrap tid uid code detail lanes skip epc false
      | none => s

/-- The teams of a context. -/
def State.teamsOf (s : State) (asid : Nat) : List Team :=
  s.teams.filter fun t => match s.group? t.group with | some g => decide (g.asid = asid) | none => false

/-- STOPREQ_SET: in RUN, the teams of the ASID stop, each when its outstanding results have been written. -/
def execStopreqSet (s : State) : Host.Outcome State Fault Refusal :=
  if s.boot.state ≠ 4 ∨ s.protected s.dbg.asid then .next s
  else
    let s := { s with dbg := { s.dbg with stopreq := true } }
    .next ((s.teamsOf s.dbg.asid).foldl (fun s t => if t.residence = .resident ∧ s.stoppable t then s.debugStop t.id 0 none else s) s)

/-- STOPREQ_CLEAR. -/
def execStopreqClear (s : State) : Host.Outcome State Fault Refusal :=
  if s.boot.state ≠ 4 ∨ s.protected s.dbg.asid then .next s
  else
    let s := { s with dbg := { s.dbg with stopreq := false } }
    .next (((s.teamsOf s.dbg.asid).filter fun t => t.stopTrap.isNone).foldl (fun s t => s.debugResume t.id) s)

/-- HALTDBG_CLEAR. -/
def execHaltdbgClear (s : State) : Host.Outcome State Fault Refusal :=
  if s.boot.state ≠ 4 ∨ s.protected s.dbg.asid then .next s
  else
    let s := { s with dbg := { s.dbg with haltdbg := false } }
    .next (((s.teamsOf s.dbg.asid).filter fun t => t.stopTrap.isSome).foldl (fun s t => s.debugResume t.id) s)

/-- DROPS_CLEAR. -/
def execDropsClear (e : EvRegValue) (s : State) : Host.Outcome State Fault Refusal :=
  let x := BitVec.ofNat 32 s.dbg.drops &&& ~~~(BitVec.ofNat 32 e.value)
  .next (if s.boot.state = 4 then { s with dbg := { s.dbg with drops := x.toNat } } else s)

/-- R390: a write in the firmware window, which responds from MINCFG on. -/
def State.fwWrite (s : State) (off value : Nat) : State :=
  if s.boot.state < 2 then s
  else if off = 4 then { s with boot := { s.boot with fwlen := BitVec.ofNat 32 value } }
  else if 0x100000 ≤ off ∧ off ≤ 0xFFFFFC then
    { s with boot := { s.boot with image := ssets 0 s.boot.image (cellsOf (off - 0x100000) 4 value) } }
  else s

/-- R397: a write in the lane-cycle record of a core: a counter ends with the written value plus what the present cycle counts. -/
def Lcr.write (l : Lcr) (off value : Nat) : Lcr :=
  if off = 0 then { l with base := BitVec.ofNat 32 value }
  else if off = 4 then { l with shift := value % 32 }
  else if 0x100 ≤ off ∧ off < 0x100 + 40 * 64 ∧ off % 8 = 0 then { l with counts := sset 0 l.counts ((off - 0x100) / 8) (BitVec.ofNat 64 value + sget 0 l.now ((off - 0x100) / 8)) }
  else l

/-- R396: a write in the debug window, which responds in RUN. STOPREQ and a HALTDBG of 0 have events of their own. -/
def State.dbgWrite (s : State) (off value : Nat) : State :=
  let d := s.dbg
  let n := off / 16 % 16
  let w := BitVec.ofNat 64 value
  let asid := value / 2 ^ 48 % 65536
  if 0x1000 ≤ off then s.modCore (off / 0x1000 - 1) fun k => { k with lcr := k.lcr.write (off % 0x1000) value }
  else if off = 0 then
    if s.protected (value / 65536 % 65536) then s
    else { s with dbg := { d with asid := value / 65536 % 65536, haltdbg := d.haltdbg || value.testBit 3, sigrec := value.testBit 2, lcren := value.testBit 1 } }
  else if off = 8 then { s with dbg := { d with ringBase := value % 2 ^ 64 } }
  else if off = 0x10 then
    if value = 0 ∨ (2 ^ 12 ≤ value ∧ value ≤ 2 ^ 30 ∧ value = 2 ^ Nat.log2 value) then { s with dbg := { d with ringSize := value } } else s
  else if off = 0x18 then { s with dbg := { d with ringRp := value % 2 ^ 32 } }
  else if off = 0x20 then { s with dbg := { d with btnode := BitVec.ofNat 32 value } }
  else if off = 0x24 then { s with dbg := { d with btgrp := BitVec.ofNat 32 value } }
  else if off = 0x28 then { s with dbg := { d with bten := value.testBit 16, btser := value % 65536 } }
  else if 0x100 ≤ off ∧ off < 0x180 ∧ off % 16 = 0 then
    if s.protected asid then s else { s with dbg := { d with bp := sset 0 d.bp n w } }
  else if 0x100 ≤ off ∧ off < 0x180 ∧ off % 16 = 8 then
    let bit := BitVec.ofNat 8 (2 ^ n)
    { s with dbg := { d with bpen := if value.testBit 0 then d.bpen ||| bit else d.bpen &&& ~~~bit } }
  else if 0x200 ≤ off ∧ off < 0x280 ∧ off % 16 = 0 then
    if s.protected asid then s else { s with dbg := { d with wp := sset 0 d.wp n w } }
  else if 0x200 ≤ off ∧ off < 0x280 ∧ off % 16 = 8 then
    { s with dbg := { d with wpctl := sset 0 d.wpctl n (BitVec.ofNat 32 value &&& 0x3F7) } }
  else s

/-- The registers that only verified firmware writes (R46, R58, R346, R348, R391, R395); the spec gives them no addresses, so
they are numbered here: DRPTHR by its index of R46, the others from 0x100. -/
def State.trustedWrite (s : State) (off value : Nat) : State :=
  if s.boot.state ≠ 4 then s
  else match off with
    | 0x1E => { s with drpthr := value % 256 }
    | 0x100 =>
      -- R58: once, before the near aperture is exposed
      if s.slotsFixed then s
      else { s with slotsFixed := true, slotsS := if value % 256 = 0 ∧ value ≤ min (s.rows / 16) 4096 then value else 512 }
    | 0x101 => { s with gov := { s.gov with limit := value } }
    | 0x102 => { s with gov := { s.gov with hysteresis := value } }
    | 0x103 => { s with gov := { s.gov with grace := value } }
    | 0x104 => { s with gov := { s.gov with interval := value } }
    | 0x105 => if 25 ≤ value ∧ value ≤ 160 then { s with gov := { s.gov with pmax := value } } else s
    | 0x107 => { s with gov := { s.gov with sramLimit := value } }
    | 0x108 => { s with gov := { s.gov with sramSpan := value } }
    | 0x106 => { s with boot := { s.boot with minSvn := max s.boot.minSvn value } }
    | _ => s

/-- REGISTER_WRITE. -/
def execRegisterWrite (e : EvRegWrite) (s : State) : Host.Outcome State Fault Refusal :=
  .next (match e.window with
    | .firmware => s.fwWrite e.off e.value
    | .debug => if s.boot.state = 4 then s.dbgWrite e.off e.value else s
    | .trusted => s.trustedWrite e.off e.value
    | .interface i => if s.runs then s.tdiWrite i e.off e.value else s)

end Sys2Proof.Machine
end

