-- ==== Sys2Proof/Machine/Float.lean ====
section
/-!
DEFINITION. Compares and floating-point instructions (R185 to R193).
-/
namespace Sys2Proof.Machine

/-! ### Compares (R185) -/

/-- R185: a compare: each active lane's bit of m[D] and its flags; a trap writes no bit. -/
def compare (s : State) (c : Ctx) (d : Byte) (f : Nat → Bool × Nat) : Res :=
  let rows := c.lanes.map fun l => (l, f l)
  let fls := rows.map fun r => (r.1, r.2.2)
  let fl := orFlags fls
  let s := if fl = 0 then s else s.modTeam c.tid fun t => t.stick fl
  match enabledException fl c.team.trapEn with
  | some x => .trap s (96 + 9 * x + typeGroup c.et) fl (lanesRaising fls x) false
  | none =>
    if rows = [] then .done s
    else
      .done (s.modTeam c.tid fun t => t.writeBits c.uid d.toNat c.act (maskOf 1024 ((rows.filter fun r => r.2.1).map (·.1))))

/-- R185: an f32 compare of one lane; `strict` compares raise IV on a quiet NaN. -/
def fcmp (c : Ctx) (strict : Bool) (unordered : Bool) (f : FV → FV → Bool) (a b : Nat) : Bool × Nat :=
  let x := readF f32 c.sp.modeFtz a
  let y := readF f32 c.sp.modeFtz b
  let nan := x.isNaN || y.isNaN
  (if nan then unordered else f x y, if x.isSig || y.isSig || (strict && nan) then fIV else 0)

/-- R185: an R-format compare: integers by g, f32 by f. -/
def cmpOp (s : State) (c : Ctx) (o : FR) (strict unordered : Bool) (f : FV → FV → Bool) (g : Int → Int → Bool) : Res :=
  let et := c.et
  compare s c o.d fun l =>
    let x := c.unit o.a l (etRegs et)
    let y := c.unit o.b l (etRegs et)
    if et = 2 then fcmp c strict unordered f x y
    else (g (intOf (etSigned et) (etWidth et) x) (intOf (etSigned et) (etWidth et) y), 0)

def execCeq (o : FR) (s : State) : Host.Outcome State Fault Refusal := issue (.ceq o) s fun s c =>
  cmpOp s c o false false fvEq fun x y => decide (x = y)
def execCne (o : FR) (s : State) : Host.Outcome State Fault Refusal := issue (.cne o) s fun s c =>
  cmpOp s c o false true (fun x y => !fvEq x y) fun x y => decide (x ≠ y)
def execClt (o : FR) (s : State) : Host.Outcome State Fault Refusal := issue (.clt o) s fun s c =>
  cmpOp s c o true false fvLtCmp fun x y => decide (x < y)
def execCle (o : FR) (s : State) : Host.Outcome State Fault Refusal := issue (.cle o) s fun s c =>
  cmpOp s c o true false (fun x y => fvLtCmp x y || fvEq x y) fun x y => decide (x ≤ y)
def execCun (o : FR) (s : State) : Host.Outcome State Fault Refusal := issue (.cun o) s fun s c =>
  cmpOp s c o false true (fun _ _ => false) fun _ _ => false

/-- R185: the immediate of a compare, sign-extended for i types, zero-extended for n types. -/
def cmpImm (o : FI) (et : Nat) : Int :=
  match o.ext with
  | some _ => intOf (etSigned et) 32 (immOf o false)
  | none => intOf (etSigned et) 8 o.i.toNat

def cmpImmOp (s : State) (c : Ctx) (o : FI) (g : Int → Int → Bool) : Res :=
  let et := c.et
  compare s c o.d fun l => (g (intOf (etSigned et) (etWidth et) (c.unit o.a l (etRegs et))) (cmpImm o et), 0)

def execCeqi (o : FI) (s : State) : Host.Outcome State Fault Refusal := issue (.ceqi o) s fun s c =>
  cmpImmOp s c o fun x y => decide (x = y)
def execClti (o : FI) (s : State) : Host.Outcome State Fault Refusal := issue (.clti o) s fun s c =>
  cmpImmOp s c o fun x y => decide (x < y)
def execClei (o : FI) (s : State) : Host.Outcome State Fault Refusal := issue (.clei o) s fun s c =>
  cmpImmOp s c o fun x y => decide (x ≤ y)

/-! ### Two and three sources (R186, R187) -/

/-- R186: a floating instruction of two sources: f gets the format, the rounding settings and the values read. -/
def fltOp (s : State) (c : Ctx) (o : FR) (rounds : Bool) (f : Fmt → RMode → FV → FV → FV → Nat × Nat) : Res :=
  let s := s.drawing c rounds
  let et := c.et
  let fm := etFmt et
  let w := etWidth et
  let z := c.sp.modeFtz
  lanewise s c o.d fun l k =>
    f fm (c.round false l k) (readF fm z (elemAt w (c.src o.a.toNat l) k)) (readF fm z (elemAt w (c.src o.b.toNat l) k))
      (readF fm z (elemAt w (c.src o.d.toNat l) k))

def execFadd (o : FR) (s : State) : Host.Outcome State Fault Refusal := issue (.fadd o) s fun s c =>
  fltOp s c o true fun f r x y _ => addFV f r x y [x, y]
def execFsub (o : FR) (s : State) : Host.Outcome State Fault Refusal := issue (.fsub o) s fun s c =>
  fltOp s c o true fun f r x y _ => addFV f r x y.flip [x, y]
def execFmul (o : FR) (s : State) : Host.Outcome State Fault Refusal := issue (.fmul o) s fun s c =>
  fltOp s c o true fun f r x y _ => mulFV f r x y
def execFma (o : FR) (s : State) : Host.Outcome State Fault Refusal := issue (.fma o) s fun s c =>
  fltOp s c o true fun f r x y z => fmaFV f r x y z [x, y, z]
def execFnma (o : FR) (s : State) : Host.Outcome State Fault Refusal := issue (.fnma o) s fun s c =>
  fltOp s c o true fun f r x y z => fmaFV f r x.flip y z [x, y, z]
def execFmin (o : FR) (s : State) : Host.Outcome State Fault Refusal := issue (.fmin o) s fun s c =>
  fltOp s c o false fun f r x y _ => minmaxFV f r false x y
def execFmax (o : FR) (s : State) : Host.Outcome State Fault Refusal := issue (.fmax o) s fun s c =>
  fltOp s c o false fun f r x y _ => minmaxFV f r true x y

/-! ### Functions (R188 to R191) -/

/-- R188: a FUN function of the value read. -/
def funOp (s : State) (c : Ctx) (o : FF) (rounds : Bool) (f : Fmt → RMode → FV → Nat × Nat) : Res :=
  let s := s.drawing c rounds
  let et := c.et
  let fm := etFmt et
  lanewise s c o.d fun l k =>
    f fm (c.round false l k) (readF fm c.sp.modeFtz (elemAt (etWidth et) (c.src o.a.toNat l) k))

def execFrcp (o : FF) (s : State) : Host.Outcome State Fault Refusal := issue (.frcp o) s fun s c => funOp s c o true rcpFV
def execFrsq (o : FF) (s : State) : Host.Outcome State Fault Refusal := issue (.frsq o) s fun s c => funOp s c o true rsqFV
def execFsqrt (o : FF) (s : State) : Host.Outcome State Fault Refusal := issue (.fsqrt o) s fun s c => funOp s c o true sqrtFV
def execFexp2 (o : FF) (s : State) : Host.Outcome State Fault Refusal := issue (.fexp2 o) s fun s c => funOp s c o false exp2FV
def execFlog2 (o : FF) (s : State) : Host.Outcome State Fault Refusal := issue (.flog2 o) s fun s c => funOp s c o false log2FV
def execFsinpi (o : FF) (s : State) : Host.Outcome State Fault Refusal := issue (.fsinpi o) s fun s c =>
  funOp s c o false fun f r x => trigPiFV f r false x
def execFcospi (o : FF) (s : State) : Host.Outcome State Fault Refusal := issue (.fcospi o) s fun s c =>
  funOp s c o false fun f r x => trigPiFV f r true x
def execFtanh (o : FF) (s : State) : Host.Outcome State Fault Refusal := issue (.ftanh o) s fun s c => funOp s c o false tanhFV
def execFfloor (o : FF) (s : State) : Host.Outcome State Fault Refusal := issue (.ffloor o) s fun s c =>
  funOp s c o false fun f r x => intgFV f r 3 false x
def execFceil (o : FF) (s : State) : Host.Outcome State Fault Refusal := issue (.fceil o) s fun s c =>
  funOp s c o false fun f r x => intgFV f r 2 false x
def execFtrunc (o : FF) (s : State) : Host.Outcome State Fault Refusal := issue (.ftrunc o) s fun s c =>
  funOp s c o false fun f r x => intgFV f r 1 false x
def execFrint (o : FF) (s : State) : Host.Outcome State Fault Refusal := issue (.frint o) s fun s c =>
  funOp s c o true fun f r x => intgFV f r r.rm true x

/-- R191: a function of the encoding alone. -/
def bitsOp (s : State) (c : Ctx) (o : FF) (f : Fmt → Nat → Nat) : Res :=
  let et := c.et
  lanewise s c o.d fun l k => (f (etFmt et) (elemAt (etWidth et) (c.src o.a.toNat l) k), 0)

def execFabs (o : FF) (s : State) : Host.Outcome State Fault Refusal := issue (.fabs o) s fun s c =>
  bitsOp s c o fun f x => x % 2 ^ (f.width - 1)
def execFneg (o : FF) (s : State) : Host.Outcome State Fault Refusal := issue (.fneg o) s fun s c =>
  bitsOp s c o fun f x => Nat.xor x (2 ^ (f.width - 1))
def execFclass (o : FF) (s : State) : Host.Outcome State Fault Refusal := issue (.fclass o) s fun s c =>
  bitsOp s c o classBit

/-! ### Dot products and scaling (R192, R193) -/

/-- R192: x0·y0 + x1·y1 + z rounded once to f32; NaN order x0, x1, y0, y1, z. -/
def dot2FV (r : RMode) (x0 x1 y0 y1 z : FV) : Nat × Nat :=
  let bad (x y : FV) : Bool := (x.isInf && y.isZero) || (x.isZero && y.isInf)
  let anyBad := bad x0 y0 || bad x1 y1
  let ord := [x0, x1, y0, y1, z]
  if ord.any FV.isNaN || anyBad then
    let (v, fl) := nanResult f32 r ord
    (v, if anyBad then Nat.lor fl fIV else fl)
  else
    let prod (x y : FV) : FV :=
      let n := xor x.neg y.neg
      if x.isInf || y.isInf then .inf n
      else let p := dyMul x.dy y.dy; .fin n p.m.natAbs p.e
    let ts := [prod x0 y0, prod x1 y1, z]
    let infs := ts.filter FV.isInf
    match infs with
    | t :: rest => if rest.all fun u => decide (u.neg = t.neg) then (f32.inf t.neg, 0) else (f32.nan, fIV)
    | [] =>
      let zeroNeg := if ts.all FV.isZero && (ts.all (·.neg) || ts.all fun t => !t.neg) then z.neg else decide (r.rm = 3)
      roundDy f32 r (dySum (ts.map FV.dy)) zeroNeg

def execFdot2 (o : FR) (s : State) : Host.Outcome State Fault Refusal := issue (.fdot2 o) s fun s c =>
  let s := s.drawing c true
  let fm := etFmt c.et
  let z := c.sp.modeFtz
  arith s c o.d 1 32 4 (c.rows o.d fun l =>
    let e (x : Byte) (k : Nat) : FV := readF fm z (elemAt 16 (c.src x.toNat l) k)
    dot2FV (c.round false l 0) (e o.a 0) (e o.a 1) (e o.b 0) (e o.b 1) (readF f32 z (c.src o.d.toNat l)))

def execIdot4 (o : FR) (s : State) : Host.Outcome State Fault Refusal := issue (.idot4 o) s fun s c =>
  let sg := etSigned c.et
  arith s c o.d 1 32 0 (c.rows o.d fun l =>
    let p (k : Nat) : Int := intOf sg 8 (elemAt 8 (c.src o.a.toNat l) k) * intOf sg 8 (elemAt 8 (c.src o.b.toNat l) k)
    fitInt c.sp.modeSat sg 32 (p 0 + p 1 + p 2 + p 3 + intOf sg 32 (c.src o.d.toNat l)))

def execFscale (o : FR) (s : State) : Host.Outcome State Fault Refusal := issue (.fscale o) s fun s c =>
  let s := s.drawing c true
  let et := c.et
  let w := etWidth et
  let fm := etFmt et
  lanewise s c o.d fun l k =>
    scaleFV fm (c.round false l k) (readF fm c.sp.modeFtz (elemAt w (c.src o.a.toNat l) k))
      (intOf true w (elemAt w (c.src o.b.toNat l) k))

end Sys2Proof.Machine
end

