-- ==== Sys2Proof/Machine/Int.lean ====
section
/-!
DEFINITION. Integer instructions, moves of registers, NOP (R178 to R184).
-/
namespace Sys2Proof.Machine

/-- R44: NOP does nothing. -/
def execNop (o : FN) (s : State) : Host.Outcome State Fault Refusal := issue (.nop o) s fun s _ => .done s

/-! ### Two sources (R178) -/

/-- R178: a two-source integer instruction: f gets SAT, the signedness, the width and the bits of x, y, z. -/
def intOp (s : State) (c : Ctx) (o : FR) (f : Bool → Bool → Nat → Nat → Nat → Nat → Nat × Nat) : Res :=
  let et := c.et
  let n := etRegs et
  let w := etWidth et
  lanewise s c o.d fun l k =>
    f c.sp.modeSat (etSigned et) w (elemAt w (c.unit o.a l n) k) (elemAt w (c.unit o.b l n) k) (elemAt w (c.unit o.d l n) k)

def execAdd (o : FR) (s : State) : Host.Outcome State Fault Refusal := issue (.add o) s fun s c =>
  intOp s c o fun sat sg w x y _ => fitInt sat sg w (intOf sg w x + intOf sg w y)
def execSub (o : FR) (s : State) : Host.Outcome State Fault Refusal := issue (.sub o) s fun s c =>
  intOp s c o fun sat sg w x y _ => fitInt sat sg w (intOf sg w x - intOf sg w y)
def execMul (o : FR) (s : State) : Host.Outcome State Fault Refusal := issue (.mul o) s fun s c =>
  intOp s c o fun sat sg w x y _ => fitInt sat sg w (intOf sg w x * intOf sg w y)
def execMulh (o : FR) (s : State) : Host.Outcome State Fault Refusal := issue (.mulh o) s fun s c =>
  intOp s c o fun _ sg w x y _ => (wrapInt w (intOf sg w x * intOf sg w y / 2 ^ w), 0)
def execMad (o : FR) (s : State) : Host.Outcome State Fault Refusal := issue (.mad o) s fun s c =>
  intOp s c o fun sat sg w x y z => fitInt sat sg w (intOf sg w x * intOf sg w y + intOf sg w z)
def execMin (o : FR) (s : State) : Host.Outcome State Fault Refusal := issue (.min o) s fun s c =>
  intOp s c o fun _ sg w x y _ => (if intOf sg w y < intOf sg w x then y else x, 0)
def execMax (o : FR) (s : State) : Host.Outcome State Fault Refusal := issue (.max o) s fun s c =>
  intOp s c o fun _ sg w x y _ => (if intOf sg w x < intOf sg w y then y else x, 0)
def execAbsd (o : FR) (s : State) : Host.Outcome State Fault Refusal := issue (.absd o) s fun s c =>
  intOp s c o fun _ sg w x y _ => ((intOf sg w x - intOf sg w y).natAbs, 0)
def execAnd (o : FR) (s : State) : Host.Outcome State Fault Refusal := issue (.and o) s fun s c =>
  intOp s c o fun _ _ _ x y _ => (Nat.land x y, 0)
def execOr (o : FR) (s : State) : Host.Outcome State Fault Refusal := issue (.or o) s fun s c =>
  intOp s c o fun _ _ _ x y _ => (Nat.lor x y, 0)
def execXor (o : FR) (s : State) : Host.Outcome State Fault Refusal := issue (.xor o) s fun s c =>
  intOp s c o fun _ _ _ x y _ => (Nat.xor x y, 0)
def execAndn (o : FR) (s : State) : Host.Outcome State Fault Refusal := issue (.andn o) s fun s c =>
  intOp s c o fun _ _ w x y _ => (Nat.land x (2 ^ w - 1 - y), 0)

/-! ### Shifts (R179) -/

/-- R179: SHL of an element by n. -/
def shlElem (sat sg : Bool) (w x n : Nat) : Nat × Nat :=
  let v := intOf sg w x
  if n < w then fitInt sat sg w (v * 2 ^ n)
  else if v = 0 then (0, 0)
  else if sat then (wrapInt w (if v < 0 then intMin sg w else intMax sg w), fSATF)
  else (0, 0)
def shrElem (x n : Nat) : Nat := x / 2 ^ n
def sarElem (w x n : Nat) : Nat := wrapInt w (intOf true w x / 2 ^ min n w)
def rotElem (w x n : Nat) : Nat := x * 2 ^ (n % w) % 2 ^ w + x / 2 ^ (w - n % w)

/-- R179: a shift: the amount is the element of B, or for the 64-bit types the single register B. -/
def shiftOp (s : State) (c : Ctx) (o : FR) (f : Bool → Bool → Nat → Nat → Nat → Nat × Nat) : Res :=
  let et := c.et
  let w := etWidth et
  lanewise s c o.d fun l k =>
    f c.sp.modeSat (etSigned et) w (elemAt w (c.unit o.a l (etRegs et)) k)
      (if et64 et then c.src o.b.toNat l else elemAt w (c.src o.b.toNat l) k)

def execShl (o : FR) (s : State) : Host.Outcome State Fault Refusal := issue (.shl o) s fun s c =>
  shiftOp s c o shlElem
def execShr (o : FR) (s : State) : Host.Outcome State Fault Refusal := issue (.shr o) s fun s c =>
  shiftOp s c o fun _ _ w x n => (if n < w then shrElem x n else 0, 0)
def execSar (o : FR) (s : State) : Host.Outcome State Fault Refusal := issue (.sar o) s fun s c =>
  shiftOp s c o fun _ _ w x n => (sarElem w x n, 0)
def execRot (o : FR) (s : State) : Host.Outcome State Fault Refusal := issue (.rot o) s fun s c =>
  shiftOp s c o fun _ _ w x n => (rotElem w x n, 0)

/-! ### Bit fields (R180) -/

/-- R180: pos, n of an operand B, none where the field is empty. -/
def fieldSpan (w b : Nat) : Option (Nat × Nat) :=
  let pos := b % 256
  let len := b / 256 % 256
  if len = 0 ∨ w ≤ pos then none else some (pos, min len (w - pos))

def bfxElem (sg : Bool) (w x b : Nat) : Nat :=
  match fieldSpan w b with
  | none => 0
  | some (pos, n) => wrapInt w (intOf sg n (x / 2 ^ pos % 2 ^ n))

def bfiElem (w x b z : Nat) : Nat :=
  match fieldSpan w b with
  | none => z
  | some (pos, n) => z % 2 ^ pos + x % 2 ^ n * 2 ^ pos + z / 2 ^ (pos + n) * 2 ^ (pos + n)

def execBfx (o : FR) (s : State) : Host.Outcome State Fault Refusal := issue (.bfx o) s fun s c =>
  lanewise s c o.d fun l _ =>
    (bfxElem (etSigned c.et) (etWidth c.et) (c.unit o.a l (etRegs c.et)) (c.src o.b.toNat l), 0)
def execBfi (o : FR) (s : State) : Host.Outcome State Fault Refusal := issue (.bfi o) s fun s c =>
  let n := etRegs c.et
  lanewise s c o.d fun l _ => (bfiElem (etWidth c.et) (c.unit o.a l n) (c.src o.b.toNat l) (c.unit o.d l n), 0)

/-! ### One source (R181) -/

/-- R181: an IUN function: f gets SAT, the signedness, the width and the bits of the element. -/
def iunOp (s : State) (c : Ctx) (o : FF) (f : Bool → Bool → Nat → Nat → Nat × Nat) : Res :=
  let et := c.et
  let w := etWidth et
  lanewise s c o.d fun l k => f c.sp.modeSat (etSigned et) w (elemAt w (c.unit o.a l (etRegs et)) k)

/-- The number of bits of x up to its highest set bit. -/
def bitLen (x : Nat) : Nat := if x = 0 then 0 else Nat.log2 x + 1
/-- R181: trailing zeros; w for 0. -/
def ctzElem (w x : Nat) : Nat := ((List.range w).find? fun i => x.testBit i).getD w
/-- R181: the bits of x reversed within w. -/
def brevElem (w x : Nat) : Nat := (List.range w).foldl (fun a i => 2 * a + (if x.testBit i then 1 else 0)) 0

def execPopc (o : FF) (s : State) : Host.Outcome State Fault Refusal := issue (.popc o) s fun s c =>
  iunOp s c o fun _ _ w x => (popcount w x, 0)
def execClz (o : FF) (s : State) : Host.Outcome State Fault Refusal := issue (.clz o) s fun s c =>
  iunOp s c o fun _ _ w x => (w - bitLen x, 0)
def execCtz (o : FF) (s : State) : Host.Outcome State Fault Refusal := issue (.ctz o) s fun s c =>
  iunOp s c o fun _ _ w x => (ctzElem w x, 0)
def execBrev (o : FF) (s : State) : Host.Outcome State Fault Refusal := issue (.brev o) s fun s c =>
  iunOp s c o fun _ _ w x => (brevElem w x, 0)
def execNot (o : FF) (s : State) : Host.Outcome State Fault Refusal := issue (.not o) s fun s c =>
  iunOp s c o fun _ _ w x => (2 ^ w - 1 - x, 0)
def execNeg (o : FF) (s : State) : Host.Outcome State Fault Refusal := issue (.neg o) s fun s c =>
  iunOp s c o fun sat sg w x => fitInt sat sg w (-intOf sg w x)
def execIabs (o : FF) (s : State) : Host.Outcome State Fault Refusal := issue (.iabs o) s fun s c =>
  iunOp s c o fun sat sg w x => fitInt sat sg w (intOf sg w x).natAbs
def execSext8 (o : FF) (s : State) : Host.Outcome State Fault Refusal := issue (.sext8 o) s fun s c =>
  iunOp s c o fun _ _ w x => (wrapInt w (intOf true 8 x), 0)
def execSext16 (o : FF) (s : State) : Host.Outcome State Fault Refusal := issue (.sext16 o) s fun s c =>
  iunOp s c o fun _ _ w x => (wrapInt w (intOf true 16 x), 0)
def execZext8 (o : FF) (s : State) : Host.Outcome State Fault Refusal := issue (.zext8 o) s fun s c =>
  iunOp s c o fun _ _ _ x => (x % 256, 0)
def execZext16 (o : FF) (s : State) : Host.Outcome State Fault Refusal := issue (.zext16 o) s fun s c =>
  iunOp s c o fun _ _ _ x => (x % 65536, 0)

/-! ### Immediates (R182) -/

/-- R182: an immediate form: f gets SAT, the signedness, the width, the bits of x and of the immediate. `signed` says how
I8 is extended, `sx` how the immediate is extended to 64 bits. -/
def immOp (s : State) (c : Ctx) (o : FI) (signed sx : Bool) (f : Bool → Bool → Nat → Nat → Nat → Nat × Nat) : Res :=
  let et := c.et
  let w := etWidth et
  lanewise s c o.d fun l _ => f c.sp.modeSat (etSigned et) w (c.unit o.a l (etRegs et)) (immUnit o et signed sx)

def execAddi (o : FI) (s : State) : Host.Outcome State Fault Refusal := issue (.addi o) s fun s c =>
  immOp s c o true true fun sat sg w x y => fitInt sat sg w (intOf sg w x + intOf sg w y)
def execMuli (o : FI) (s : State) : Host.Outcome State Fault Refusal := issue (.muli o) s fun s c =>
  immOp s c o true true fun sat sg w x y => fitInt sat sg w (intOf sg w x * intOf sg w y)
def execAndi (o : FI) (s : State) : Host.Outcome State Fault Refusal := issue (.andi o) s fun s c =>
  immOp s c o false (etSigned c.et) fun _ _ _ x y => (Nat.land x y, 0)
def execOri (o : FI) (s : State) : Host.Outcome State Fault Refusal := issue (.ori o) s fun s c =>
  immOp s c o false (etSigned c.et) fun _ _ _ x y => (Nat.lor x y, 0)
def execXori (o : FI) (s : State) : Host.Outcome State Fault Refusal := issue (.xori o) s fun s c =>
  immOp s c o false (etSigned c.et) fun _ _ _ x y => (Nat.xor x y, 0)
def execShli (o : FI) (s : State) : Host.Outcome State Fault Refusal := issue (.shli o) s fun s c =>
  immOp s c o false false shlElem
def execShri (o : FI) (s : State) : Host.Outcome State Fault Refusal := issue (.shri o) s fun s c =>
  immOp s c o false false fun _ _ w x n => (if n < w then shrElem x n else 0, 0)
def execSari (o : FI) (s : State) : Host.Outcome State Fault Refusal := issue (.sari o) s fun s c =>
  immOp s c o false false fun _ _ w x n => (sarElem w x n, 0)

/-! ### Constants and moves (R183, R184) -/

def execMovk (o : FK) (s : State) : Host.Outcome State Fault Refusal := issue (.movk o) s fun s c =>
  arith s c o.d 1 32 0 (c.rows o.d fun _ => (immK o, 0))
def execMovkh (o : FK) (s : State) : Host.Outcome State Fault Refusal := issue (.movkh o) s fun s c =>
  arith s c o.d 1 32 0 (c.rows o.d fun l => (o.k.toNat * 65536 + c.src o.d.toNat l % 65536, 0))
def execMov (o : FR) (s : State) : Host.Outcome State Fault Refusal := issue (.mov o) s fun s c =>
  let n := etRegs c.et
  arith s c o.d n (etWidth c.et) 0 (c.rows o.d fun l => (c.unit o.a l n, 0))
/-- R184, R175: g[D] from the lowest-numbered active lane, 0 with none; a g source has its value in every lane. -/
def execMovf (o : FR) (s : State) : Host.Outcome State Fault Refusal := issue (.movf o) s fun s c =>
  let n := etRegs c.et
  arith s c o.d n (etWidth c.et) 0 [(0, (match c.reduced o.d o.a with | [] => 0 | l :: _ => c.unit o.a l n), 0)]

end Sys2Proof.Machine
end

