-- ==== Sys2Proof/Machine/Mask.lean ====
section
/-!
DEFINITION. Mask registers (R205 to R210) and MODE (R35).
-/
namespace Sys2Proof.Machine

/-! ### Masks (R206 to R209) -/

def execMand (o : FR) (s : State) : Host.Outcome State Fault Refusal := issue (.mand o) s fun s c =>
  .done (s.wrM c o.d.toNat (c.m o.a.toNat &&& c.m o.b.toNat))
def execMor (o : FR) (s : State) : Host.Outcome State Fault Refusal := issue (.mor o) s fun s c =>
  .done (s.wrM c o.d.toNat (c.m o.a.toNat ||| c.m o.b.toNat))
def execMxor (o : FR) (s : State) : Host.Outcome State Fault Refusal := issue (.mxor o) s fun s c =>
  .done (s.wrM c o.d.toNat (c.m o.a.toNat ^^^ c.m o.b.toNat))
def execMandn (o : FR) (s : State) : Host.Outcome State Fault Refusal := issue (.mandn o) s fun s c =>
  .done (s.wrM c o.d.toNat (c.m o.a.toNat &&& ~~~(c.m o.b.toNat)))

def execMcnt (o : FR) (s : State) : Host.Outcome State Fault Refusal := issue (.mcnt o) s fun s c =>
  broadcast s c o.d (c.team.lanes (c.m o.a.toNat)).length
def execMfind (o : FR) (s : State) : Host.Outcome State Fault Refusal := issue (.mfind o) s fun s c =>
  broadcast s c o.d (((c.team.lanes (c.m o.a.toNat)).find? fun l => decide (c.g o.b ≤ l)).getD 0xFFFFFFFF)

/-- R208: word w of a mask. -/
def maskWord (x : LaneMask) (w : Nat) : Nat := (x.extractLsb' (32 * w) 32).toNat
def execMget (o : FR) (s : State) : Host.Outcome State Fault Refusal := issue (.mget o) s fun s c =>
  let m := c.m o.a.toNat
  arith s c o.d 1 32 0 (c.rows o.d fun l =>
    (if o.d.toNat < 192 then (if m.getLsbD l then 1 else 0) else maskWord m (c.g o.b % 32), 0))

/-- R205, R208: MSET: the bits of the active lanes, or one whole word. -/
def execMset (o : FR) (s : State) : Host.Outcome State Fault Refusal := issue (.mset o) s fun s c =>
  let d := o.d.toNat
  if o.a.toNat < 192 then
    if c.lanes = [] then .done s
    else
      .done (s.modTeam c.tid fun t => t.writeBits c.uid d c.act (maskOf 1024 (c.voters o.a)))
  else
    let w := c.g o.b % 32
    let x := c.src o.a.toNat 0
    .done (s.modTeam c.tid fun t =>
      let old := t.raw .m d 0
      t.write c.uid 32 .m d [(0, old - old / 2 ^ (32 * w) % 2 ^ 32 * 2 ^ (32 * w) + x * 2 ^ (32 * w))])

/-- R209: MEXEC: m[D] takes the old EXEC, EXEC takes m[A] within O. -/
def execMexec (o : FR) (s : State) : Host.Outcome State Fault Refusal := issue (.mexec o) s fun s c =>
  let x := c.m o.a.toNat &&& c.sp.own
  .done ((s.wrM c o.d.toNat c.sp.exec).modSplit c.tid c.uid fun p => { p with exec := x })

/-! ### Masks and the window (R210) -/

/-- R210: the bytes of a stored mask. -/
def maskBytes (c : Ctx) : Nat := max 4 (c.team.size / 8)

/-- R210: MSTS: the mask's words at the window offset. -/
def execMsts (o : FL) (s : State) : Host.Outcome State Fault Refusal := issue (.msts o) s fun s c =>
  s.onPath c 2 fun _ =>
    let n := maskBytes c
    let base := c.g o.a + 4 * o.s.toNat
    match s.formLocal c .win 0 n (min n 16) true true [(base, { lane := 0, off := 0 })] with
    | .ok s _ _ =>
      let m := c.m o.d.toNat
      depart c ⟨2, 4, true, {}, true, 0⟩
        (s.formLocal c .win 0 4 4 true true ((List.range (n / 4)).map fun k => (base + 4 * k, { lane := k, off := 0, data := maskWord m k })))
        none fun f => { f with kind := .store }
    | f => depart c ⟨2, 4, true, {}, true, 0⟩ f none id

/-- R210: MLDS: the whole mask from the window offset. -/
def execMlds (o : FL) (s : State) : Host.Outcome State Fault Refusal := issue (.mlds o) s fun s c =>
  s.onPath c 2 fun _ =>
    let n := maskBytes c
    let base := c.g o.d + 4 * o.s.toNat
    match s.formLocal c .win 0 n (min n 16) false true [(base, { lane := 0, off := 0 })] with
    | .ok s _ _ =>
      depart c ⟨2, 4, false, { r := true }, true, 0⟩
        (s.formLocal c .win 0 4 4 false true ((List.range (n / 4)).map fun k => (base + 4 * k, { lane := k, off := 0 })))
        (some ⟨.m, o.a.toNat, 1, lanesBelow c.team.size⟩) fun f => { f with kind := .loadMask }
    | f => depart c ⟨2, 4, false, { r := true }, true, 0⟩ f none id

/-! ### MODE (R35) -/

/-- R35: write MODE, or raise encoding fault 14. -/
def setMode (s : State) (c : Ctx) (x : Word) : Res :=
  if modeReserved x then .trap s 14 (encodingDetail c.i) c.act false
  else .done (s.modSplit c.tid c.uid fun p => { p with mode := x })

def execSetmode (o : FK) (s : State) : Host.Outcome State Fault Refusal := issue (.setmode o) s fun s c =>
  setMode s c (match o.ext with
    | some _ => BitVec.ofNat 32 (immK o)
    | none => BitVec.ofNat 32 (c.sp.mode.toNat / 65536 * 65536 + o.k.toNat))
def execSetmodeh (o : FK) (s : State) : Host.Outcome State Fault Refusal := issue (.setmodeh o) s fun s c =>
  setMode s c (BitVec.ofNat 32 (o.k.toNat * 65536 + c.sp.mode.toNat % 65536))

end Sys2Proof.Machine
end

