-- ==== Sys2Proof/Machine/Dispatch.lean ====
section
/-!
DEFINITION. One arm per constructor of Instr: the meaning of each instruction of the opcode table.
-/
namespace Sys2Proof.Machine

def exec (i : Instr) (s : State) : Host.Outcome State Fault Refusal :=
  match i with
  | .nop o => Sys2Proof.Machine.execNop o s
  | .add o => Sys2Proof.Machine.execAdd o s
  | .sub o => Sys2Proof.Machine.execSub o s
  | .mul o => Sys2Proof.Machine.execMul o s
  | .mulh o => Sys2Proof.Machine.execMulh o s
  | .mad o => Sys2Proof.Machine.execMad o s
  | .min o => Sys2Proof.Machine.execMin o s
  | .max o => Sys2Proof.Machine.execMax o s
  | .absd o => Sys2Proof.Machine.execAbsd o s
  | .and o => Sys2Proof.Machine.execAnd o s
  | .or o => Sys2Proof.Machine.execOr o s
  | .xor o => Sys2Proof.Machine.execXor o s
  | .andn o => Sys2Proof.Machine.execAndn o s
  | .shl o => Sys2Proof.Machine.execShl o s
  | .shr o => Sys2Proof.Machine.execShr o s
  | .sar o => Sys2Proof.Machine.execSar o s
  | .rot o => Sys2Proof.Machine.execRot o s
  | .bfx o => Sys2Proof.Machine.execBfx o s
  | .bfi o => Sys2Proof.Machine.execBfi o s
  | .popc o => Sys2Proof.Machine.execPopc o s
  | .clz o => Sys2Proof.Machine.execClz o s
  | .ctz o => Sys2Proof.Machine.execCtz o s
  | .brev o => Sys2Proof.Machine.execBrev o s
  | .not o => Sys2Proof.Machine.execNot o s
  | .neg o => Sys2Proof.Machine.execNeg o s
  | .iabs o => Sys2Proof.Machine.execIabs o s
  | .sext8 o => Sys2Proof.Machine.execSext8 o s
  | .sext16 o => Sys2Proof.Machine.execSext16 o s
  | .zext8 o => Sys2Proof.Machine.execZext8 o s
  | .zext16 o => Sys2Proof.Machine.execZext16 o s
  | .addi o => Sys2Proof.Machine.execAddi o s
  | .muli o => Sys2Proof.Machine.execMuli o s
  | .andi o => Sys2Proof.Machine.execAndi o s
  | .ori o => Sys2Proof.Machine.execOri o s
  | .xori o => Sys2Proof.Machine.execXori o s
  | .shli o => Sys2Proof.Machine.execShli o s
  | .shri o => Sys2Proof.Machine.execShri o s
  | .sari o => Sys2Proof.Machine.execSari o s
  | .movk o => Sys2Proof.Machine.execMovk o s
  | .movkh o => Sys2Proof.Machine.execMovkh o s
  | .mov o => Sys2Proof.Machine.execMov o s
  | .movf o => Sys2Proof.Machine.execMovf o s
  | .ceq o => Sys2Proof.Machine.execCeq o s
  | .cne o => Sys2Proof.Machine.execCne o s
  | .clt o => Sys2Proof.Machine.execClt o s
  | .cle o => Sys2Proof.Machine.execCle o s
  | .cun o => Sys2Proof.Machine.execCun o s
  | .ceqi o => Sys2Proof.Machine.execCeqi o s
  | .clti o => Sys2Proof.Machine.execClti o s
  | .clei o => Sys2Proof.Machine.execClei o s
  | .fadd o => Sys2Proof.Machine.execFadd o s
  | .fsub o => Sys2Proof.Machine.execFsub o s
  | .fmul o => Sys2Proof.Machine.execFmul o s
  | .fma o => Sys2Proof.Machine.execFma o s
  | .fnma o => Sys2Proof.Machine.execFnma o s
  | .fmin o => Sys2Proof.Machine.execFmin o s
  | .fmax o => Sys2Proof.Machine.execFmax o s
  | .frcp o => Sys2Proof.Machine.execFrcp o s
  | .frsq o => Sys2Proof.Machine.execFrsq o s
  | .fsqrt o => Sys2Proof.Machine.execFsqrt o s
  | .fexp2 o => Sys2Proof.Machine.execFexp2 o s
  | .flog2 o => Sys2Proof.Machine.execFlog2 o s
  | .fsinpi o => Sys2Proof.Machine.execFsinpi o s
  | .fcospi o => Sys2Proof.Machine.execFcospi o s
  | .ftanh o => Sys2Proof.Machine.execFtanh o s
  | .ffloor o => Sys2Proof.Machine.execFfloor o s
  | .fceil o => Sys2Proof.Machine.execFceil o s
  | .ftrunc o => Sys2Proof.Machine.execFtrunc o s
  | .frint o => Sys2Proof.Machine.execFrint o s
  | .fabs o => Sys2Proof.Machine.execFabs o s
  | .fneg o => Sys2Proof.Machine.execFneg o s
  | .fclass o => Sys2Proof.Machine.execFclass o s
  | .fdot2 o => Sys2Proof.Machine.execFdot2 o s
  | .idot4 o => Sys2Proof.Machine.execIdot4 o s
  | .fscale o => Sys2Proof.Machine.execFscale o s
  | .cvt o => Sys2Proof.Machine.execCvt o s
  | .pack o => Sys2Proof.Machine.execPack o s
  | .unpk o => Sys2Proof.Machine.execUnpk o s
  | .mxscl o => Sys2Proof.Machine.execMxscl o s
  | .shfl o => Sys2Proof.Machine.execShfl o s
  | .shflx o => Sys2Proof.Machine.execShflx o s
  | .perm o => Sys2Proof.Machine.execPerm o s
  | .voteAny o => Sys2Proof.Machine.execVoteAny o s
  | .voteAll o => Sys2Proof.Machine.execVoteAll o s
  | .voteBallot o => Sys2Proof.Machine.execVoteBallot o s
  | .tred o => Sys2Proof.Machine.execTred o s
  | .tscan o => Sys2Proof.Machine.execTscan o s
  | .wid o => Sys2Proof.Machine.execWid o s
  | .setmode o => Sys2Proof.Machine.execSetmode o s
  | .mand o => Sys2Proof.Machine.execMand o s
  | .mor o => Sys2Proof.Machine.execMor o s
  | .mxor o => Sys2Proof.Machine.execMxor o s
  | .mandn o => Sys2Proof.Machine.execMandn o s
  | .mcnt o => Sys2Proof.Machine.execMcnt o s
  | .mfind o => Sys2Proof.Machine.execMfind o s
  | .mget o => Sys2Proof.Machine.execMget o s
  | .mset o => Sys2Proof.Machine.execMset o s
  | .mexec o => Sys2Proof.Machine.execMexec o s
  | .msts o => Sys2Proof.Machine.execMsts o s
  | .mlds o => Sys2Proof.Machine.execMlds o s
  | .setmodeh o => Sys2Proof.Machine.execSetmodeh o s
  | .mloop o => Sys2Proof.Machine.execMloop o s
  | .mxv o => Sys2Proof.Machine.execMxv o s
  | .trace o => Sys2Proof.Machine.execTrace o s
  | .rbox o => Sys2Proof.Machine.execRbox o s
  | .bra o => Sys2Proof.Machine.execBra o s
  | .brnz o => Sys2Proof.Machine.execBrnz o s
  | .brz o => Sys2Proof.Machine.execBrz o s
  | .brany o => Sys2Proof.Machine.execBrany o s
  | .brnone o => Sys2Proof.Machine.execBrnone o s
  | .jset o => Sys2Proof.Machine.execJset o s
  | .brm o => Sys2Proof.Machine.execBrm o s
  | .jmpi o => Sys2Proof.Machine.execJmpi o s
  | .join o => Sys2Proof.Machine.execJoin o s
  | .call o => Sys2Proof.Machine.execCall o s
  | .calli o => Sys2Proof.Machine.execCalli o s
  | .ret o => Sys2Proof.Machine.execRet o s
  | .land o => Sys2Proof.Machine.execLand o s
  | .exit o => Sys2Proof.Machine.execExit o s
  | .bar o => Sys2Proof.Machine.execBar o s
  | .yield o => Sys2Proof.Machine.execYield o s
  | .ld o => Sys2Proof.Machine.execLd o s
  | .st o => Sys2Proof.Machine.execSt o s
  | .lda o => Sys2Proof.Machine.execLda o s
  | .str o => Sys2Proof.Machine.execStr o s
  | .ldk o => Sys2Proof.Machine.execLdk o s
  | .lds o => Sys2Proof.Machine.execLds o s
  | .sts o => Sys2Proof.Machine.execSts o s
  | .ldy o => Sys2Proof.Machine.execLdy o s
  | .sty o => Sys2Proof.Machine.execSty o s
  | .ldl o => Sys2Proof.Machine.execLdl o s
  | .stl o => Sys2Proof.Machine.execStl o s
  | .ldp o => Sys2Proof.Machine.execLdp o s
  | .stp o => Sys2Proof.Machine.execStp o s
  | .atom o => Sys2Proof.Machine.execAtom o s
  | .atagg o => Sys2Proof.Machine.execAtagg o s
  | .latom o => Sys2Proof.Machine.execLatom o s
  | .arm o => Sys2Proof.Machine.execArm o s
  | .waitmon o => Sys2Proof.Machine.execWaitmon o s
  | .fenceFull o => Sys2Proof.Machine.execFenceFull o s
  | .fenceAcq o => Sys2Proof.Machine.execFenceAcq o s
  | .fenceRel o => Sys2Proof.Machine.execFenceRel o s
  | .fenceStrict o => Sys2Proof.Machine.execFenceStrict o s
  | .cmaint o => Sys2Proof.Machine.execCmaint o s
  | .icinv o => Sys2Proof.Machine.execIcinv o s
  | .promote o => Sys2Proof.Machine.execPromote o s
  | .demote o => Sys2Proof.Machine.execDemote o s
  | .bset o => Sys2Proof.Machine.execBset o s
  | .bget o => Sys2Proof.Machine.execBget o s
  | .bnar o => Sys2Proof.Machine.execBnar o s
  | .bld o => Sys2Proof.Machine.execBld o s
  | .tpload o => Sys2Proof.Machine.execTpload o s
  | .rres o => Sys2Proof.Machine.execRres o s
  | .rpoll o => Sys2Proof.Machine.execRpoll o s
  | .boxu o => Sys2Proof.Machine.execBoxu o s
  | .sah o => Sys2Proof.Machine.execSah o s
  | .npack o => Sys2Proof.Machine.execNpack o s
  | .rast o => Sys2Proof.Machine.execRast o s
  | .atlnext o => Sys2Proof.Machine.execAtlnext o s
  | .atldone o => Sys2Proof.Machine.execAtldone o s
  | .visrd o => Sys2Proof.Machine.execVisrd o s
  | .vrsl o => Sys2Proof.Machine.execVrsl o s
  | .samp o => Sys2Proof.Machine.execSamp o s
  | .grid o => Sys2Proof.Machine.execGrid o s
  | .ungrid o => Sys2Proof.Machine.execUngrid o s
  | .mzero o => Sys2Proof.Machine.execMzero o s
  | .mlda o => Sys2Proof.Machine.execMlda o s
  | .msta o => Sys2Proof.Machine.execMsta o s
  | .mrd o => Sys2Proof.Machine.execMrd o s
  | .mwr o => Sys2Proof.Machine.execMwr o s
  | .mstat o => Sys2Proof.Machine.execMstat o s
  | .mwait o => Sys2Proof.Machine.execMwait o s
  | .macc o => Sys2Proof.Machine.execMacc o s
  | .copy o => Sys2Proof.Machine.execCopy o s
  | .copy2d o => Sys2Proof.Machine.execCopy2d o s
  | .gather o => Sys2Proof.Machine.execGather o s
  | .scatter o => Sys2Proof.Machine.execScatter o s
  | .coll o => Sys2Proof.Machine.execColl o s
  | .waitp o => Sys2Proof.Machine.execWaitp o s
  | .waitt o => Sys2Proof.Machine.execWaitt o s
  | .tlget o => Sys2Proof.Machine.execTlget o s
  | .gres o => Sys2Proof.Machine.execGres o s
  | .binit o => Sys2Proof.Machine.execBinit o s
  | .barv o => Sys2Proof.Machine.execBarv o s
  | .bwait o => Sys2Proof.Machine.execBwait o s
  | .bstat o => Sys2Proof.Machine.execBstat o s
  | .yjoin o => Sys2Proof.Machine.execYjoin o s
  | .yleave o => Sys2Proof.Machine.execYleave o s
  | .qres o => Sys2Proof.Machine.execQres o s
  | .sread o => Sys2Proof.Machine.execSread o s
  | .swrite o => Sys2Proof.Machine.execSwrite o s
  | .trap o => Sys2Proof.Machine.execTrap o s
  | .tret o => Sys2Proof.Machine.execTret o s
  | .region o => Sys2Proof.Machine.execRegion o s
  | .rpc o => Sys2Proof.Machine.execRpc o s
  | .rpcwait o => Sys2Proof.Machine.execRpcwait o s
  | .claim o => Sys2Proof.Machine.execClaim o s
  | .release o => Sys2Proof.Machine.execRelease o s
  | .setperf o => Sys2Proof.Machine.execSetperf o s
  | .node o => Sys2Proof.Machine.execNode o s
  | .emit o => Sys2Proof.Machine.execEmit o s
  | .bkpt o => Sys2Proof.Machine.execBkpt o s
  | .tmark o => Sys2Proof.Machine.execTmark o s
  | .jcadd o => Sys2Proof.Machine.execJcadd o s
  | .halt o => Sys2Proof.Machine.execHalt o s
  | .ext o => Sys2Proof.Machine.execExt o s
  | .loadDataReturn o => Sys2Proof.Machine.execLoadDataReturn o s
  | .storePerformed o => Sys2Proof.Machine.execStorePerformed o s
  | .slcRequest o => Sys2Proof.Machine.execSlcRequest o s
  | .monitorRegistration o => Sys2Proof.Machine.execMonitorRegistration o s
  | .l1Invalidation o => Sys2Proof.Machine.execL1Invalidation o s
  | .fenceComplete o => Sys2Proof.Machine.execFenceComplete o s
  | .waitmonTimeout o => Sys2Proof.Machine.execWaitmonTimeout o s
  | .pageWalkComplete o => Sys2Proof.Machine.execPageWalkComplete o s
  | .faultReply o => Sys2Proof.Machine.execFaultReply o s
  | .parkedReplay o => Sys2Proof.Machine.execParkedReplay o s
  | .translationInvalidation o => Sys2Proof.Machine.execTranslationInvalidation o s
  | .invalidationAck => Sys2Proof.Machine.execInvalidationAck s
  | .hostReadShared o => Sys2Proof.Machine.execHostReadShared o s
  | .hostReadForOwnership o => Sys2Proof.Machine.execHostReadForOwnership o s
  | .hostWrite o => Sys2Proof.Machine.execHostWrite o s
  | .hostAtomic o => Sys2Proof.Machine.execHostAtomic o s
  | .snoopResponse o => Sys2Proof.Machine.execSnoopResponse o s
  | .frameClean o => Sys2Proof.Machine.execFrameClean o s
  | .frameCleanComplete => Sys2Proof.Machine.execFrameCleanComplete s
  | .cmaintComplete o => Sys2Proof.Machine.execCmaintComplete o s
  | .icinvComplete o => Sys2Proof.Machine.execIcinvComplete o s
  | .bankAccess o => Sys2Proof.Machine.execBankAccess o s
  | .perBankRefresh o => Sys2Proof.Machine.execPerBankRefresh o s
  | .bankSegmentRequest o => Sys2Proof.Machine.execBankSegmentRequest o s
  | .segmentWritebackDone o => Sys2Proof.Machine.execSegmentWritebackDone o s
  | .segmentCopyDone o => Sys2Proof.Machine.execSegmentCopyDone o s
  | .engineCommandStart o => Sys2Proof.Machine.execEngineCommandStart o s
  | .engineTransfer o => Sys2Proof.Machine.execEngineTransfer o s
  | .engineCommandComplete o => Sys2Proof.Machine.execEngineCommandComplete o s
  | .yjoinComplete o => Sys2Proof.Machine.execYjoinComplete o s
  | .yleaveComplete o => Sys2Proof.Machine.execYleaveComplete o s
  | .gridTake o => Sys2Proof.Machine.execGridTake o s
  | .ungridComplete o => Sys2Proof.Machine.execUngridComplete o s
  | .tokenGrant => Sys2Proof.Machine.execTokenGrant s
  | .tokenIdleRelease o => Sys2Proof.Machine.execTokenIdleRelease o s
  | .matrixCommandStart o => Sys2Proof.Machine.execMatrixCommandStart o s
  | .mloopStep o => Sys2Proof.Machine.execMloopStep o s
  | .matrixCommandFinish o => Sys2Proof.Machine.execMatrixCommandFinish o s
  | .mxvFinish o => Sys2Proof.Machine.execMxvFinish o s
  | .rboxFinish o => Sys2Proof.Machine.execRboxFinish o s
  | .tploadSlotLoad o => Sys2Proof.Machine.execTploadSlotLoad o s
  | .rayStart o => Sys2Proof.Machine.execRayStart o s
  | .rayMicroOpStep o => Sys2Proof.Machine.execRayMicroOpStep o s
  | .rastCommandStart o => Sys2Proof.Machine.execRastCommandStart o s
  | .rastTriangle o => Sys2Proof.Machine.execRastTriangle o s
  | .requestPassStart o => Sys2Proof.Machine.execRequestPassStart o s
  | .requestPassSample o => Sys2Proof.Machine.execRequestPassSample o s
  | .vrslLatch o => Sys2Proof.Machine.execVrslLatch o s
  | .claimGrant o => Sys2Proof.Machine.execClaimGrant o s
  | .splitRotation o => Sys2Proof.Machine.execSplitRotation o s
  | .splitReload o => Sys2Proof.Machine.execSplitReload o s
  | .teamGranuleReturn o => Sys2Proof.Machine.execTeamGranuleReturn o s
  | .groupEnd o => Sys2Proof.Machine.execGroupEnd o s
  | .spawnWrite o => Sys2Proof.Machine.execSpawnWrite o s
  | .nodeDispatch o => Sys2Proof.Machine.execNodeDispatch o s
  | .tileStaging o => Sys2Proof.Machine.execTileStaging o s
  | .groupPlacement o => Sys2Proof.Machine.execGroupPlacement o s
  | .nodeComplete o => Sys2Proof.Machine.execNodeComplete o s
  | .levelMove o => Sys2Proof.Machine.execLevelMove o s
  | .levelMoveComplete o => Sys2Proof.Machine.execLevelMoveComplete o s
  | .droopTrigger o => Sys2Proof.Machine.execDroopTrigger o s
  | .droopStretchEnd o => Sys2Proof.Machine.execDroopStretchEnd o s
  | .droopHalvingEnd o => Sys2Proof.Machine.execDroopHalvingEnd o s
  | .bayPowerGate o => Sys2Proof.Machine.execBayPowerGate o s
  | .bayWakeComplete o => Sys2Proof.Machine.execBayWakeComplete o s
  | .corePowerGate o => Sys2Proof.Machine.execCorePowerGate o s
  | .coreWakeComplete o => Sys2Proof.Machine.execCoreWakeComplete o s
  | .skinTemperatureInterval o => Sys2Proof.Machine.execSkinTemperatureInterval o s
  | .governorEstimate o => Sys2Proof.Machine.execGovernorEstimate o s
  | .rtimerExpiry o => Sys2Proof.Machine.execRtimerExpiry o s
  | .wallDeadlineExpiry o => Sys2Proof.Machine.execWallDeadlineExpiry o s
  | .asyncTrapEntry o => Sys2Proof.Machine.execAsyncTrapEntry o s
  | .poisonedRegisterRead o => Sys2Proof.Machine.execPoisonedRegisterRead o s
  | .teamStop o => Sys2Proof.Machine.execTeamStop o s
  | .teamRestore o => Sys2Proof.Machine.execTeamRestore o s
  | .groupEviction o => Sys2Proof.Machine.execGroupEviction o s
  | .groupRestore o => Sys2Proof.Machine.execGroupRestore o s
  | .partitionHalt o => Sys2Proof.Machine.execPartitionHalt o s
  | .partitionSwap o => Sys2Proof.Machine.execPartitionSwap o s
  | .ctxCreate o => Sys2Proof.Machine.execCtxCreate o s
  | .ctxSet o => Sys2Proof.Machine.execCtxSet o s
  | .ctxDestroy o => Sys2Proof.Machine.execCtxDestroy o s
  | .rpcReply o => Sys2Proof.Machine.execRpcReply o s
  | .coreRetirement o => Sys2Proof.Machine.execCoreRetirement o s
  | .powerOnReset o => Sys2Proof.Machine.execPowerOnReset o s
  | .memoryTrainingComplete o => Sys2Proof.Machine.execMemoryTrainingComplete o s
  | .fwgo o => Sys2Proof.Machine.execFwgo o s
  | .firmwareVerification => Sys2Proof.Machine.execFirmwareVerification s
  | .corePowerUp o => Sys2Proof.Machine.execCorePowerUp o s
  | .getMeasurements o => Sys2Proof.Machine.execGetMeasurements o s
  | .ideKmKeySet o => Sys2Proof.Machine.execIdeKmKeySet o s
  | .lockInterfaceRequest o => Sys2Proof.Machine.execLockInterfaceRequest o s
  | .getDeviceInterfaceReport o => Sys2Proof.Machine.execGetDeviceInterfaceReport o s
  | .startInterfaceRequest o => Sys2Proof.Machine.execStartInterfaceRequest o s
  | .stopInterfaceRequest o => Sys2Proof.Machine.execStopInterfaceRequest o s
  | .frozenConfigurationWrite o => Sys2Proof.Machine.execFrozenConfigurationWrite o s
  | .ideIntegrityFailure o => Sys2Proof.Machine.execIdeIntegrityFailure o s
  | .stopreqSet => Sys2Proof.Machine.execStopreqSet s
  | .stopreqClear => Sys2Proof.Machine.execStopreqClear s
  | .haltdbgClear => Sys2Proof.Machine.execHaltdbgClear s
  | .dropsClear o => Sys2Proof.Machine.execDropsClear o s
  | .registerWrite o => Sys2Proof.Machine.execRegisterWrite o s
  | .chargeWindowAging o => Sys2Proof.Machine.execChargeWindowAging o s
  | .idleBayCycle o => Sys2Proof.Machine.execIdleBayCycle o s

end Sys2Proof.Machine
end

