-- ==== Sys2Proof/Machine/Fetch.lean ====
section
/-!
DEFINITION. From a split's PC to the instruction it issues: fetch (R92), prefixed pairs (R39), words that name no
instruction (R45).
-/
namespace Sys2Proof.Machine

/-- What stands at a split's PC: an instruction to run, or the state in which the fetch leaves the machine. -/
inductive Fetched where
  | stop (s : State)
  | run (i : Instr) (s : State)

/-- R92: a fetch that gives no word. -/
def State.fetchFails (s : State) (c : Ctx) (va : Nat) (r : FetchR) : State :=
  match r with
  | .notPresent => s.parkSplit c .fetch (va % 2 ^ 48 / 64 * 64) 0 false
  | .trap code detail => s.gateTrap c code detail c.sp.exec
  | .dead code => s.groupPath c.grp.id code 0 true true
  | _ => s

/-- R45: the word names no instruction; the landing check (R305) and breakpoints (R400) come first. -/
def State.badWord (s : State) (c : Ctx) (w : Word) (e : DecodeError) : State :=
  if c.sp.landCheck then s.gateTrap c 144 2 c.sp.own
  else
    match s.breakpoint c with
    | some n => s.gateTrap c 159 n c.act
    | none => s.gateTrap c e.code ((wOp w).toNat + 256 * wordFunction w) c.act

/-- R39: the word is EXT, so another belongs to it. -/
def isExt0 (w : Word) : Bool := decide (wOp w = 0x7F)

/-- The line of an instruction cache that holds the code at a virtual address. -/
def State.codeAt (s : State) (core asid va : Nat) : Option ILine :=
  (s.core? core).bind fun c => c.icache.find? fun x => decide (x.asid = asid) && decide (x.line = va % 2 ^ 48 / 64)

/-- R39, R92, R97: the words of the instruction at a virtual address, from the team's loop buffer, else fetched, and then
they enter the loop buffer, which holds 64 instructions. -/
def State.fetchPair (s : State) (t : Team) (asid va : Nat) : State × Except FetchR (Word × Option Word) :=
  let keep (s : State) (w0 : Word) (w1 : Option Word) : State :=
    let from' := (s.codeAt t.core asid va).toList ++ (if w1.isSome then (s.codeAt t.core asid (va + 4)).toList else [])
    let ent : LoopEnt := { asid := asid, va := va % 2 ^ 48, w0 := w0, w1 := w1, glob := from'.any (·.glob), lines := from'.map (·.pline) }
    s.modTeam t.id fun t => { t with loop := (ent :: t.loop).take 64 }
  match t.loop.find? fun l => decide (l.asid = asid) && decide (l.va = va % 2 ^ 48) with
  | some l => (s, if l.bad then .error (.dead 343) else .ok (l.w0, l.w1))
  | none =>
    match s.fetch t.core asid va with
    | (s, .ok w0) =>
      if isExt0 w0 then
        (match s.fetch t.core asid (va + 4) with
          | (s, .ok w1) => (keep s w0 (some w1), .ok (w0, some w1))
          | (s, r) => (s, .error r))
      else (keep s w0 none, .ok (w0, none))
    | (s, r) => (s, .error r)

/-- R39, R92: fetch and decode at the PC of a split; nothing where the split may not issue. A second word that the fetch
does not give parks or traps at the EXT word's address, also where the EXT has M set (log 10). -/
def State.fetchNext (s : State) (tid uid : Nat) : Fetched :=
  match s.team? tid with
  | none => .stop s
  | some t =>
    match t.split? uid, s.group? t.group with
    | some p, some g =>
      if !(s.issuable t p) then .stop s
      else
        let c := mkCtx (.nop ⟨false⟩) t p g s.nonce
        let va := g.codeBase + p.pc.toNat
        match s.fetchPair t g.asid va with
        | (s, .ok (w0, w1)) =>
          (match decode w0 (w1.getD 0) with
            | .ok (i, _) => .run i { s with cur := some (tid, uid) }
            | .error e => .stop (s.badWord c (w1.getD w0) e))
        | (s, .error r) => .stop (s.fetchFails c va r)
    | _, _ => .stop s

end Sys2Proof.Machine
end

