-- ==== Sys2Proof/Machine/Turns.lean ====
section
/-!
DEFINITION. What happens next: the meaning of each turn of the agents' order, the order the device takes when none is
given (R295, R331), and how a word is placed where the next step fetches it.
-/
namespace Sys2Proof.Machine

/-- Something the device may do. -/
abbrev Act := State → Host.Outcome State Fault Refusal

/-- It leads to another state, or stops. -/
def State.actsIn (s : State) (a : Act) : Bool :=
  match a s with
  | .next s' => decide (s' ≠ s)
  | _ => true

/-! ### What comes before the next issue or cycle of a core -/

/-- Rotations that are due (R297, R298), deadlines that TIME has passed (R48, R334), traps that wait for an instruction boundary
(R352), tokens that a grid has kept idle long enough (R228), the head CLAIM of a quad, whose deadlock is found in the first cycle
in which it stands (R313, R314), bays that have been idle long enough (R344), and tokens that cover the need of the head of their
queue (R341). -/
def State.dueActs (s : State) (core : Nat) : List Act :=
  ((s.teams.filter fun t => decide (t.core = core)).flatMap fun t =>
    (if t.rotDue = 0 then [] else [execSplitRotation ⟨t.id⟩]) ++
    (if t.wdl = 0 ∨ s.time < t.wdl then [] else [execWallDeadlineExpiry ⟨t.id⟩]) ++
    (if t.async = [] then [] else [execAsyncTrapEntry ⟨t.id⟩]) ++
    (if t.grid.any fun g => decide (g.tokens ≠ 0 ∧ 1024 ≤ g.idle) then [execTokenIdleRelease ⟨t.id⟩] else [])) ++
  ((List.range 4).flatMap fun q => if (s.quadOf core q).claims = [] then [] else [execClaimGrant ⟨core, q⟩]) ++
  (match s.core? core with
    | some k => k.bays.flatMap fun b => if 1024 ≤ b.2.idle then [execBayPowerGate ⟨core, b.1⟩] else []
    | none => []) ++
  (if s.gov.queue = [] then [] else [execTokenGrant])
def State.due (s : State) (core : Nat) : Option Act := (s.dueActs core).find? s.actsIn

/-! ### Issue selection (R295, R331, R332) -/

/-- A lexicographic order. -/
def lexLt : List Nat → List Nat → Bool
  | [], [] => false
  | [], _ :: _ => true
  | _ :: _, [] => false
  | a :: as, b :: bs => decide (a < b) || (decide (a = b) && lexLt as bs)

/-- R331 rule 3: the weight of an instruction times the active lanes of its first pass on a bay of the home quad. -/
def passProduct (i : Instr) (t : Team) (p : Split) (nonce bay : Nat) : Nat :=
  let w := match (passesOf i p.exec t.size).find? fun q => decide (q.1 = bay % 4) with | some q => q.2 | none => 0
  weightOf i * popcount 32 ((p.exec &&& guardOf t p nonce p.uid).toNat / 2 ^ (32 * w))

/-- R331: what a selection compares, less is first: floor, class, power pairing, age. -/
def State.rank (s : State) (bay : Nat) (t : Team) (p : Split) (product : Nat) : List Nat :=
  let lost := sget 0 p.lost bay
  let cls := match s.group? t.group with | some g => g.cls | none => 4
  let hot := match s.core? t.core with | some k => decide (k.threshold < k.chargeSum) | none => false
  if 1023 ≤ lost then [0, 2 ^ 64 - lost, p.slot, t.placedAt, t.id]
  else [1, cls, if hot then product else 0, t.placedAt, t.id, if p.first then 0 else 1, p.age]

/-- An instruction issues: it has an effect, beyond the count of issues. -/
def State.execActs (s : State) (i : Instr) : Bool :=
  match exec i s with
  | .next t => decide ({ t with nonce := s.nonce } ≠ s)
  | _ => true

/-- R47, R169, R337, R352: the splits of a team that issue in one cycle of the core issue in the order of their slots: one that could
issue only after a higher slot has done so issues in the next cycle. -/
def Team.late (t : Team) (p : Split) : Bool := match t.lastSlot with | some k => decide (p.slot < k) | none => false

/-- R212: a gridded quad holds the pass. -/
def State.heldPass (s : State) (core : Nat) (q : Pass) : Bool := q.vec && (s.gridder core (q.bay / 4)).isSome

/-- R331: the split's pass for a bay, where it is a candidate: its weight times its active lanes. -/
def State.passFor (s : State) (t : Team) (p : Split) (bay : Nat) : Option Nat :=
  match (s.core? t.core).bind fun k => k.passes.find? fun (q : Pass) => decide (q.team = t.id ∧ q.split = p.uid ∧ q.bay = bay) with
  | some q => if q.sync || s.heldPass t.core q then none else some q.charge
  | none =>
    if p.st ≠ .ready ∨ s.issuable t p = false ∨ t.late p = true then none
    else match s.fetchNext t.id p.uid with
      | .stop _ => none
      | .run i u =>
        if ((passesOf i p.exec t.size).any fun q => decide (4 * t.quad + q.1 = bay)) && u.execActs i then some (passProduct i t p s.nonce bay)
        else none

/-- The splits of the teams homed on a bay's quad. -/
def State.splitsAt (s : State) (core bay : Nat) : List (Team × Split) :=
  (s.teams.filter fun t => decide (t.core = core ∧ t.quad = bay / 4 ∧ t.residence = .resident)).flatMap fun t =>
    (t.splits ++ t.handler.toList).map fun p => (t, p)
/-- R331: the candidates of a bay. -/
def State.candidates (s : State) (core bay : Nat) : List (Team × Split × Nat) :=
  (s.splitsAt core bay).filterMap fun q => (s.passFor q.1 q.2 bay).map fun n => (q.1, q.2, n)
/-- R331: the candidates of a bay beside one split. -/
def State.rivals (s : State) (core bay : Nat) (who : Nat × Nat) : List (Team × Split × Nat) :=
  ((s.splitsAt core bay).filter fun q => decide ((q.1.id, q.2.uid) ≠ who)).filterMap fun q => (s.passFor q.1 q.2 bay).map fun n => (q.1, q.2, n)
/-- R331: no rival comes before the split on the bay. -/
def State.wins (s : State) (bay : Nat) (t : Team) (p : Split) (product : Nat) : Bool :=
  (s.rivals t.core bay (t.id, p.uid)).all fun q => lexLt (s.rank bay t p product) (s.rank bay q.1 q.2.1 q.2.2)

/-- R331: who loses an opportunity of a bay counts it; the others of the quad begin again. -/
def State.tally (s : State) (core bay : Nat) (losers : List (Nat × Nat)) : State :=
  let count (tid : Nat) (p : Split) : Split :=
    { p with lost := sset 0 p.lost bay (if losers.contains (tid, p.uid) then sget 0 p.lost bay + 1 else 0) }
  let all (t : Team) : Team := { t with splits := t.splits.map (count t.id), handler := t.handler.map (count t.id) }
  { s with teams := s.teams.map fun t => if t.core = core ∧ t.quad = bay / 4 then all t else t }

/-- The passes that a split has on some bays issue; `before` is the state that the selection looked at. -/
def State.passOn (s before : State) (core : Nat) (who : Nat × Nat) (bays : List Nat) : State :=
  bays.foldl (fun (s : State) b =>
    match (s.core? core).bind fun k => k.passes.find? fun (q : Pass) => decide ((q.team, q.split) = who ∧ q.bay = b) with
    | some q => (s.modCore core fun k => k.issuePass s.dbg.lcren q).tally core b ((before.rivals core b who).map fun r => (r.1.id, r.2.1.uid))
    | none => s) s

/-- R331: the bays on which the split's instruction is the one that is chosen now. -/
def State.wonBays (s : State) (i : Instr) (t : Team) (p : Split) : List Nat :=
  match s.core? t.core with
  | none => []
  | some k => (((passesOf i p.exec t.size).map fun q => 4 * t.quad + q.1).eraseDups).filter fun b =>
      k.openBay b && s.wins b t p (passProduct i t p s.nonce b)

/-! ### The turns -/

/-- The team enters its handler. -/
def Team.trapsIn (t : Team) (u : State) : Bool := decide ((u.team? t.id).bind (·.handler) ≠ t.handler)

/-- The split fetches, decodes and issues its next instruction, on the bays where it is chosen. One that waits BLOCKED issued
before, and is tried again. -/
def State.issueOne (s : State) (t : Team) (p : Split) : Host.Outcome State Fault Refusal :=
  match s.fetchNext t.id p.uid with
  | .stop u => .next (if t.late p && t.trapsIn u then s else u)
  | .run i u =>
    if p.st = .blocked then exec i u
    else
      let won := s.wonBays i t p
      -- where no bay of it may issue, a bay is woken (R344)
      if t.late p || (decide (won = []) && (s.core? t.core).any fun k => (passesOf i p.exec t.size).any fun q => k.openBay (4 * t.quad + q.1)) then .next s
      else match exec i u with
        | .next v => .next (v.passOn s t.core (t.id, p.uid) won)
        | r => r

/-- R331, R352: the split issues now, or its fetch traps now. -/
def State.goesNow (s : State) (t : Team) (p : Split) : Bool :=
  decide (p.st = .ready) && !(t.late p) &&
  (match s.fetchNext t.id p.uid with
    | .stop u => t.trapsIn u
    | .run i u => decide (s.wonBays i t p ≠ []) && u.execActs i)

/-- R47, R169, R337, R352: the split of the lowest slot below that of a split that issues in this cycle too. -/
def State.firstOf (s : State) (t : Team) (p : Split) : Option Split :=
  match t.splits.filter fun q => decide (q.slot < p.slot) with
  | [] => none
  | lows => if s.goesNow t p then (List.range 8).findSome? fun k => lows.find? fun q => decide (q.slot = k) && s.goesNow t q else none

/-- A split's turn: of the splits of its team that issue in this cycle the lowest slot goes first. -/
def State.issueTurn (s : State) (tid uid : Nat) : Host.Outcome State Fault Refusal :=
  match s.team? tid with
  | none => .next s
  | some t =>
    match s.due t.core, t.split? uid with
    | some a, _ => a s
    | none, none => .next s
    | none, some p => s.issueOne t ((s.firstOf t p).getD p)

/-- R331: a bay issues the pass of an instruction that has begun, where it is the one that is chosen. -/
def State.passTurn (s : State) (core bay : Nat) : State :=
  match (s.core? core).map fun k => k.openBay bay with
  | some true =>
    (match (s.splitsAt core bay).find? fun q => match (s.core? core).bind fun k => k.passes.find? fun (x : Pass) =>
          decide (x.team = q.1.id ∧ x.split = q.2.uid ∧ x.bay = bay) with
        | some x => !x.sync && !(s.heldPass core x) && s.wins bay q.1 q.2 x.charge
        | none => false with
      | some q => s.passOn s core (q.1.id, q.2.uid) [bay]
      | none => s)
  | _ => s

/-- R331: no bay of the core that may issue has a candidate, so its cycle ends. -/
def State.mayCycle (s : State) (core : Nat) : Bool :=
  match s.core? core with
  | some k => s.coreOn core && (List.range 16).all fun b => !(k.openBay b) || (s.candidates core b).isEmpty
  | none => false
/-- A core goes on to its next cycle. -/
def State.cycleTurn (s : State) (core : Nat) : Host.Outcome State Fault Refusal :=
  match s.due core with
  | some a => a s
  | none => .next (if s.mayCycle core then s.cycleOn core else s)
/-- Nothing is due and no bay is needed in some cycles of a core. -/
def State.freeFor (s : State) (core : Nat) : Nat → Bool
  | 0 => true
  | n + 1 => (s.due core).isNone && s.mayCycle core && (s.cycleOn core).freeFor core n

/-- The cycles that an event lets pass. -/
def State.cyclesOf (s : State) (i : Instr) : Option (Nat × Nat) :=
  let droop (c : Nat) (stretch : Bool) : Nat := match (s.core? c).map Core.droop with
    | some (.stretched k) => if stretch then k else 0
    | some (.halved k) => if stretch then 0 else k
    | _ => 0
  match i with
  | .rtimerExpiry e => (s.team? e.team).map fun t => (t.core, t.rtimer.toNat)
  | .splitReload e => (s.team? e.team).map fun t =>
      (t.core, match (t.splits.map (·.reload)).filter fun n => decide (n ≠ 0) with | [] => 0 | n :: ns => ns.foldl min n)
  | .chargeWindowAging e => some (e.core, 1)
  | .idleBayCycle e => some (e.core, 1)
  | .droopStretchEnd e => some (e.core, droop e.core true)
  | .droopHalvingEnd e => some (e.core, droop e.core false)
  | .bayWakeComplete e => (s.core? e.core).map fun k =>
      (e.core, ((List.range 4).findSome? fun b => match (sget {} k.bays (4 * e.quad + b)).gate with | .waking n => some n | _ => none).getD 0)
  | _ => none

/-- An event of the device, the host or the platform happens; an instruction happens only by issuing, and cycles pass only as
R331 lets them. -/
def State.eventTurn (s : State) (i : Instr) : Host.Outcome State Fault Refusal :=
  if !(encode i).isEmpty then .next s
  else match s.cyclesOf i with
    | some (core, n) => if s.freeFor core n then exec i s else .next s
    | none => exec i s

/-- R318: the access a JCADD keeps in flight is performed with its add. -/
def State.jcDone (s : State) (i : Nat) : State :=
  let s := { s with jcAdds := s.jcAdds.filter fun a => a.id ≠ i }
  let s := s.modFlight i fun f => { f with returned := true, reqs := f.reqs.map fun r => { r with st := .done } }
  { s with flights := popReturned s.flights [] }

/-- R318, R319: a queued add to a join counter is performed at the SLC, after the adds queued before it to the same
counter and, for a JCADD, after its team's earlier accesses. -/
def State.joinAddTurn (s : State) (i : Nat) : State :=
  match s.jcAdds.find? fun a => decide (a.id = i) with
  | none => s
  | some a =>
    let before := s.jcAdds.any fun b => decide (b.id < i) && decide (b.asid = a.asid) && decide (b.addr = a.addr)
    let early := match s.flight? i with
      | some f => !(s.flights.all fun e => decide (e.team ≠ f.team) || decide (i ≤ e.id) || e.performed)
      | none => false
    if a.parked || before || early then s
    else if a.addr % 8 ≠ 0 then (s.jcDone i).send (.jcaError a.asid)
    else
      match s.lineOf none a.asid a.addr { r := true, w := true } with
      | (s, .busy) => s
      | (s, .absent) =>
        { s with jcAdds := s.jcAdds.map fun (b : JcAdd) => if b.id = i then { b with parked := true } else b }.reportFault
          ⟨.joinAdd i, a.asid, a.addr / 64 * 64, 1, true, 0xFFFFFFFF⟩
      | (s, .ok _ line pte) =>
        (match s.slcAsk line [a.addr / 16 % 4] true none (.join i) with
          | (s, false) => s
          | (s, true) =>
            -- a counter whose sector is poisoned takes no add (log 28)
            if s.isPoisoned .glob (line * 64 + a.addr % 64) 8 then (s.jcDone i).send (.jcaError a.asid)
            else match s.pteOr pte 11 (.join i) with
            | (s, false) => s
            | (s, true) =>
              let s := s.markDirty pte
              let old := s.rd .glob (line * 64 + a.addr % 64) 8
              (s.placeWr (.slc none) line (a.addr % 64) 8 ((old + a.value) % 2 ^ 64) .device).jcDone i)
      | (s, _) => (s.jcDone i).send (.jcaError a.asid)

/-- Platform time passes (R48, R345). -/
def State.timeTurn (s : State) (ns : Nat) : State :=
  { s with
    time := s.time + ns
    cores := s.cores.map fun c => if c.power = .on ∧ s.groupsOn c.id = [] then { c with idleNs := c.idleNs + ns } else c }

/-- R97: a cache replaces a line; what is dirty is written back first. -/
def State.evictLineTurn (s : State) (core : Option Nat) (line : Nat) : State :=
  match core with
  | some c => (match s.cleanL1 c line with
    | (s, true) => s.dropL1 c line
    | (s, false) => s)
  | none => match s.cleanL2 line with
    | (s, true) => s.dropL2 line
    | (s, false) => s

/-- R88: a TLB replaces an entry. -/
def State.evictTlbTurn (s : State) (core : Option Nat) (asid vpn : Nat) : State :=
  let keep (e : TlbEntry) : Bool := !(decide (e.asid = asid) && decide (e.vpn = vpn))
  match core with
  | some c => s.modCore c fun k => { k with tlb := k.tlb.filter keep }
  | none => { s with l2Tlb := s.l2Tlb.filter keep }

/-- R97, R102: an instruction cache replaces a line. -/
def State.evictCodeTurn (s : State) (core asid line : Nat) : State :=
  s.modCore core fun k => { k with icache := k.icache.filter fun x => !(decide (x.asid = asid) && decide (x.line = line)) }

/-- R97: a loop buffer drops an instruction. -/
def State.evictLoopTurn (s : State) (tid va : Nat) : State :=
  s.modTeam tid fun t => { t with loop := t.loop.filter fun l => l.va ≠ va }

/-- R71: a sector read with an uncorrectable error is kept poisoned. -/
def State.poisonTurn (s : State) (sp : Space) (sector : Nat) : State :=
  if s.poisoned.contains (sp, sector) then s else { s with poisoned := s.poisoned ++ [(sp, sector)] }

/-- R97: sector k of a line is poisoned where the cache holds it. -/
def CacheLine.spoil (line k : Nat) (x : CacheLine) : CacheLine :=
  if x.line = line ∧ x.has k = true then { x with poison := x.poison ||| BitVec.ofNat 4 (2 ^ k) } else x

/-- R395: a corrected error of a core's SRAM arrays, with those that still count. -/
def State.sramError (s : State) (core : Nat) : State :=
  s.modCore core fun k => { k with sramErrors := (k.sramErrors.filter fun t => decide (s.time < t + s.gov.sramSpan)) ++ [s.time] }

/-- R71, R97, R229, R230, R370, R395: an error is found; a corrected one is counted, and a command remembers it for CE. -/
def State.errorTurn (s : State) (e : HwError) : State :=
  match e with
  | .channel ch => if ch < 48 then { s with chErrors := sset 0 s.chErrors ch (sget 0 s.chErrors ch + 1) } else s
  | .sram core => s.sramError core
  | .selfTest core => s.modCore core fun k => { k with failed := true }
  | .command gid sel n =>
    (match s.group? gid with
      | some g => s.sramError g.core
      | none => s).modGroup gid fun g =>
        { g with engs := g.engs.map fun (e : Nat × EngCtx) => if e.1 = sel then (e.1, e.2.modCmd n fun (c : EngCmd) => if c.st = CmdSt.started then { c with ce := true } else c) else e }
  | .cell gid sel n =>
    (match (s.group? gid).bind fun g => (g.eng sel).cmd? n with
      | some cmd => if selEngine sel = 2 ∧ cmd.st = .started then s.matFail gid sel cmd 6 none else s
      | none => s)
  | .control gid => s.groupPath gid 338 0 true true
  | .cache none line k => { s with l2 := s.l2.map (CacheLine.spoil line k) }
  | .cache (some c) line k => s.modCore c fun q => { q with l1 := q.l1.map (CacheLine.spoil line k) }
  | .loop tid va => s.modTeam tid fun t => { t with loop := t.loop.map fun l => if l.va = va then { l with bad := true } else l }
  -- the controller repeats the transfer up to three times
  | .link sector repeats => if repeats ≤ 3 then s else s.poisonTurn .glob sector
  | .code c asid line k =>
    s.modCore c fun q => { q with icache := q.icache.map fun x =>
      if x.asid = asid ∧ x.line = line then { x with bad := x.bad ||| BitVec.ofNat 4 (2 ^ k) } else x }

/-- The meaning of a turn. -/
def State.turn (s : State) (t : Turn) : Host.Outcome State Fault Refusal :=
  match t with
  | .issue tid uid => s.issueTurn tid uid
  | .event i => s.eventTurn i
  | .settle tid uid => .next (s.modTeam tid fun t => if t.owes uid then t else t.settle uid)
  | .joinAdd i => .next (s.joinAddTurn i)
  | .ring i => .next (s.ringTurn i)
  | .pass core bay => .next (s.passTurn core bay)
  | .cycle core => s.cycleTurn core
  | .engineRead gid sel n lv a => .next (s.engineReadTurn gid sel n lv a)
  | .nodeRead gid n lane part => .next (s.nodeReadTurn gid n lane part)
  | .recordPart gid n lane part => .next (s.recordPartTurn gid n lane part)
  | .splitRead tid uid lv a => .next (s.splitReadTurn tid uid lv a)
  | .time ns => .next (s.timeTurn ns)
  | .evictLine core line => .next (s.evictLineTurn core line)
  | .evictTlb core asid vpn => .next (s.evictTlbTurn core asid vpn)
  | .evictCode core asid line => .next (s.evictCodeTurn core asid line)
  | .evictLoop tid va => .next (s.evictLoopTurn tid va)
  | .evictSlc line => .next (s.slcEvict line).1
  | .host i => .next (s.hostTurn i)
  | .see f line => .next (s.seeTurn f line)
  | .poison sp sector => .next (s.poisonTurn sp sector)
  | .error e => .next (s.errorTurn e)

/-! ### The order when none is given -/

/-- What may happen to an access in flight. -/
def Flight.acts (f : Flight) : List Act :=
  match f.kind with
  | .arm => [execMonitorRegistration ⟨f.id⟩]
  | .cmaint .. => [execCmaintComplete ⟨f.id⟩]
  | .jcadd _ => []
  | k => if k.isLoad then [execLoadDataReturn ⟨f.id⟩] else [execStorePerformed ⟨f.id⟩]

/-- What may happen to a team and its splits. -/
def Team.acts (t : Team) : List Act :=
  ((t.live ++ t.handler.toList).flatMap fun (p : Split) =>
    [execFenceComplete ⟨t.id, p.uid⟩, execIcinvComplete ⟨t.id, p.uid⟩, execWaitmonTimeout ⟨t.id, p.uid⟩,
      execParkedReplay ⟨t.id, p.uid⟩, execMxvFinish ⟨t.id, p.uid⟩, execRboxFinish ⟨t.id, p.uid⟩]) ++
  [execWallDeadlineExpiry ⟨t.id⟩, execAsyncTrapEntry ⟨t.id⟩, execGridTake ⟨t.id⟩, execUngridComplete ⟨t.id⟩,
    execTokenIdleRelease ⟨t.id⟩, execSplitRotation ⟨t.id⟩, execTeamGranuleReturn ⟨t.id⟩,
    execTeamStop ⟨t.id, .level⟩, execTeamStop ⟨t.id, .partition⟩, execTeamStop ⟨t.id, .debug⟩, execTeamStop ⟨t.id, .evict⟩,
    execTeamRestore ⟨t.id⟩]

/-- What may happen to an engine context. -/
def engActs (gid : Nat) (e : Nat × EngCtx) : List Act :=
  [execEngineCommandStart ⟨gid, e.1⟩, execMatrixCommandStart ⟨gid, e.1⟩] ++
  e.2.cmds.flatMap fun (c : EngCmd) =>
    [execEngineTransfer ⟨gid, e.1, c.n⟩, execMloopStep ⟨gid, e.1, c.n⟩, execMatrixCommandFinish ⟨gid, e.1, c.n⟩,
      execEngineCommandComplete ⟨gid, e.1, c.n⟩]

/-- What may happen to a group and its engines. -/
def Group.acts (g : Group) : List Act :=
  (g.engs.flatMap fun e => engActs g.id e) ++
  [execTploadSlotLoad ⟨g.id⟩, execRayStart ⟨g.id⟩] ++
  (g.rays.map fun (r : Ray) => execRayMicroOpStep ⟨g.id, r.n, r.lane⟩) ++
  [execRastCommandStart ⟨g.id⟩, execRastTriangle ⟨g.id⟩, execRequestPassStart ⟨g.id⟩, execRequestPassSample ⟨g.id⟩,
    execVrslLatch ⟨g.id⟩, execYleaveComplete ⟨g.id⟩, execGroupEnd ⟨g.id⟩, execGroupEviction ⟨g.id⟩] ++
  (List.range 16).map fun c => execGroupRestore ⟨g.id, c⟩

/-- What needs nothing from outside the device, in a fixed order. -/
def State.acts (s : State) : List Act :=
  (s.l1Invs.map fun q => execL1Invalidation ⟨q.1, q.2⟩) ++
  (s.flights.flatMap Flight.acts) ++
  (s.jcAdds.map fun (a : JcAdd) (s : State) => .next (s.joinAddTurn a.id)) ++
  (s.hostQ.map fun (q : Nat × HostReq) (s : State) => .next (s.hostTurn q.1)) ++
  (s.dbg.ringQ.map fun (q : Nat × (Nat × Nat) × List Nat) (s : State) => .next (s.ringTurn q.1)) ++
  (s.teams.flatMap Team.acts) ++
  (s.groups.flatMap Group.acts) ++
  (s.banks.flatMap fun b => (if b.2.refreshDue then [execPerBankRefresh ⟨b.1⟩] else []) ++ [execBankSegmentRequest ⟨b.1⟩, execSegmentWritebackDone ⟨b.1⟩, execSegmentCopyDone ⟨b.1⟩]) ++
  (s.yards.map fun y => execYjoinComplete ⟨y.asid, y.key⟩) ++
  (s.nodes.flatMap fun n => [execNodeDispatch ⟨n.id⟩, execTileStaging ⟨n.id⟩, execGroupPlacement ⟨n.id⟩, execNodeComplete ⟨n.id⟩]) ++
  (s.cores.flatMap fun c =>
    (List.range 4).map (fun q => execClaimGrant ⟨c.id, q⟩) ++
    [execLevelMove ⟨c.id⟩, execLevelMoveComplete ⟨c.id⟩, execCoreWakeComplete ⟨c.id⟩] ++
    (if s.unfit c.id then [execCoreRetirement ⟨c.id⟩] else [])) ++
  [execFirmwareVerification, execCorePowerUp ⟨s.boot.nextCore⟩, execInvalidationAck, execFrameCleanComplete]

/-- What a split that may issue does without a bay: it fetches, and one that waits BLOCKED is tried again. -/
def State.fetchActs (s : State) : List Act :=
  s.teams.flatMap fun t => (t.splits ++ t.handler.toList).filterMap fun p =>
    if !(s.issuable t p) then none
    else if p.st = .blocked then some fun s => s.issueTurn t.id p.uid
    else match s.fetchNext t.id p.uid with
      | .stop _ => some fun s => s.issueTurn t.id p.uid
      | .run _ _ => none

/-- R331: what a bay does: the candidate that is chosen issues its pass. -/
def State.selectOn (s : State) (core bay : Nat) : Option Act :=
  match s.candidates core bay with
  | [] => none
  | c :: cs =>
    let best := cs.foldl (fun (a : Team × Split × Nat) x =>
      if lexLt (s.rank bay x.1 x.2.1 x.2.2) (s.rank bay a.1 a.2.1 a.2.2) then x else a) c
    let begun := match s.core? core with
      | some k => k.passes.any fun (q : Pass) => decide (q.team = best.1.id ∧ q.split = best.2.1.uid)
      | none => false
    some (if begun then fun s => .next (s.passTurn core bay) else fun s => s.issueTurn best.1.id best.2.1.uid)

/-- The first open bay that has a candidate issues; the bays that are looked at first change as time passes. -/
def State.selectIssue (s : State) : Option Act :=
  let homes := (s.teams.map fun t => (t.core, t.quad)).eraseDups
  let bays := (homes.flatMap fun q => (List.range 4).map fun b => (q.1, 4 * q.2 + b)).filter fun b =>
    match s.core? b.1 with | some k => k.openBay b.2 | none => false
  let k := s.time / 2 % (bays.length + 1)
  (bays.drop k ++ bays.take k).findSome? fun b => s.selectOn b.1 b.2

/-- The cores that may go on to their next cycle do. -/
def State.cyclesTurn (s : State) : State :=
  s.cores.foldl (fun s c => match s.cycleTurn c.id with | .next t => t | _ => s) s

/-- With no order given: events, issues and cycles alternate, one a nanosecond. -/
def State.defaultTurn (s : State) : Host.Outcome State Fault Refusal :=
  let event := (s.acts ++ s.fetchActs).find? s.actsIn
  let choice := match s.time % 3 with
    | 0 => event.orElse fun _ => s.selectIssue
    | 1 => s.selectIssue.orElse fun _ => event
    | _ => none
  let s := s.timeTurn 1
  match choice with
  | some a => a s
  | none => .next s.cyclesTurn

/-! ### Placing a word (log 9) -/

/-- The page tables, the group and the team of State.withFetchWord: code at virtual and physical address 0x100000, tables
at 0x10000 to 0x13000, one team of 32 lanes and 8 granules on core 0. -/
def fetchTables : List (Nat × Byte) :=
  cellsOf 0x10000 8 0x11001 ++ cellsOf 0x11000 8 0x12001 ++ cellsOf (0x12000 + 8 * 0) 8 0x13001 ++
  cellsOf (0x13000 + 8 * 0x100) 8 (0x100001 + 0x1E)
def fetchSplit : Split := { uid := 3, own := 0xFFFFFFFF, exec := 0xFFFFFFFF }
def fetchTeam : Team :=
  { id := 2, group := 1, gran := 8, present := 0xFFFFFFFF, splits := [fetchSplit] }
def fetchGroup : Group := { id := 1, node := 0, asid := 0, codeBase := 0x100000 }

/-- The instruction's bits stand where the next step fetches. -/
def State.placeFetch (s : State) (bits : Nat) : State :=
  let on (c : Core) : Core := if c.id = 0 then { c with power := .on, moving := none } else c
  { s with
    boot := { s.boot with state := 4, nextCore := 16 }
    mem := ssets 0 s.mem (fetchTables ++ cellsOf 0x100000 8 bits)
    ctxs := [{ asid := 0, root := 0x10000, mask := 0xFFFF, defaultReq := 0, ceiling := 7, loftBase := 0, loftSize := 0, evictBase := 0,
               evictSize := 0, shadow := 0, tdi := none }]
    groups := [fetchGroup]
    teams := [fetchTeam]
    cores := s.cores.map on
    nextId := 4
    agenda := [.issue 2 3] }

end Sys2Proof.Machine
end

