-- ==== Sys2Proof/Machine/Step.lean ====
section
/-!
DEFINITION. One step: the next turn of the agents' order, or the device's own when none is given.
-/
namespace Sys2Proof.Machine

/-- One step. -/
def step (s : State) : Host.Outcome State Fault Refusal :=
  match s.agenda with
  | [] => s.defaultTurn
  | t :: ts => State.turn { s with agenda := ts } t

/-- s with an instruction placed where its next step fetches. -/
def State.withFetchWord (s : State) (nbits w : Nat) : State := s.placeFetch (w % 2 ^ nbits)

end Sys2Proof.Machine
end

