-- ==== Sys2Proof/WellFormed.lean ====
section
/-!
DEFINITION. Which terms of Instr stand for words: an instruction has words (an event of the device has none), and an EXT
constructor holds a second word that EXT may not precede (R39).
-/
namespace Sys2Proof

/-- R39: the second word of a misplaced EXT is of another format; in every other constructor all values are encodable. -/
def extWf (i : Instr) : Bool :=
  match i with
  | .ext o => !isIK o.second
  | _ => true

/-- The instruction has words. -/
def hasWords (i : Instr) : Bool := !(encode i).isEmpty

/-- A well-formed instruction. -/
def wellFormed (i : Instr) : Bool := hasWords i && extWf i

end Sys2Proof
end

