-- ==== Sys2Proof/Safety.lean ====
section
/-!
DEFINITION. What a safe run is, and the words that claims about the machine are stated in: when an instruction issues,
what stays as it was, the contents of a register field.
-/
namespace Sys2Proof.Machine

/-! ### Safe runs -/

/-- The next step answers a next state: the machine neither faults nor refuses. -/
def State.GoesOn (s : State) : Prop := ∃ t, step s = .next t

/-- n steps, each of which answers a next state. -/
def SafeRun : Nat → State → Prop
  | 0, _ => True
  | n + 1, s => ∃ t, step s = .next t ∧ SafeRun n t

/-! ### When an instruction issues -/

/-- What the instruction is issued with. -/
def issueCtx (i : Instr) (s : State) (t : Team) (p : Split) (g : Group) : Ctx := mkCtx i (issueTeam i s t p) p g s.nonce

/-- Split `p` of team `t` of group `g` is the one that issues, and `i` reaches the checks of its own: the split may issue
(R331, R344, R354), no landing pad is missing (R305), no breakpoint matches (R400). -/
abbrev Starts (i : Instr) (s : State) (t : Team) (p : Split) (g : Group) : Prop :=
  s.cur = some (t.id, p.uid) ∧ s.team? t.id = some t ∧ t.split? p.uid = some p ∧ s.group? t.group = some g ∧
  s.issuable t p = true ∧ s.canPass (issueCtx i s t p g) = true ∧
  (p.landCheck = false ∨ landsHere i = true) ∧
  s.breakpoint (issueCtx i s t p g) = none

/-- Split `p` of team `t` of group `g` issues `i` in `s` and nothing stands before the instruction's own effect: it
starts, its encoding is accepted (R45), a handler may run it (R355), no result is awaited that the marker, the
destinations or HCHK wait for (R40, R42), no fence holds it (R155), no grid holds the quad (R212), nothing it reads is
poisoned (R365). -/
abbrev Ready (i : Instr) (s : State) (t : Team) (p : Split) (g : Group) : Prop :=
  Starts i s t p g ∧
  lowest (encodingFaults i p.modeEtype t.gran) = none ∧
  (t.handler = none ∨ forbiddenInHandler i = false) ∧
  (isMarked i = false ∨ t.owes p.uid = false) ∧
  t.interlocked p = false ∧
  (p.fence = none ∨ parksAtFence i = false) ∧
  (heldByGrid i = false ∨ s.gridder t.core t.quad = none) ∧
  (p.modeHchk = false ∨ isMarked i = true ∨ (issueCtx i s t p g).hazard s t = none) ∧
  (issueCtx i s t p g).poisoned = none

/-- The state in which the instruction's own effect begins: a marked one has waited for its split's results, the
landing check and the exemption of R400 are used up. -/
def issueState (i : Instr) (s : State) (t : Team) (p : Split) : State :=
  { s.modTeam t.id (fun x => (if isMarked i then x.settle p.uid else x).modSplit p.uid fun q =>
      { q with exempt := false, landCheck := false }) with nonce := s.nonce + 1 }

/-! ### Registers -/

/-- What lane l of a register of a team holds. -/
def State.reg (s : State) (tid : Nat) (f : RFile) (r l : Nat) : Nat :=
  match s.team? tid with | some t => t.raw f r l | none => 0
/-- R28: a v or g field of a team. -/
def State.field (s : State) (tid x l : Nat) : Nat := if x < 192 then s.reg tid .v x l else s.reg tid .g (x - 192) 0
/-- n registers of a field, as one little-endian number. -/
def State.fieldUnit (s : State) (tid x l n : Nat) : Nat :=
  (List.range n).foldl (fun a k => a + s.field tid (x + k) l * 2 ^ (32 * k)) 0
/-- The file and register of a field. -/
def fieldReg (x : Nat) : RFile × Nat := if x < 192 then (.v, x) else (.g, x - 192)
/-- The n registers from a field on. -/
def fieldRegs (x n : Nat) : List (RFile × Nat) := (List.range n).map fun k => fieldReg (x + k)
/-- A split of a team. -/
def State.splitOf (s : State) (tid uid : Nat) : Option Split := (s.team? tid).bind (·.split? uid)

/-! ### What stays -/

/-- A split without what the issuing of any instruction uses up: the exemption of R400, the landing check, the loads kept
for a replay. -/
def Split.still (p : Split) : Split := { p with exempt := false, landCheck := false, caps := [] }
/-- A team without its registers, the bookkeeping of outstanding writes, poison and written registers, and the slot that
has issued in this cycle. -/
def Team.still (t : Team) : Team :=
  { t with v := [], g := [], m := [], b := [], unset := [], poison := [], lastSlot := none, region := t.region.map fun q => { q with written := [] }
           splits := t.splits.map Split.still, deferred := t.deferred.map Split.still, handler := t.handler.map Split.still }
/-- A core without the passes that wait for their bays (R292). -/
def Core.still (c : Core) : Core := { c with passes := [] }
/-- The machine without its registers, the passes that wait, and the count that free values take. -/
def State.still (s : State) : State :=
  { s with teams := s.teams.map Team.still, cores := s.cores.map Core.still, nonce := 0 }

/-- The split goes on behind an instruction of `len` bytes. -/
def Split.goOn (len : Nat) (p : Split) : Split := { p with pc := p.pc + BitVec.ofNat 32 len, st := .ready, busy := none }
/-- The issuing split goes on behind the instruction; nothing else of the team changes. -/
def Ctx.passes (c : Ctx) (t : Team) : Team := t.modSplit c.uid (Split.goOn c.len)

/-- The frame of an instruction: every byte of every address space reads as before; every register but those of `dest`
in team `tid` holds what it held; everything else is as `eff` on that team leaves it, the passes that wait for bays apart. -/
def Frame (s u : State) (tid : Nat) (dest : List (RFile × Nat)) (eff : Team → Team) : Prop :=
  (∀ sp a, u.rdByte sp a = s.rdByte sp a) ∧
  (∀ id f r l, (id ≠ tid ∨ (f, r) ∉ dest) → u.reg id f r l = s.reg id f r l) ∧
  u.still = (s.modTeam tid eff).still

/-! ### Lane arithmetic -/

/-- R176: element k of the operand in a field, in lane l, under MODE.ETYPE. -/
def Ctx.elem (c : Ctx) (x : Byte) (l k : Nat) : Nat := elemAt (etWidth c.et) (c.unit x l (etRegs c.et)) k
/-- R176: the same element as the type reads it. -/
def Ctx.int (c : Ctx) (x : Byte) (l k : Nat) : Int := intOf (etSigned c.et) (etWidth c.et) (c.elem x l k)
/-- R159, R170: the same element as a floating value. -/
def Ctx.flt (c : Ctx) (x : Byte) (l k : Nat) : FV :=
  readF (etFmt c.et) c.sp.modeFtz (elemAt (etWidth c.et) (c.src x.toNat l) k)
/-- R177: fit(r) under MODE.SAT and MODE.ETYPE, with its flags. -/
def Ctx.fits (c : Ctx) (r : Int) : Nat × Nat := fitInt c.sp.modeSat (etSigned c.et) (etWidth c.et) r

/-- Where the results of an instruction go: n registers from field d, `count` elements of width w, in these lanes. -/
structure Dest where
  d : Byte
  n : Ctx → Nat
  w : Ctx → Nat
  count : Ctx → Nat
  lanes : Ctx → List Nat

/-- R175, R176: the destination of an instruction that computes element by element under MODE.ETYPE. -/
def Dest.typed (d : Byte) : Dest := ⟨d, fun c => etRegs c.et, fun c => etWidth c.et, fun c => etElems c.et, fun c => c.computing d⟩
/-- R175: one 32-bit result per computing lane. -/
def Dest.word (d : Byte) : Dest := ⟨d, fun _ => 1, fun _ => 32, fun _ => 1, fun c => c.computing d⟩
/-- R184, R199: a unit under MODE.ETYPE, moved whole. -/
def Dest.whole (d : Byte) : Dest := ⟨d, fun c => etRegs c.et, fun c => 32 * etRegs c.et, fun _ => 1, fun c => c.computing d⟩

/-- The flags that all lanes raise. -/
def Dest.flags (q : Dest) (c : Ctx) (f : Ctx → Nat → Nat → Nat × Nat) : Nat :=
  orFlags ((q.lanes c).map fun l => (l, (perElem (q.count c) (q.w c) (f c l)).2))

/-- R175, R174: where no raised exception is enabled, instruction `i` completes: element k of lane l of its destination
holds the value of `f`, the other lanes of a v destination keep theirs, STICKY takes the flags, the split goes on behind
it, and nothing else changes but what `pre` does to the team. -/
def Computes (i : Instr) (q : Dest) (pre : Ctx → Team → Team) (f : Ctx → Nat → Nat → Nat × Nat) : Prop :=
  ∀ s t p g, Ready i s t p g →
    let c := issueCtx i s t p g
    enabledException (q.flags c f) t.trapEn = none →
    ∃ u, exec i s = .next u ∧
      (∀ l ∈ q.lanes c, ∀ k < q.count c,
        elemAt (q.w c) (u.fieldUnit t.id q.d.toNat l (q.n c)) k = (f c l k).1 % 2 ^ q.w c) ∧
      (q.d.toNat < 192 → ∀ l, l ∉ q.lanes c → ∀ r < q.n c, u.reg t.id .v (q.d.toNat + r) l = s.reg t.id .v (q.d.toNat + r) l) ∧
      Frame s u t.id (fieldRegs q.d.toNat (q.n c)) (fun x => c.passes ((pre c x).stick (q.flags c f)))

/-- R185: where no raised exception is enabled, instruction `i` completes: the bit of each active lane of mask `d` is that
of `f`, 0 for an absent lane (R25), and every other bit and everything else stays. -/
def WritesMask (i : Instr) (d : Byte) (f : Ctx → Nat → Bool × Nat) : Prop :=
  ∀ s t p g, Ready i s t p g →
    let c := issueCtx i s t p g
    let fl := orFlags (c.lanes.map fun l => (l, (f c l).2))
    enabledException fl t.trapEn = none →
    ∃ u, exec i s = .next u ∧
      (∀ l < t.size, (u.reg t.id .m d.toNat 0).testBit l =
        if c.act.getLsbD l then (f c l).1 && t.present.getLsbD l else (s.reg t.id .m d.toNat 0).testBit l) ∧
      Frame s u t.id [(.m, d.toNat)] (fun x => c.passes (x.stick fl))

/-- R25, R206: instruction `i` completes: mask `d` is rewritten whole, absent lanes read 0. -/
def SetsMask (i : Instr) (d : Nat) (f : Ctx → Nat → Bool) (eff : Ctx → Team → Team) : Prop :=
  ∀ s t p g, Ready i s t p g →
    let c := issueCtx i s t p g
    ∃ u, exec i s = .next u ∧
      (∀ l < 1024, (u.reg t.id .m d 0).testBit l = (f c l && t.present.getLsbD l)) ∧
      Frame s u t.id [(.m, d)] (eff c)

/-- Nothing beside the result. -/
def noPre (_ : Ctx) (x : Team) : Team := x
/-- R169: under RM = 5 the team's generator advances. -/
def drawPre (b : Ctx → Bool) (c : Ctx) (x : Team) : Team :=
  if b c && decide (c.sp.modeRm = 5) then { x with stoch := stochNext x.stoch } else x

/-! ### Control flow -/

/-- The issuing split goes on at `target`, and folds the transfer into its path signature (R303, R398). -/
def Ctx.jumpsTo (c : Ctx) (target : Word) (x : Team) : Team :=
  x.modSplit c.uid fun q =>
    { q with pc := target, psig := crcFold q.psig (transferValue c.sp.pc target), st := .ready, busy := none }

/-- R303: instruction `i` completes and the split goes on at the target; registers `dest` apart, and a branch record of an
armed team apart (R399), nothing else changes but what `pre` does to the team. -/
def JumpsTo (i : Instr) (s u : State) (t : Team) (c : Ctx) (target : Word) (dest : List (RFile × Nat)) (pre : Team → Team) : Prop :=
  exec i s = .next u ∧ (∃ q, u.splitOf t.id c.uid = some q ∧ q.pc = target) ∧
  (s.armedTeam c = false → Frame s u t.id dest (fun x => c.jumpsTo target (pre x)))

/-- Instruction `i` completes and only the PC moves on. -/
def PassesBy (i : Instr) (s u : State) (t : Team) (c : Ctx) : Prop :=
  exec i s = .next u ∧ Frame s u t.id [] c.passes

/-! ### Memory instructions -/

/-- R125, R155. Instruction `i` puts its access in flight: where it is formed without a trap in state s1, no line is parked,
and its path, its team's store queue and its split's read set have room, the access with these requests is in flight, held
behind a fence if it is a store there, the registers it owes are awaited, and the split goes on; no register and no byte
has changed since the access was formed. -/
def Launches (i : Instr) (spec : Ctx → AccSpec) (formed : State → Ctx → Formed) (owed : Ctx → Option Owed)
    (kind : Ctx → AccKind) : Prop :=
  ∀ s t p g s1 sup reqs, Ready i s t p g →
    let c := issueCtx i s t p g
    let a := spec c
    (issueState i s t p).counter t.id a.path < 63 → formed (issueState i s t p) c = .ok s1 sup reqs →
    (∀ r ∈ reqs, r.st ≠ .parked) →
    (p.fence.isSome = true → a.store = true → a.need.r = false →
      s1.heldEntries t.id + (if a.path = 1 then reqs.length else 1) ≤ 64) →
    (a.store = false → s1.readSetFull c reqs = false) →
    ∃ u f, exec i s = .next u ∧ f ∈ u.flights ∧ f.id = s1.nextId ∧ f.team = t.id ∧ f.split = p.uid ∧ f.path = a.path ∧
      f.n = a.n ∧ f.kind = kind c ∧ f.reqs = reqs ∧ f.returned = false ∧
      f.held = (p.fence.isSome && a.store && !a.need.r) ∧
      f.dst = (owed c).map (fun w => (w.file, w.reg)) ∧
      (∀ w x, owed c = some w → u.team? t.id = some x → ⟨s1.nextId, p.uid, w.file, w.reg, w.count, w.lanes⟩ ∈ x.awaits) ∧
      (∀ q, s1.splitOf t.id p.uid = some q → ∃ q', u.splitOf t.id p.uid = some q' ∧ q'.pc = q.pc + BitVec.ofNat 32 c.len) ∧
      (∀ id f r l, u.reg id f r l = s1.reg id f r l) ∧ (∀ sp a, u.rdByte sp a = s1.rdByte sp a)

/-! ### Traps -/

/-- A trap of split `p` with this code is taken at once: nothing is outstanding (R41), no fence of the split is incomplete
(R155), the trap depth has room (R356), and no debugger takes a debug code first (R401). -/
abbrev CanTrap (s : State) (t : Team) (p : Split) (g : Group) (code : Nat) : Prop :=
  s.outstanding t = false ∧ p.fence = none ∧ t.depth ≤ 1 ∧
  (code < 159 ∨ 161 < code ∨ s.dbg.haltdbg = false ∨ s.dbg.asid ≠ g.asid)

/-- R353, R356: a trap of split `p` has been taken: CAUSE, EPC, SSTAT and m15 hold what the rule says, the handler split
stands at TRAPV with the team's lanes and MODE 0, the registers it displaces are saved, and no byte of memory has changed.
What is saved is stated where no access and no speculation of the team is cut short by the entry. -/
def TakesTrap (s u : State) (t : Team) (p : Split) (code detail : Nat) (lanes : LaneMask) (skip : Bool) (epc : Word) : Prop :=
  (∃ x h, u.team? t.id = some x ∧ x.handler = some h ∧
    x.cause = BitVec.ofNat 32 (detail % 65536 * 65536 + code) ∧ x.epc = epc ∧ x.sstatLo = p.mode ∧
    x.sstatHi = BitVec.ofNat 32 ((t.depth + 1) * 16 + (if skip then 8 else 0) + (if t.depth = 1 then 0 else p.slot)) ∧
    sget 0 x.m 15 = lanes &&& t.present ∧
    h.pc = t.trapv ∧ h.mode = 0 ∧ h.own = t.owned ∧ h.exec = t.owned ∧
    ((∀ f ∈ s.flights, f.team = t.id → f.parked = false) → (∀ q ∈ t.live, q.fence = none) →
      (t.depth = 0 → x.m15save = sget 0 t.m 15) ∧
      (t.depth = 1 → x.saved1 = some ⟨t.cause, t.epc, t.sstatLo, t.sstatHi, sget 0 t.m 15⟩))) ∧
  ∀ sp a, u.rdByte sp a = s.rdByte sp a

/-- R174: a raised and enabled exception x of instruction `i` traps with 96 + 9x + the type group, the flags in DETAIL, and
the lanes that raised it in m15 (all active lanes in uniform form); no result is written. -/
def ArithTraps (i : Instr) (q : Dest) (group : Ctx → Nat) (f : Ctx → Nat → Nat → Nat × Nat) : Prop :=
  ∀ s t p g x, Ready i s t p g →
    let c := issueCtx i s t p g
    enabledException (q.flags c f) t.trapEn = some x → CanTrap s t p g (96 + 9 * x + group c) →
    ∃ u, exec i s = .next u ∧
      TakesTrap s u t p (96 + 9 * x + group c) (q.flags c f)
        (if q.d.toNat < 192 then
            lanesRaising ((q.lanes c).map fun l => (l, (perElem (q.count c) (q.w c) (f c l)).2)) x
          else c.act) false p.pc

/-! ### Engines and events -/

/-- R116, R122. Instruction `i` completes where the queue of the context has room: its command takes the next number, stands
last in the queue with what `what` says of it, the pair of field d holds the number, and nothing else changes. -/
def Accepts (i : Instr) (sel : Nat) (d : Byte) (room : State → Ctx → Prop) (what : Ctx → EngCmd → Prop) : Prop :=
  ∀ s t p g, Ready i s t p g →
    let c := issueCtx i s t p g
    let n := (g.eng sel).accepted + 1
    room s c → (g.eng sel).accepted - (g.eng sel).c < 32 →
    ∃ u x, exec i s = .next u ∧ x.n = n ∧ x.st = .queued ∧ x.team = t.id ∧ x.before = s.nextId ∧ what c x ∧
      u.field t.id d.toNat 0 = n % 2 ^ 32 ∧ u.field t.id (d.toNat + 1) 0 = n / 2 ^ 32 % 2 ^ 32 ∧
      Frame (s.modEng g.id sel fun e => { e with accepted := n, cmds := e.cmds ++ [x] }) u t.id (fieldRegs d.toNat 2) c.passes

/-- R221, R237. The same for a matrix command, which writes no register and waits for other contexts' commands on its
tile slots. -/
def AcceptsMat (i : Instr) (slots : Ctx → List Nat) (room : Ctx → Group → Prop) (what : Ctx → EngCmd → Prop) : Prop :=
  ∀ s t p g, Ready i s t p g →
    let c := issueCtx i s t p g
    let sel := 2 + 16 * t.quad
    let n := (g.eng sel).accepted + 1
    room c g → (g.eng sel).accepted - (g.eng sel).c < 32 → g.pendingIn (slots c) (fun e => decide (e ≠ sel)) = false →
    ∃ u x, exec i s = .next u ∧ x.n = n ∧ x.st = .queued ∧ x.team = t.id ∧ x.before = s.nextId ∧ what c x ∧
      Frame (s.modEng g.id sel fun e => { e with accepted := n, cmds := e.cmds ++ [x] }) u t.id [] c.passes

/-- R294. Instruction `i` waits: the split stands at it, BLOCKED, with these values read; nothing else changes. -/
def Blocks (i : Instr) (s u : State) (t : Team) (p : Split) (vals : List Nat) : Prop :=
  exec i s = .next u ∧ Frame s u t.id [] fun x => x.modSplit p.uid fun q => { q with st := .blocked, busy := some (i, vals) }

/-- No byte of any address space and no register of any team differs. -/
def State.sameData (s u : State) : Prop :=
  (∀ sp a, u.rdByte sp a = s.rdByte sp a) ∧ ∀ id f r l, u.reg id f r l = s.reg id f r l

/-- R284: no speculative split has read the line. -/
def State.unread (s : State) (sp : Space) (line : Nat) : Prop :=
  ∀ t ∈ s.teams, ∀ p ∈ t.live ++ t.handler.toList, ∀ f, p.fence = some f → (sp, line) ∉ f.readSet

/-- Every sector of a line lies in the SLC. -/
def State.inSlc (s : State) (line : Nat) : Prop := ∃ x, s.slcFind line = some x ∧ x.valid = BitVec.allOnes 4

/-! ### Invariants -/

/-- No two teams share an identifier and every identifier has been given out; no MODE that a split, a region or a join
record holds is one that R30 rules out. -/
def State.Legal (s : State) : Prop :=
  (s.teams.map (·.id)).Nodup ∧ (∀ t ∈ s.teams, t.id < s.nextId) ∧
  ∀ t ∈ s.teams,
    (∀ p ∈ t.live ++ t.handler.toList, modeReserved p.mode = false) ∧
    (∀ q, t.region = some q → modeReserved q.mode = false) ∧
    ∀ j ∈ t.joins, modeReserved j.2.smode = false

end Sys2Proof.Machine
end

