-- ==== Sys2Proof/Certificates/Slice0/Obligations.lean ====
section
/-!
DEFINITION. The statements about the model that provers are asked to prove, one per definition; what each says is its
docstring. The words they use are those of Sys2Proof/Safety.lean.
-/
open Sys2Proof Sys2Proof.Machine

/-! ### Lane arithmetic (R175 to R210) -/

/-- R178. ADD, SUB, MUL, MULH, MAD, MIN, MAX, ABSD, AND, OR, XOR, ANDN complete: each element of each computing lane takes
the result of the table, and nothing else changes. -/
def Obligations.IntegerTwoSource : Prop := ∀ o : FR,
  Computes (.add o) (.typed o.d) noPre (fun c l k => c.fits (c.int o.a l k + c.int o.b l k)) ∧
  Computes (.sub o) (.typed o.d) noPre (fun c l k => c.fits (c.int o.a l k - c.int o.b l k)) ∧
  Computes (.mul o) (.typed o.d) noPre (fun c l k => c.fits (c.int o.a l k * c.int o.b l k)) ∧
  Computes (.mulh o) (.typed o.d) noPre (fun c l k =>
    (wrapInt (etWidth c.et) (c.int o.a l k * c.int o.b l k / 2 ^ etWidth c.et), 0)) ∧
  Computes (.mad o) (.typed o.d) noPre (fun c l k => c.fits (c.int o.a l k * c.int o.b l k + c.int o.d l k)) ∧
  Computes (.min o) (.typed o.d) noPre (fun c l k =>
    (if c.int o.b l k < c.int o.a l k then c.elem o.b l k else c.elem o.a l k, 0)) ∧
  Computes (.max o) (.typed o.d) noPre (fun c l k =>
    (if c.int o.a l k < c.int o.b l k then c.elem o.b l k else c.elem o.a l k, 0)) ∧
  Computes (.absd o) (.typed o.d) noPre (fun c l k => ((c.int o.a l k - c.int o.b l k).natAbs, 0)) ∧
  Computes (.and o) (.typed o.d) noPre (fun c l k => (c.elem o.a l k &&& c.elem o.b l k, 0)) ∧
  Computes (.or o) (.typed o.d) noPre (fun c l k => (c.elem o.a l k ||| c.elem o.b l k, 0)) ∧
  Computes (.xor o) (.typed o.d) noPre (fun c l k => (c.elem o.a l k ^^^ c.elem o.b l k, 0)) ∧
  Computes (.andn o) (.typed o.d) noPre (fun c l k =>
    (c.elem o.a l k &&& (2 ^ etWidth c.et - 1 - c.elem o.b l k), 0))

/-- R179, R180. SHL, SHR, SAR, ROT, BFX, BFI complete: the amount is the element of B, for the 64-bit types the single
register B; amounts of the element width or more, and empty bit fields, give what the rules say. -/
def Obligations.ShiftsAndBitFields : Prop := ∀ o : FR,
  let amount (c : Ctx) (l k : Nat) : Nat :=
    if et64 c.et then c.src o.b.toNat l else elemAt (etWidth c.et) (c.src o.b.toNat l) k
  let pos (c : Ctx) (l : Nat) : Nat := c.src o.b.toNat l % 256
  let len (c : Ctx) (l : Nat) : Nat := c.src o.b.toNat l / 256 % 256
  let n (c : Ctx) (l : Nat) : Nat := Nat.min (len c l) (etWidth c.et - pos c l)
  Computes (.shl o) (.typed o.d) noPre (fun c l k =>
    if amount c l k < etWidth c.et then c.fits (c.int o.a l k * 2 ^ amount c l k)
    else if c.int o.a l k = 0 ∨ c.sp.modeSat = false then (0, 0)
    else (wrapInt (etWidth c.et) (if c.int o.a l k < 0 then intMin (etSigned c.et) (etWidth c.et)
      else intMax (etSigned c.et) (etWidth c.et)), fSATF)) ∧
  Computes (.shr o) (.typed o.d) noPre (fun c l k =>
    (if amount c l k < etWidth c.et then c.elem o.a l k / 2 ^ amount c l k else 0, 0)) ∧
  Computes (.sar o) (.typed o.d) noPre (fun c l k =>
    (if amount c l k < etWidth c.et then
        wrapInt (etWidth c.et) (intOf true (etWidth c.et) (c.elem o.a l k) / 2 ^ amount c l k)
      else if intOf true (etWidth c.et) (c.elem o.a l k) < 0 then 2 ^ etWidth c.et - 1 else 0, 0)) ∧
  Computes (.rot o) (.typed o.d) noPre (fun c l k =>
    (c.elem o.a l k * 2 ^ (amount c l k % etWidth c.et) % 2 ^ etWidth c.et +
      c.elem o.a l k / 2 ^ (etWidth c.et - amount c l k % etWidth c.et), 0)) ∧
  Computes (.bfx o) (.typed o.d) noPre (fun c l _ =>
    (if len c l = 0 ∨ etWidth c.et ≤ pos c l then 0
      else wrapInt (etWidth c.et) (intOf (etSigned c.et) (n c l)
        (c.unit o.a l (etRegs c.et) / 2 ^ pos c l % 2 ^ n c l)), 0)) ∧
  Computes (.bfi o) (.typed o.d) noPre (fun c l _ =>
    let z := c.unit o.d l (etRegs c.et)
    (if len c l = 0 ∨ etWidth c.et ≤ pos c l then z
      else z % 2 ^ pos c l + c.unit o.a l (etRegs c.et) % 2 ^ n c l * 2 ^ pos c l +
        z / 2 ^ (pos c l + n c l) * 2 ^ (pos c l + n c l), 0))

/-- R181. The IUN functions POPC, CLZ, CTZ, BREV, NOT, NEG, IABS, SEXT8, SEXT16, ZEXT8, ZEXT16 complete. -/
def Obligations.IntegerOneSource : Prop := ∀ o : FF,
  Computes (.popc o) (.typed o.d) noPre (fun c l k =>
    (((List.range (etWidth c.et)).filter (c.elem o.a l k).testBit).length, 0)) ∧
  Computes (.clz o) (.typed o.d) noPre (fun c l k =>
    (if c.elem o.a l k = 0 then etWidth c.et else etWidth c.et - 1 - Nat.log2 (c.elem o.a l k), 0)) ∧
  Computes (.ctz o) (.typed o.d) noPre (fun c l k =>
    (((List.range (etWidth c.et)).find? (c.elem o.a l k).testBit).getD (etWidth c.et), 0)) ∧
  Computes (.brev o) (.typed o.d) noPre (fun c l k =>
    ((List.range (etWidth c.et)).foldl (fun a i => 2 * a + (c.elem o.a l k / 2 ^ i % 2)) 0, 0)) ∧
  Computes (.not o) (.typed o.d) noPre (fun c l k => (2 ^ etWidth c.et - 1 - c.elem o.a l k, 0)) ∧
  Computes (.neg o) (.typed o.d) noPre (fun c l k => c.fits (-c.int o.a l k)) ∧
  Computes (.iabs o) (.typed o.d) noPre (fun c l k => c.fits (c.int o.a l k).natAbs) ∧
  Computes (.sext8 o) (.typed o.d) noPre (fun c l k => (wrapInt (etWidth c.et) (intOf true 8 (c.elem o.a l k)), 0)) ∧
  Computes (.sext16 o) (.typed o.d) noPre (fun c l k => (wrapInt (etWidth c.et) (intOf true 16 (c.elem o.a l k)), 0)) ∧
  Computes (.zext8 o) (.typed o.d) noPre (fun c l k => (c.elem o.a l k % 256, 0)) ∧
  Computes (.zext16 o) (.typed o.d) noPre (fun c l k => (c.elem o.a l k % 65536, 0))

/-- R182. ADDI, MULI, ANDI, ORI, XORI, SHLI, SHRI, SARI complete, with I8 extended as the rule says, the 32-bit constant
of an EXT pair, and its extension to 64 bits. -/
def Obligations.IntegerImmediates : Prop := ∀ o : FI,
  let sconst (c : Ctx) : Nat := immUnit o c.et true true
  let lconst (c : Ctx) : Nat := immUnit o c.et false (etSigned c.et)
  let amount : Nat := immOf o false
  Computes (.addi o) (.typed o.d) noPre (fun c l k =>
    c.fits (c.int o.a l k + intOf (etSigned c.et) (etWidth c.et) (sconst c))) ∧
  Computes (.muli o) (.typed o.d) noPre (fun c l k =>
    c.fits (c.int o.a l k * intOf (etSigned c.et) (etWidth c.et) (sconst c))) ∧
  Computes (.andi o) (.typed o.d) noPre (fun c l k => (c.elem o.a l k &&& lconst c, 0)) ∧
  Computes (.ori o) (.typed o.d) noPre (fun c l k => (c.elem o.a l k ||| lconst c, 0)) ∧
  Computes (.xori o) (.typed o.d) noPre (fun c l k => (c.elem o.a l k ^^^ lconst c, 0)) ∧
  Computes (.shli o) (.typed o.d) noPre (fun c l k =>
    if amount < etWidth c.et then c.fits (c.int o.a l k * 2 ^ amount)
    else if c.int o.a l k = 0 ∨ c.sp.modeSat = false then (0, 0)
    else (wrapInt (etWidth c.et) (if c.int o.a l k < 0 then intMin (etSigned c.et) (etWidth c.et)
      else intMax (etSigned c.et) (etWidth c.et)), fSATF)) ∧
  Computes (.shri o) (.typed o.d) noPre (fun c l k =>
    (if amount < etWidth c.et then c.elem o.a l k / 2 ^ amount else 0, 0)) ∧
  Computes (.sari o) (.typed o.d) noPre (fun c l k =>
    (if amount < etWidth c.et then wrapInt (etWidth c.et) (intOf true (etWidth c.et) (c.elem o.a l k) / 2 ^ amount)
      else if intOf true (etWidth c.et) (c.elem o.a l k) < 0 then 2 ^ etWidth c.et - 1 else 0, 0))

/-- R183, R184. MOVK, MOVKH, MOV, MOVF complete. MOVF takes the lowest-numbered active lane, and 0 with none;
with a g source it is a uniform form (R175). -/
def Obligations.ConstantsAndMoves : Prop :=
  (∀ o : FK,
    Computes (.movk o) (.word o.d) noPre (fun _ _ _ =>
      ((match o.ext with | some x => x.imm.toNat % 65536 * 65536 + o.k.toNat | none => o.k.toNat), 0)) ∧
    Computes (.movkh o) (.word o.d) noPre (fun c l _ => (o.k.toNat * 65536 + c.src o.d.toNat l % 65536, 0))) ∧
  (∀ o : FR,
    Computes (.mov o) (.whole o.d) noPre (fun c l _ => (c.unit o.a l (etRegs c.et), 0)) ∧
    Computes (.movf o) { Dest.whole o.d with lanes := fun _ => [0] } noPre (fun c _ _ =>
      ((match c.reduced o.d o.a with | [] => 0 | l :: _ => c.unit o.a l (etRegs c.et)), 0)))

/-- R185. CEQ, CNE, CLT, CLE, CUN and the immediate forms CEQI, CLTI, CLEI complete: integers by their type, f32 with the
rules for NaN; only the mask's bits of active lanes change. -/
def Obligations.Compares : Prop :=
  (∀ o : FR,
    let nan (c : Ctx) (l : Nat) : Bool := (c.flt o.a l 0).isNaN || (c.flt o.b l 0).isNaN
    let sig (c : Ctx) (l : Nat) : Bool := (c.flt o.a l 0).isSig || (c.flt o.b l 0).isSig
    let quietIV (c : Ctx) (l : Nat) : Nat := if c.et = 2 ∧ sig c l then fIV else 0
    let strictIV (c : Ctx) (l : Nat) : Nat := if c.et = 2 ∧ nan c l then fIV else 0
    WritesMask (.ceq o) o.d (fun c l => (if c.et = 2 then !nan c l && fvEq (c.flt o.a l 0) (c.flt o.b l 0)
      else decide (c.int o.a l 0 = c.int o.b l 0), quietIV c l)) ∧
    WritesMask (.cne o) o.d (fun c l => (if c.et = 2 then nan c l || !fvEq (c.flt o.a l 0) (c.flt o.b l 0)
      else decide (c.int o.a l 0 ≠ c.int o.b l 0), quietIV c l)) ∧
    WritesMask (.clt o) o.d (fun c l => (if c.et = 2 then !nan c l && fvLtCmp (c.flt o.a l 0) (c.flt o.b l 0)
      else decide (c.int o.a l 0 < c.int o.b l 0), strictIV c l)) ∧
    WritesMask (.cle o) o.d (fun c l => (if c.et = 2 then !nan c l &&
        (fvLtCmp (c.flt o.a l 0) (c.flt o.b l 0) || fvEq (c.flt o.a l 0) (c.flt o.b l 0))
      else decide (c.int o.a l 0 ≤ c.int o.b l 0), strictIV c l)) ∧
    WritesMask (.cun o) o.d (fun c l => (nan c l, quietIV c l))) ∧
  (∀ o : FI,
    let const (c : Ctx) : Int := match o.ext with
      | some x => intOf (etSigned c.et) 32 (x.imm.toNat * 256 + o.i.toNat)
      | none => intOf (etSigned c.et) 8 o.i.toNat
    WritesMask (.ceqi o) o.d (fun c l => (decide (c.int o.a l 0 = const c), 0)) ∧
    WritesMask (.clti o) o.d (fun c l => (decide (c.int o.a l 0 < const c), 0)) ∧
    WritesMask (.clei o) o.d (fun c l => (decide (c.int o.a l 0 ≤ const c), 0)))

/-- R186, R187. FADD, FSUB, FMUL, FMA, FNMA, FMIN, FMAX complete with the exact operation rounded once; the rounding ones
advance the generator under RM = 5 (R169).
That it advances at every issue, rounding or not, is the reading of log 11. -/
def Obligations.FloatingTwoAndThreeSource : Prop := ∀ o : FR,
  let always := drawPre fun _ => true
  Computes (.fadd o) (.typed o.d) always (fun c l k =>
    addFV (etFmt c.et) (c.round false l k) (c.flt o.a l k) (c.flt o.b l k) [c.flt o.a l k, c.flt o.b l k]) ∧
  Computes (.fsub o) (.typed o.d) always (fun c l k =>
    addFV (etFmt c.et) (c.round false l k) (c.flt o.a l k) (c.flt o.b l k).flip [c.flt o.a l k, c.flt o.b l k]) ∧
  Computes (.fmul o) (.typed o.d) always (fun c l k =>
    mulFV (etFmt c.et) (c.round false l k) (c.flt o.a l k) (c.flt o.b l k)) ∧
  Computes (.fma o) (.typed o.d) always (fun c l k =>
    fmaFV (etFmt c.et) (c.round false l k) (c.flt o.a l k) (c.flt o.b l k) (c.flt o.d l k)
      [c.flt o.a l k, c.flt o.b l k, c.flt o.d l k]) ∧
  Computes (.fnma o) (.typed o.d) always (fun c l k =>
    fmaFV (etFmt c.et) (c.round false l k) (c.flt o.a l k).flip (c.flt o.b l k) (c.flt o.d l k)
      [c.flt o.a l k, c.flt o.b l k, c.flt o.d l k]) ∧
  Computes (.fmin o) (.typed o.d) noPre (fun c l k =>
    minmaxFV (etFmt c.et) (c.round false l k) false (c.flt o.a l k) (c.flt o.b l k)) ∧
  Computes (.fmax o) (.typed o.d) noPre (fun c l k =>
    minmaxFV (etFmt c.et) (c.round false l k) true (c.flt o.a l k) (c.flt o.b l k))

/-- R188 to R191. The FUN functions FRCP, FRSQ, FSQRT, FEXP2, FLOG2, FSINPI, FCOSPI, FTANH, FFLOOR, FCEIL, FTRUNC, FRINT,
FABS, FNEG, FCLASS complete; FABS, FNEG and FCLASS act on the encoding and raise nothing. -/
def Obligations.FloatingFunctions : Prop := ∀ o : FF,
  let always := drawPre fun _ => true
  let on (f : Fmt → RMode → FV → Nat × Nat) (c : Ctx) (l k : Nat) : Nat × Nat :=
    f (etFmt c.et) (c.round false l k) (c.flt o.a l k)
  let raw (c : Ctx) (l k : Nat) : Nat := elemAt (etWidth c.et) (c.src o.a.toNat l) k
  Computes (.frcp o) (.typed o.d) always (on rcpFV) ∧
  Computes (.frsq o) (.typed o.d) always (on rsqFV) ∧
  Computes (.fsqrt o) (.typed o.d) always (on sqrtFV) ∧
  Computes (.fexp2 o) (.typed o.d) noPre (on exp2FV) ∧
  Computes (.flog2 o) (.typed o.d) noPre (on log2FV) ∧
  Computes (.fsinpi o) (.typed o.d) noPre (on fun f r x => trigPiFV f r false x) ∧
  Computes (.fcospi o) (.typed o.d) noPre (on fun f r x => trigPiFV f r true x) ∧
  Computes (.ftanh o) (.typed o.d) noPre (on tanhFV) ∧
  Computes (.ffloor o) (.typed o.d) noPre (on fun f r x => intgFV f r 3 false x) ∧
  Computes (.fceil o) (.typed o.d) noPre (on fun f r x => intgFV f r 2 false x) ∧
  Computes (.ftrunc o) (.typed o.d) noPre (on fun f r x => intgFV f r 1 false x) ∧
  Computes (.frint o) (.typed o.d) always (on fun f r x => intgFV f r r.rm true x) ∧
  Computes (.fabs o) (.typed o.d) noPre (fun c l k => (raw c l k % 2 ^ ((etFmt c.et).width - 1), 0)) ∧
  Computes (.fneg o) (.typed o.d) noPre (fun c l k => (raw c l k ^^^ 2 ^ ((etFmt c.et).width - 1), 0)) ∧
  Computes (.fclass o) (.typed o.d) noPre (fun c l k => (classBit (etFmt c.et) (raw c l k), 0))

/-- R192 to R197. FDOT2, IDOT4, FSCALE, CVT, PACK, UNPK, MXSCL complete: sums rounded once, element j of CVT taken from and
put into the registers that hold it, MX blocks of a mask word's active lanes.
When the generator of RM = 5 advances is the reading of log 11. -/
def Obligations.DotScaleConvert : Prop :=
  let always := drawPre fun _ => true
  (∀ o : FR,
    let half (c : Ctx) (x : Byte) (l k : Nat) : FV := readF (etFmt c.et) c.sp.modeFtz (elemAt 16 (c.src x.toNat l) k)
    let prod (c : Ctx) (l k : Nat) : Int :=
      intOf (etSigned c.et) 8 (elemAt 8 (c.src o.a.toNat l) k) * intOf (etSigned c.et) 8 (elemAt 8 (c.src o.b.toNat l) k)
    let val (c : Ctx) (l : Nat) : FV := readF f32 c.sp.modeFtz (c.src o.a.toNat l)
    Computes (.fdot2 o) (.word o.d) always (fun c l _ =>
      dot2FV (c.round false l 0) (half c o.a l 0) (half c o.a l 1) (half c o.b l 0) (half c o.b l 1)
        (readF f32 c.sp.modeFtz (c.src o.d.toNat l))) ∧
    Computes (.idot4 o) (.word o.d) noPre (fun c l _ =>
      fitInt c.sp.modeSat (etSigned c.et) 32 (prod c l 0 + prod c l 1 + prod c l 2 + prod c l 3 +
        intOf (etSigned c.et) 32 (c.src o.d.toNat l))) ∧
    Computes (.fscale o) (.typed o.d) always (fun c l k =>
      scaleFV (etFmt c.et) (c.round false l k) (c.flt o.a l k)
        (intOf true (etWidth c.et) (elemAt (etWidth c.et) (c.src o.b.toNat l) k))) ∧
    Computes (.pack o) (.typed o.d) always (fun c l k =>
      convert (packSource c.et) (etKind c.et) (c.round true l k)
        (c.src ((if k < etElems c.et / 2 then o.a.toNat else o.b.toNat) + k % (etElems c.et / 2)) l)) ∧
    Computes (.mxscl o) (.word o.d) always (fun c l _ =>
      let x := mxScale (mxFmt o.b.toNat) ((c.lanes.filter fun k => decide (k / 32 = l / 32)).map (val c))
      let e := mxElem (mxFmt o.b.toNat) (c.round false l 0) x (val c l)
      (x * 256 + e.1, e.2))) ∧
  (∀ o : FI,
    Computes (.cvt o) ⟨o.d, fun c => (cvtRegs o.i.toNat c.et).2, fun c => etWidth c.et,
        fun c => Nat.max (etElems o.i.toNat) (etElems c.et), fun c => c.computing o.d⟩ always (fun c l j =>
      convert (etKind o.i.toNat) (etKind c.et) (c.round true l j)
        (elemAt (etWidth o.i.toNat) (c.unit o.a l (cvtRegs o.i.toNat c.et).1) j)) ∧
    Computes (.unpk o) (.word o.d) noPre (fun c l _ =>
      convert (etKind c.et) (packSource c.et) { c.round false l 0 with ftz := false }
        (elemAt (etWidth c.et) (c.src o.a.toNat l) o.i.toNat)))

/-- R199 to R201. SHFL, SHFLX, PERM, VOTE ANY, ALL and BALLOT complete: an absent source lane of a shuffle leaves the
lane's own value; ALL of no lane is 1; BALLOT rewrites the whole mask. -/
def Obligations.ShufflesAndVotes : Prop :=
  (∀ o : FR,
    let from' (c : Ctx) (l k : Nat) : Nat := c.unit o.a (if k < c.team.size ∧ c.team.present.getLsbD k then k else l) (etRegs c.et)
    let sel (c : Ctx) (l j : Nat) : Nat := c.src o.b.toNat l / 16 ^ j % 16
    let byte (c : Ctx) (l j : Nat) : Nat := permByte (c.src o.a.toNat l) (c.src o.d.toNat l) (sel c l j)
    Computes (.shfl o) (.whole o.d) noPre (fun c l _ => (from' c l (c.src o.b.toNat l), 0)) ∧
    Computes (.shflx o) (.whole o.d) noPre (fun c l _ => (from' c l (l ^^^ c.src o.b.toNat l % 1024), 0)) ∧
    Computes (.perm o) (.word o.d) noPre (fun c l _ =>
      (byte c l 0 + byte c l 1 * 256 + byte c l 2 * 65536 + byte c l 3 * 16777216, 0))) ∧
  (∀ o : FIF,
    Computes (.voteAny o) (.word o.d) noPre (fun c _ _ => (if ∃ l ∈ c.lanes, c.src o.a.toNat l ≠ 0 then 1 else 0, 0)) ∧
    Computes (.voteAll o) (.word o.d) noPre (fun c _ _ => (if ∀ l ∈ c.lanes, c.src o.a.toNat l ≠ 0 then 1 else 0, 0)) ∧
    SetsMask (.voteBallot o) o.d.toNat (fun c l => decide (l ∈ c.lanes ∧ c.src o.a.toNat l ≠ 0)) fun c x => c.passes x)

/-- R202 to R204. TRED, TSCAN, WID complete: a reduction writes one value in every computing lane, a scan each lane's
running value (exclusive for I8 = 1), WID the identifier field or half.
When the generator of RM = 5 advances is the reading of log 11. -/
def Obligations.ReductionsAndScans : Prop := ∀ o : FI,
  (∀ s t p g, Ready (.tred o) s t p g →
    let c := issueCtx (.tred o) s t p g
    let r : Nat × Nat := ((c.scan (c.reduced o.d o.a) o.a o.i.toNat).getLast?.map (·.2)).getD (redIdentity c.et o.i.toNat, 0)
    enabledException r.2 t.trapEn = none →
    ∃ u, exec (.tred o) s = .next u ∧
      (∀ l ∈ c.computing o.d, u.fieldUnit t.id o.d.toNat l (etRegs c.et) = r.1 % 2 ^ (32 * etRegs c.et)) ∧
      Frame s u t.id (fieldRegs o.d.toNat (etRegs c.et)) (fun x =>
        c.passes ((drawPre (fun c => decide (c.et = 2 ∧ o.i.toNat = 0)) c x).stick r.2))) ∧
  (∀ s t p g, Ready (.tscan o) s t p g →
    let c := issueCtx (.tscan o) s t p g
    let all := c.scan c.lanes o.a (scanOp o.i.toNat)
    let rows := if o.i.toNat = 1 then shiftRows all (0, 0) else all
    let fl := orFlags (rows.map fun r => (r.1, r.2.2))
    enabledException fl t.trapEn = none →
    ∃ u, exec (.tscan o) s = .next u ∧
      (∀ r ∈ rows, u.fieldUnit t.id o.d.toNat r.1 (etRegs c.et) = r.2.1 % 2 ^ (32 * etRegs c.et)) ∧
      Frame s u t.id (fieldRegs o.d.toNat (etRegs c.et)) (fun x =>
        c.passes ((drawPre (fun c => decide (c.et = 2 ∧ scanOp o.i.toNat = 0)) c x).stick fl))) ∧
  Computes (.wid o) (.word o.d) noPre (fun c l _ => (widRead c l o.i.toNat, 0))

/-- R205 to R209. MAND, MOR, MXOR, MANDN, MCNT, MFIND, MGET, MSET, MEXEC complete: whole masks, the count and the first lane
of a mask, a bit per lane or one word, and EXEC exchanged within the owned lanes. -/
def Obligations.MaskOperations : Prop := ∀ o : FR,
  let bit (c : Ctx) (x : Byte) (l : Nat) : Bool := (c.m x.toNat).getLsbD l
  SetsMask (.mand o) o.d.toNat (fun c l => bit c o.a l && bit c o.b l) (fun c x => c.passes x) ∧
  SetsMask (.mor o) o.d.toNat (fun c l => bit c o.a l || bit c o.b l) (fun c x => c.passes x) ∧
  SetsMask (.mxor o) o.d.toNat (fun c l => bit c o.a l != bit c o.b l) (fun c x => c.passes x) ∧
  SetsMask (.mandn o) o.d.toNat (fun c l => bit c o.a l && !bit c o.b l) (fun c x => c.passes x) ∧
  Computes (.mcnt o) (.word o.d) noPre (fun c _ _ => (((List.range c.team.size).filter (bit c o.a)).length, 0)) ∧
  Computes (.mfind o) (.word o.d) noPre (fun c _ _ =>
    ((((List.range c.team.size).filter (bit c o.a)).find? fun l => decide (c.g o.b ≤ l)).getD 0xFFFFFFFF, 0)) ∧
  Computes (.mget o) (.word o.d) noPre (fun c l _ =>
    (if o.d.toNat < 192 then (if bit c o.a l then 1 else 0)
      else (c.m o.a.toNat).toNat / 2 ^ (32 * (c.g o.b % 32)) % 2 ^ 32, 0)) ∧
  (o.a.toNat < 192 → WritesMask (.mset o) o.d (fun c l => (decide (c.src o.a.toNat l ≠ 0), 0))) ∧
  (192 ≤ o.a.toNat → ∀ s t p g, Ready (.mset o) s t p g →
    let c := issueCtx (.mset o) s t p g
    ∃ u, exec (.mset o) s = .next u ∧
      (∀ l < 1024, (u.reg t.id .m o.d.toNat 0).testBit l =
        if l / 32 = c.g o.b % 32 then (c.src o.a.toNat 0).testBit (l % 32) && t.present.getLsbD l
        else (s.reg t.id .m o.d.toNat 0).testBit l) ∧
      Frame s u t.id [(.m, o.d.toNat)] c.passes) ∧
  SetsMask (.mexec o) o.d.toNat (fun c l => c.sp.exec.getLsbD l) (fun c x =>
    (c.passes x).modSplit c.uid fun q => { q with exec := c.m o.a.toNat &&& c.sp.own })

/-! ### MODE, control flow (R30, R35, R296 to R310) -/

/-- R35. SETMODE and SETMODEH complete on a value MODE may take: SETMODE writes [15:0], or all of it with EXT; SETMODEH
writes [31:16].
R44, R302. NOP and LAND complete and do nothing but go on. -/
def Obligations.ModeNopLand : Prop :=
  (∀ o : FK, ∀ s t p g,
    (∀ x : Word, x = (match o.ext with
        | some e => BitVec.ofNat 32 (e.imm.toNat % 65536 * 65536 + o.k.toNat)
        | none => BitVec.ofNat 32 (p.mode.toNat / 65536 * 65536 + o.k.toNat)) →
      Ready (.setmode o) s t p g → modeReserved x = false →
      ∃ u, exec (.setmode o) s = .next u ∧
        Frame s u t.id [] fun y => (issueCtx (.setmode o) s t p g).passes (y.modSplit p.uid fun q => { q with mode := x })) ∧
    (∀ x : Word, x = BitVec.ofNat 32 (o.k.toNat * 65536 + p.mode.toNat % 65536) →
      Ready (.setmodeh o) s t p g → modeReserved x = false →
      ∃ u, exec (.setmodeh o) s = .next u ∧
        Frame s u t.id [] fun y => (issueCtx (.setmodeh o) s t p g).passes (y.modSplit p.uid fun q => { q with mode := x }))) ∧
  (∀ o : FN, ∀ s t p g,
    (Ready (.nop o) s t p g → ∃ u, PassesBy (.nop o) s u t (issueCtx (.nop o) s t p g)) ∧
    (Ready (.land o) s t p g → ∃ u, PassesBy (.land o) s u t (issueCtx (.land o) s t p g)))

/-- R303. BRA, BRNZ, BRZ, BRANY, BRNONE go to their target when their condition holds and on otherwise; JSET sets PJ. -/
def Obligations.UniformBranches : Prop := ∀ s t p g,
  (∀ o, Ready (.bra o) s t p g → let c := issueCtx (.bra o) s t p g
    ∃ u, JumpsTo (.bra o) s u t c (p.pc + (o.j.signExtend 32 <<< 2)) [] id) ∧
  (∀ o, Ready (.brnz o) s t p g → let c := issueCtx (.brnz o) s t p g
    ∃ u, if c.g o.a ≠ 0 then JumpsTo (.brnz o) s u t c (p.pc + (o.off.signExtend 32 <<< 2)) [] id
      else PassesBy (.brnz o) s u t c) ∧
  (∀ o, Ready (.brz o) s t p g → let c := issueCtx (.brz o) s t p g
    ∃ u, if c.g o.a = 0 then JumpsTo (.brz o) s u t c (p.pc + (o.off.signExtend 32 <<< 2)) [] id
      else PassesBy (.brz o) s u t c) ∧
  (∀ o, Ready (.brany o) s t p g → let c := issueCtx (.brany o) s t p g
    ∃ u, if c.m o.mask.toNat &&& c.act ≠ 0 then JumpsTo (.brany o) s u t c (p.pc + (o.off.signExtend 32 <<< 2)) [] id
      else PassesBy (.brany o) s u t c) ∧
  (∀ o, Ready (.brnone o) s t p g → let c := issueCtx (.brnone o) s t p g
    ∃ u, if c.m o.mask.toNat &&& c.act = 0 then JumpsTo (.brnone o) s u t c (p.pc + (o.off.signExtend 32 <<< 2)) [] id
      else PassesBy (.brnone o) s u t c) ∧
  (∀ o, Ready (.jset o) s t p g → let c := issueCtx (.jset o) s t p g
    ∃ u, exec (.jset o) s = .next u ∧
      Frame s u t.id [] fun x => c.passes (x.modSplit c.uid fun q => { q with pj := some (p.pc + (o.j.signExtend 32 <<< 2)) }))

/-- R306. CALL and CALLI put the address of the next instruction into g62 and go to the target; RET goes to g62. CALLI
is stated for a target whose word is fetched and is LAND. -/
def Obligations.CallsAndReturns : Prop := ∀ s t p g,
  (∀ o, Ready (.call o) s t p g → let c := issueCtx (.call o) s t p g
    ∃ u, JumpsTo (.call o) s u t c (p.pc + (o.j.signExtend 32 <<< 2)) [(.g, 62)] id ∧
      (s.armedTeam c = false → u.reg t.id .g 62 0 = (p.pc + 4).toNat)) ∧
  (∀ o, Ready (.calli o) s t p g → let c := issueCtx (.calli o) s t p g
    c.g o.a % 4 = 0 →
    (issueState (.calli o) s t p).landing c (BitVec.ofNat 32 (c.g o.a)) = (issueState (.calli o) s t p, .land) →
    ∃ u, JumpsTo (.calli o) s u t c (BitVec.ofNat 32 (c.g o.a)) [(.g, 62)] id ∧
      (s.armedTeam c = false → u.reg t.id .g 62 0 = (p.pc + 4).toNat)) ∧
  (∀ o, Ready (.ret o) s t p g → let c := issueCtx (.ret o) s t p g
    c.gAt 254 0 % 4 = 0 → ∃ u, JumpsTo (.ret o) s u t c (BitVec.ofNat 32 (c.gAt 254 0)) [] id)

/-- R296, R304, R305. BRM with no taking lane goes on, with no other active lane goes to the target, and otherwise the
split divides: its taking lanes go to the target, the rest of its lanes on. JMPI with no active lane goes on, with one
target goes there, with several divides the split, the lanes of each target going there, the rest with the first (stated where
the targets' words are LAND and already fetched); both consume the pending join.
What folds into PSIG is the reading of log 12. -/
def Obligations.Divergence : Prop := ∀ s t p g,
  (∀ o, Ready (.brm o) s t p g → let c := issueCtx (.brm o) s t p g
    let taken := c.act &&& c.m o.mask.toNat
    let target := p.pc + (o.off.signExtend 32 <<< 2)
    (taken = 0 → ∃ u, exec (.brm o) s = .next u ∧
      Frame s u t.id [] fun x => c.passes (x.modSplit c.uid fun q => { q with pj := none })) ∧
    (taken ≠ 0 → c.act &&& ~~~taken = 0 → ∃ u, exec (.brm o) s = .next u ∧
      Frame s u t.id [] fun x => x.modSplit c.uid fun q => { q with pj := none, pc := target, st := .ready, busy := none }) ∧
    (taken ≠ 0 → c.act &&& ~~~taken ≠ 0 → t.handler = none → p ∈ t.splits → t.deferred.length ≤ g.spill →
      (p.pj = none ∨ t.joins.length < 16) → 1 ≤ t.freeSlots + (g.spill - t.deferred.length) →
      -- where no slot is free, the second part goes to the spill area, whose entry holds what R299 says
      (1 ≤ t.freeSlots ∨ (p.pc.toNat % 4 = 0 ∧ modeReserved p.mode = false)) →
      ∃ u x a b, exec (.brm o) s = .next u ∧ u.team? t.id = some x ∧ a ∈ x.live ∧ b ∈ x.live ∧
        a.own = p.own &&& ~~~taken ∧ a.pc = p.pc + 4 ∧ a.exec = a.own &&& p.exec ∧
        b.own = taken ∧ b.pc = target ∧ b.exec = b.own &&& p.exec ∧ a.mode = p.mode ∧ b.mode = p.mode ∧
        a.pj = none ∧ b.pj = none ∧ a.uid = s.nextId ∧ b.uid = s.nextId + 1)) ∧
  (∀ o, Ready (.jmpi o) s t p g → let c := issueCtx (.jmpi o) s t p g
    (c.lanes = [] → ∃ u, exec (.jmpi o) s = .next u ∧
      Frame s u t.id [] fun x => c.passes (x.modSplit c.uid fun q => { q with pj := none })) ∧
    (∀ target : Word, c.lanes ≠ [] → target.toNat % 4 = 0 → (∀ l ∈ c.lanes, c.src o.a.toNat l = target.toNat) →
      (issueState (.jmpi o) s t p).landing c target = (issueState (.jmpi o) s t p, .land) →
      ∃ u, JumpsTo (.jmpi o) s u t c target [] fun x => x.modSplit c.uid fun q => { q with pj := none }) ∧
    (let target (l : Nat) : Word := BitVec.ofNat 32 (c.src o.a.toNat l)
      let targets := (c.lanes.map target).eraseDups
      2 ≤ targets.length → (∀ x ∈ targets, x.toNat % 4 = 0) →
      (∀ x ∈ targets, (issueState (.jmpi o) s t p).landing c x = (issueState (.jmpi o) s t p, .land)) →
      t.handler = none → p ∈ t.splits → t.deferred.length ≤ g.spill → (p.pj = none ∨ t.joins.length < 16) →
      targets.length - 1 ≤ t.freeSlots + (g.spill - t.deferred.length) →
      (targets.length - 1 ≤ t.freeSlots ∨ modeReserved p.mode = false) →
      ∃ u x, exec (.jmpi o) s = .next u ∧ u.team? t.id = some x ∧
        ∀ k y, targets[k]? = some y → ∃ a ∈ x.live, a.uid = s.nextId + k ∧ a.pc = y ∧ a.mode = p.mode ∧ a.pj = none ∧
          a.exec = a.own &&& p.exec ∧
          a.own = maskOf 1024 (c.lanes.filter fun l => decide (target l = y)) ||| (if k = 0 then p.own &&& ~~~c.act else 0)))

/-- R301, R307, R308, R310. JOIN at no record of its PC goes on; the first of several members waits; the last member, with
none waiting, goes on behind the JOIN with all its lanes and the saved MODE; a later arrival gives its lanes to the waiting
host and goes, and with the last of them the host goes on behind the JOIN. YIELD goes on as the youngest, with the stamp of
log 12. EXIT of one of several splits takes its lanes from the team; EXIT of the last ends the team. BAR of a team of one
split makes the team arrive, and waits where another team of the group is still to come; where none is, the phase flips and
every split that waits there goes on behind its BAR. -/
def Obligations.JoinYieldExitBar : Prop := ∀ s t p g,
  (∀ o, Ready (.join o) s t p g → let c := issueCtx (.join o) s t p g
    (p.jlink = none → ∃ u, PassesBy (.join o) s u t c) ∧
    (∀ j r, p.jlink = some j → t.joinRec? j = some r → r.jpc ≠ p.pc → ∃ u, PassesBy (.join o) s u t c) ∧
    (∀ j r, p.jlink = some j → t.joinRec? j = some r → r.jpc = p.pc → s.arming t.id p.uid = false → r.host = none →
      2 ≤ r.members → (∃ q ∈ t.live, q.uid ≠ p.uid ∧ q.st ≠ .barWait ∧ q.st ≠ .joinWait) →
      ∃ u q, exec (.join o) s = .next u ∧ u.splitOf t.id p.uid = some q ∧ q.st = .joinWait ∧ q.own = p.own ∧ q.pc = p.pc) ∧
    (∀ j r, p.jlink = some j → t.joinRec? j = some r → r.jpc = p.pc → s.arming t.id p.uid = false → r.host = none →
      r.members = 1 →
      ∃ u q, exec (.join o) s = .next u ∧ u.splitOf t.id p.uid = some q ∧ q.pc = p.pc + 4 ∧ q.exec = p.own ∧
        q.mode = r.smode ∧ q.jlink = r.parent ∧ q.st = .ready) ∧
    (∀ j r h, p.jlink = some j → t.joinRec? j = some r → r.jpc = p.pc → s.arming t.id p.uid = false → r.host = some h.uid →
      h ∈ t.live → h.st = .joinWait → h.uid ≠ p.uid → (t.live.map (·.uid)).Nodup → 1 ≤ r.members →
      (2 ≤ r.members → ∃ q ∈ t.live, q.uid ≠ p.uid ∧ q.uid ≠ h.uid ∧ q.st ≠ .barWait ∧ q.st ≠ .joinWait) →
      ∃ u x q, exec (.join o) s = .next u ∧ u.team? t.id = some x ∧ (∀ y ∈ x.live, y.uid ≠ p.uid) ∧ q ∈ x.live ∧ q.uid = h.uid ∧
        q.own = h.own ||| p.own ∧ q.age = min h.age p.age ∧
        (if r.members = 1 then q.st = .ready ∧ q.pc = p.pc + 4 ∧ q.exec = q.own ∧ q.mode = r.smode ∧ q.jlink = r.parent ∧ q.pj = none
          else q.st = .joinWait ∧ q.pc = h.pc))) ∧
  (∀ o, Ready (.yield o) s t p g → let c := issueCtx (.yield o) s t p g
    ∃ u q, exec (.yield o) s = .next u ∧ u.splitOf t.id p.uid = some q ∧ q.pc = p.pc + 4 ∧ q.age = t.stamp ∧ q.first = false ∧
      Frame s u t.id [] fun x =>
        c.passes (x.modSplit c.uid fun q => { q with age := t.stamp, first := false })) ∧
  (∀ o, Ready (.exit o) s t p g → t.handler = none → t.depth = 0 → p ∈ t.splits →
    ∃ u x, exec (.exit o) s = .next u ∧ u.team? t.id = some x ∧
      (if ∃ q ∈ t.live, q.uid ≠ p.uid then (∀ q ∈ x.live, q.uid ≠ p.uid) ∧ x.present = t.present &&& ~~~p.own
        else x.live = [] ∧ x.present = 0 ∧ x.residence = .ended)) ∧
  (∀ o, Ready (.bar o) s t p g → (issueState (.bar o) s t p).performedFor t.id p.uid 2 = true → t.splits = [p] → t.deferred = [] → t.handler = none →
    t.arrived = none →
    (sget (0, 0) g.bars o.i.toNat).2 + 1 < (s.livingTeams g.id).length →
    ∃ u x q, exec (.bar o) s = .next u ∧ u.team? t.id = some x ∧ x.arrived = some o.i.toNat ∧
      u.splitOf t.id p.uid = some q ∧ q.st = .barWait ∧ q.barid = o.i.toNat ∧ q.pc = p.pc) ∧
  (∀ o, Ready (.bar o) s t p g → (issueState (.bar o) s t p).performedFor t.id p.uid 2 = true → t.splits = [p] → t.deferred = [] → t.handler = none →
    t.arrived = none →
    (sget (0, 0) g.bars o.i.toNat).2 + 1 = (s.livingTeams g.id).length →
    ∃ u h q, exec (.bar o) s = .next u ∧ u.group? g.id = some h ∧
      sget (0, 0) h.bars o.i.toNat = (1 - (sget (0, 0) g.bars o.i.toNat).1, 0) ∧
      u.splitOf t.id p.uid = some q ∧ q.st = .ready ∧ q.pc = p.pc + 4 ∧
      ∀ x ∈ s.teams, x.group = g.id → x.arrived = some o.i.toNat → ∀ y ∈ x.live, y.st = .barWait → y.barid = o.i.toNat →
        ∃ x' ∈ u.teams, x'.id = x.id ∧ x'.arrived = none ∧ ∃ y' ∈ x'.live, y'.uid = y.uid ∧ y'.st = .ready ∧ y'.pc = y.pc + 4)

/-! ### Memory instructions (R134 to R155) -/

/-- R137, R138, R140. LD, LDA, LDK, ST, STR: where the record forms the addresses (bounds, alignment, rights and
translations in order) and path and queues have room, the access is in flight with one request per line and owes its
registers; nothing has been read or written yet. -/
def Obligations.GlobalAccessesIssue : Prop := ∀ o : FMem,
  let uni := decide (192 ≤ o.d.toNat ∧ 192 ≤ o.a.toNat)
  let idx (c : Ctx) (store : Bool) : List (Nat × LaneAcc) :=
    if store then c.lanes.map fun l =>
      (c.src o.a.toNat l, { lane := l, off := 0, data := c.data o.d l (wRegs o.w.toNat) % 256 ^ wBytes o.w.toNat })
    else (if uni then [0] else c.lanes).map fun l => (c.src o.a.toNat l, { lane := l, off := 0 })
  let rec' (c : Ctx) : BufRec := BitVec.ofNat 128 (c.rd .b o.r.toNat 0)
  let loads (path : Nat) : AccSpec := { path := path, n := wBytes o.w.toNat, uniform := uni, recNo := o.r.toNat }
  let stores : AccSpec := { path := 1, n := wBytes o.w.toNat, store := true, need := { w := true }, recNo := o.r.toNat }
  let owed (c : Ctx) : Option Owed := some (c.owes o.d (wRegs o.w.toNat))
  Launches (.ld o) (fun _ => loads 0) (fun s c => s.formGlobal c (loads 0) (rec' c) false (idx c false)) owed (fun _ => .load o.w.toNat) ∧
  Launches (.lda o) (fun _ => loads 0) (fun s c => s.formGlobal c (loads 0) (rec' c) false (idx c false)) owed (fun _ => .load o.w.toNat) ∧
  Launches (.ldk o) (fun _ => loads 6) (fun s c => s.formGlobal c (loads 6) (rec' c) true (idx c false)) owed (fun _ => .load o.w.toNat) ∧
  Launches (.st o) (fun _ => stores) (fun s c => s.formGlobal c stores (rec' c) false (idx c true)) (fun _ => none) (fun _ => .store) ∧
  Launches (.str o) (fun _ => stores) (fun s c => s.formGlobal c stores (rec' c) false (idx c true)) (fun _ => none) (fun _ => .store)

/-- R141, R142. LDS, STS, LDY, STY, LDL, STL, LDP, STP: where every lane's location exists, is in bounds, aligned and
permitted, the access is in flight with one request per line of the level and owes its registers. -/
def Obligations.LocalAccessesIssue : Prop := ∀ o : FL,
  let uni := decide (192 ≤ o.d.toNat ∧ 192 ≤ o.a.toNat)
  let n := wBytes o.w.toNat
  let reads (lvl : Level) (s : State) (c : Ctx) : Formed :=
    s.formLocal c lvl (4 * o.s.toNat) n n false uni ((if uni then [0] else c.lanes).map fun l => (c.src o.a.toNat l, { lane := l, off := 0 }))
  let writes (lvl : Level) (s : State) (c : Ctx) : Formed :=
    s.formLocal c lvl (4 * o.s.toNat) n n true false (c.lanes.map fun l =>
      (c.src o.a.toNat l, { lane := l, off := 0, data := c.data o.d l (wRegs o.w.toNat) % 256 ^ n }))
  let owed (c : Ctx) : Option Owed := some (c.owes o.d (wRegs o.w.toNat))
  let load (i : Instr) (lvl : Level) : Prop :=
    Launches i (fun _ => ⟨lvl.path, n, false, { r := true }, uni, 0⟩) (reads lvl) owed (fun _ => .load o.w.toNat)
  let store (i : Instr) (lvl : Level) : Prop :=
    Launches i (fun _ => ⟨lvl.path, n, true, {}, false, 0⟩) (writes lvl) (fun _ => none) (fun _ => .store)
  load (.lds o) .win ∧ load (.ldy o) .yard ∧ load (.ldl o) .loft ∧ load (.ldp o) .priv ∧
  store (.sts o) .win ∧ store (.sty o) .yard ∧ store (.stl o) .loft ∧ store (.stp o) .priv

/-- R144 to R149, R210. ATOM, ATAGG, LATOM, MSTS, MLDS put their access in flight: ATOM and LATOM with each lane's operands,
ATAGG with one request that adds the sum of the lanes (with no active lane it adds nothing and sets no BOUND), MSTS and MLDS with the words
of the mask, where the whole mask lies in the window. -/
def Obligations.AtomicsIssue : Prop :=
  (∀ o : FMem,
    let atom (c : Ctx) : AccSpec :=
      { path := 1, n := atomWidth c.et, store := true, need := { r := true, w := true }, recNo := o.r.toNat }
    let rec' (c : Ctx) : BufRec := BitVec.ofNat 128 (c.rd .b o.r.toNat 0)
    let parts (c : Ctx) : List (Nat × Nat) := c.lanes.map fun l => (l, c.data o.d l (atomWidth c.et / 4))
    let agg (s : State) (c : Ctx) : Formed := s.formGlobal c { atom c with uniform := true } (rec' c) false
      [(c.g o.a, { lane := 0, off := 0, data := ((parts c).map (·.2)).sum % 256 ^ atomWidth c.et })]
    Launches (.atom o) atom
      (fun s c => s.formGlobal c (atom c) (rec' c) false
        (c.lanes.map fun l => (c.src o.a.toNat l, atomOperands c o.w.toNat c.et o.d l)))
      (fun c => some ⟨.v, o.d.toNat, atomWidth c.et / 4, c.act⟩) (fun c => .atomic o.w.toNat c.et) ∧
    Launches (.atagg o) (fun c => { atom c with uniform := true })
      (fun s c => if c.lanes = [] then .hold s else agg s c)
      (fun c => some ⟨.v, o.d.toNat, atomWidth c.et / 4, c.act⟩) (fun c => .atagg c.et) ∧
    (∀ s t p g s1 sup reqs, Ready (.atagg o) s t p g → let c := issueCtx (.atagg o) s t p g
      c.lanes = [] → (issueState (.atagg o) s t p).counter t.id 1 < 63 →
      agg (issueState (.atagg o) s t p) c = .ok s1 sup reqs →
      ∃ u f, exec (.atagg o) s = .next u ∧ (∀ sp a, u.rdByte sp a = s1.rdByte sp a) ∧
        u.flights = s1.flights ++ [f] ∧ f.reqs = [] ∧ f.path = 1 ∧ f.dst = none ∧
        (∀ y, u.team? t.id = some y → y.sticky = t.sticky) ∧ ∀ id f r l, u.reg id f r l = s1.reg id f r l)) ∧
  (∀ o : FL,
    let lvl := latomLevel (o.s.toNat % 4)
    let len (c : Ctx) : Nat := Nat.max 4 (c.team.size / 8)
    let words (c : Ctx) (base : Nat) (data : Nat → Nat) : List (Nat × LaneAcc) :=
      (List.range (len c / 4)).map fun k => (base + 4 * k, { lane := k, off := 0, data := data k })
    let whole (s : State) (c : Ctx) (base : Nat) (write : Bool) (f : Formed) : Formed :=
      match s.formLocal c .win 0 (len c) (Nat.min (len c) 16) write true [(base, { lane := 0, off := 0 })] with
      | .ok _ _ _ => f
      | _ => .hold s
    Launches (.latom o) (fun c => ⟨lvl.path, atomWidth c.et, true, { r := true, w := true }, false, 0⟩)
      (fun s c => s.formLocal c lvl 0 (atomWidth c.et) (atomWidth c.et) true false
        (c.lanes.map fun l => (c.src o.a.toNat l, atomOperands c (o.s.toNat / 4) c.et o.d l)))
      (fun c => some ⟨.v, o.d.toNat, atomWidth c.et / 4, c.act⟩) (fun c => .atomic (o.s.toNat / 4) c.et) ∧
    Launches (.msts o) (fun _ => ⟨2, 4, true, {}, true, 0⟩)
      (fun s c => whole s c (c.g o.a + 4 * o.s.toNat) true (s.formLocal c .win 0 4 4 true true
        (words c (c.g o.a + 4 * o.s.toNat) fun k => (c.m o.d.toNat).toNat / 2 ^ (32 * k) % 2 ^ 32)))
      (fun _ => none) (fun _ => .store) ∧
    Launches (.mlds o) (fun _ => ⟨2, 4, false, { r := true }, true, 0⟩)
      (fun s c => whole s c (c.g o.d + 4 * o.s.toNat) false (s.formLocal c .win 0 4 4 false true
        (words c (c.g o.d + 4 * o.s.toNat) fun _ => 0)))
      (fun c => some ⟨.m, o.a.toNat, 1, lanesBelow c.team.size⟩) (fun _ => .loadMask))

/-- R150, R153, R154, R104, R106. ARM puts a registration in flight, its old one gone. WAITMON returns 0 from a fired monitor,
4 from a disarmed one, and waits at an armed one until its deadline. FENCE of scope 0 only goes on; of another scope it
becomes the split's incomplete fence (strict after four restarts). CMAINT at scope 3 or less only goes on; at a wider
scope its work is in flight. ICINV notes its range; the split issues again when it is done. -/
def Obligations.MonitorsFencesMaintenance : Prop :=
  (∀ o : FMem, ∀ s t p g s1 sup r reqs, Ready (.arm o) s t p g → let c := issueCtx (.arm o) s t p g
    let a : AccSpec := { path := 0, n := 4, uniform := true, recNo := o.r.toNat }
    (issueState (.arm o) s t p).counter t.id 0 < 63 →
    (((issueState (.arm o) s t p).disarm t.id p.uid).dropArms t.id p.uid).formGlobal c a (BitVec.ofNat 128 (c.rd .b o.r.toNat 0)) false
      [(c.g o.a, { lane := 0, off := 0 })] = .ok s1 sup (r :: reqs) →
    (∀ q ∈ r :: reqs, q.st ≠ .parked) → s1.readSetFull c (r :: reqs) = false →
    ∃ u f, exec (.arm o) s = .next u ∧ f ∈ u.flights ∧ f.kind = .arm ∧ f.reqs = r :: reqs ∧ f.team = t.id ∧ f.split = p.uid ∧
      (∀ x ∈ u.monRegs, ¬(x.2.1 = t.id ∧ x.2.2.1 = p.uid)) ∧
      (∀ sp a, u.rdByte sp a = s1.rdByte sp a)) ∧
  (∀ o : FI, ∀ s t p g, Ready (.waitmon o) s t p g → let c := issueCtx (.waitmon o) s t p g
    s.arming t.id p.uid = false →
    (p.mon = .fired → ∃ u, exec (.waitmon o) s = .next u ∧ u.field t.id o.d.toNat 0 = 0 ∧
      Frame (s.disarm t.id p.uid) u t.id [fieldReg o.d.toNat] c.passes) ∧
    (p.mon = .disarmed → ∃ u, exec (.waitmon o) s = .next u ∧ u.field t.id o.d.toNat 0 = 4 ∧
      Frame s u t.id [fieldReg o.d.toNat] c.passes) ∧
    (p.mon = .armed → ∃ u, exec (.waitmon o) s = .next u ∧
      Frame s u t.id [] fun x => x.modSplit p.uid fun q => { q with
        st := .monWait, monWait := some ⟨o.d.toNat - 192, if c.g o.a = 0 then none else some (s.time + c.g o.a), none⟩ })) ∧
  (∀ o : FFence, ∀ s t p g,
    let fence (i : Instr) (kind : Nat) : Prop := Ready i s t p g → let c := issueCtx i s t p g
      ∃ u, exec i s = .next u ∧ Frame s u t.id [] fun x => c.passes (if o.scope = 0 then x else x.modSplit p.uid fun q =>
        { q with fence := some { kind := if kind ≤ 1 ∧ p.restartPc = p.pc ∧ 4 ≤ p.restarts then 3 else kind
                                 scope := o.scope.toNat, pc := p.pc, before := s.nextId } })
    fence (.fenceFull o) 0 ∧ fence (.fenceAcq o) 1 ∧ fence (.fenceRel o) 2 ∧ fence (.fenceStrict o) 3) ∧
  (∀ o : FI, ∀ s t p g, Ready (.cmaint o) s t p g → let c := issueCtx (.cmaint o) s t p g
    (o.i.toNat % 8 ≤ 3 → ∃ u, PassesBy (.cmaint o) s u t c) ∧
    (4 ≤ o.i.toNat % 8 → o.i.toNat / 32 = 2 → (issueState (.cmaint o) s t p).counter t.id 1 < 63 →
      s.readSetFull c [] = false →
      ∃ u f, exec (.cmaint o) s = .next u ∧ f ∈ u.flights ∧ f.team = t.id ∧ f.path = 1 ∧
        f.kind = .cmaint (o.i.toNat / 8 % 4) 2 (o.i.toNat % 8)) ∧
    (∀ s1 cc line pte, 4 ≤ o.i.toNat % 8 → o.i.toNat / 32 ≤ 1 → (issueState (.cmaint o) s t p).counter t.id 1 < 63 →
      let size := if o.i.toNat / 32 = 0 then 64 else 4096
      (issueState (.cmaint o) s t p).lineOf (some t.core) g.asid (c.pair o.a / size * size)
        { r := decide (o.i.toNat / 8 % 4 ≠ 1), w := decide (o.i.toNat / 8 % 4 = 1), classFirst := true } = (s1, .ok cc line pte) →
      s1.readSetFull c [] = false →
      ∃ u f, exec (.cmaint o) s = .next u ∧ f ∈ u.flights ∧ f.team = t.id ∧ f.path = 1 ∧
        f.kind = .cmaint (o.i.toNat / 8 % 4) (o.i.toNat / 32) (o.i.toNat % 8) ∧
        f.zero = (List.range (size / 64)).map (line + ·))) ∧
  (∀ o : FR, ∀ s t p g, Ready (.icinv o) s t p g → let c := issueCtx (.icinv o) s t p g
    let va := c.pair o.a
    let len := c.g o.b
    ∃ u, exec (.icinv o) s = .next u ∧ Frame s u t.id [] fun x => c.passes (x.modSplit p.uid fun q => { q with
      icinv := some (if len = 0 then (0, 0) else if 2 ^ 24 < len then (0, 2 ^ 48)
        else (va / 64 * 64, (va + len + 63) / 64 * 64)) }))

/-- R80 to R82, R67 to R70. BSET and BGET move a record between a b register and four g registers, BNAR narrows one, BLD
loads one; PROMOTE and DEMOTE of a page of far memory queue their request at its bank and owe g[D], and of a page in the
near aperture answer status 4 at once. -/
def Obligations.RecordsAndPromotion : Prop :=
  (∀ o : FR, ∀ s t p g,
    (Ready (.bset o) s t p g → let c := issueCtx (.bset o) s t p g
      ∃ u, exec (.bset o) s = .next u ∧
        u.reg t.id .b o.d.toNat 0 = (c.gAt o.a 0 + c.gAt o.a 1 * 2 ^ 32 + c.gAt o.a 2 * 2 ^ 64 + c.gAt o.a 3 * 2 ^ 96) % 2 ^ 128 ∧
        Frame s u t.id [(.b, o.d.toNat)] c.passes) ∧
    (Ready (.bget o) s t p g → let c := issueCtx (.bget o) s t p g
      ∃ u, exec (.bget o) s = .next u ∧
        (∀ k < 4, u.field t.id (o.d.toNat + k) 0 = c.rd .b o.a.toNat 0 / 2 ^ (32 * k) % 2 ^ 32) ∧
        Frame s u t.id (fieldRegs o.d.toNat 4) c.passes) ∧
    (∀ r, Ready (.bnar o) s t p g → let c := issueCtx (.bnar o) s t p g
      bufNarrow (BitVec.ofNat 128 (c.rd .b o.a.toNat 0)) (c.gAt o.b 0) (c.gAt o.b 1) = some r →
      ∃ u, exec (.bnar o) s = .next u ∧ u.reg t.id .b o.d.toNat 0 = r.toNat ∧ Frame s u t.id [(.b, o.d.toNat)] c.passes) ∧
    (∀ s1 cc line pte ch b row x, let va (c : Ctx) : Nat := (c.gAt o.a 0 + c.gAt o.a 1 % 65536 * 2 ^ 32) / 4096 * 4096
      let asks (i : Instr) (mk : Nat → BankReq) : Prop := Ready i s t p g → let c := issueCtx i s t p g
        (issueState i s t p).lineOf (some t.core) g.asid (va c) { r := true, anyOwner := true, anyKey := true } = (s1, .ok cc line pte) →
        s1.backing (line * 64) = .far x → s1.locate (line * 64) = some (ch, b, row) → s1.channelQueue ch < 16 →
        ∃ u, exec i s = .next u ∧ (sget {} u.banks (ch * 16 + b)).queue = (sget {} s1.banks (ch * 16 + b)).queue ++ [mk row] ∧
          (∀ y, u.team? t.id = some y → ⟨s1.nextId, p.uid, .g, o.d.toNat - 192, 1, 1⟩ ∈ y.awaits) ∧
          ∀ sp a, u.rdByte sp a = s1.rdByte sp a
      asks (.promote o) (fun row => .promote row (o.b.getLsbD 0) s1.nextId t.id) ∧
      asks (.demote o) (fun row => .demote row s1.nextId t.id)) ∧
    (∀ s1 cc line pte x i, (i = .promote o ∨ i = .demote o) → Ready i s t p g → let c := issueCtx i s t p g
      (issueState i s t p).lineOf (some t.core) g.asid ((c.gAt o.a 0 + c.gAt o.a 1 % 65536 * 2 ^ 32) / 4096 * 4096)
        { r := true, anyOwner := true, anyKey := true } = (s1, .ok cc line pte) →
      s1.backing (line * 64) = .near x →
      ∃ u, exec i s = .next u ∧ (∀ y, s1.team? t.id = some y → u.field t.id o.d.toNat 0 = 4))) ∧
  (∀ o : FMem, Launches (.bld o) (fun _ => { path := 0, n := 16, uniform := true, recNo := o.r.toNat })
    (fun s c => s.formGlobal c { path := 0, n := 16, uniform := true, recNo := o.r.toNat }
      (BitVec.ofNat 128 (c.rd .b o.r.toNat 0)) false [(c.g o.a, { lane := 0, off := 0 })])
    (fun _ => some ⟨.b, o.d.toNat, 1, 1⟩) (fun _ => .loadRec))

/-! ### System instructions and traps (R45 to R49, R311 to R326, R337, R352 to R364, R388, R402) -/

/-- R46, R48, R49. SREAD gives D the special register's value, or the latched high word, and latches or unlatches the high
words of CYCLE, TIME and PSIG. SWRITE of a value that changes no read-only bit writes MODE, RTIMER, WDL, CAUSE, EPC,
SSTAT or STICKY, and writes no other register; a flag that has been set in this cycle ends set in STICKY.
That SREAD of PSIG gives the issuing split's, and how CYCLE and TIME count, are the readings of log 12.
R49. SWRITE of a value that changes a read-only bit, or that MODE may not take, traps with code 19 or 14 and writes
nothing. -/
def Obligations.SpecialRegisters : Prop :=
  (∀ o : FE, ∀ s t p g,
    (Ready (.sread o) s t p g → let c := issueCtx (.sread o) s t p g
      let s0 := issueState (.sread o) s t p
      let idx := o.a.toNat
      let hi (k : Nat) : Option Word := some (BitVec.ofNat 32 (s0.special c k))
      ∃ u, exec (.sread o) s = .next u ∧
        (∀ l ∈ c.computing o.d, u.field t.id o.d.toNat l = (match idx, p.latCycle, p.latTime, p.latPsig with
          | 0x07, some w, _, _ => w.toNat
          | 0x09, _, some w, _ => w.toNat
          | 0x17, _, _, some w => w.toNat
          | _, _, _, _ => s0.special c idx) % 2 ^ 32) ∧
        Frame s u t.id [fieldReg o.d.toNat] fun x => c.passes (x.modSplit p.uid fun q =>
          { q with latCycle := if idx = 0x06 then hi 0x07 else if idx = 0x07 then none else q.latCycle
                   latTime := if idx = 0x08 then hi 0x09 else if idx = 0x09 then none else q.latTime
                   latPsig := if idx = 0x16 then hi 0x17 else if idx = 0x17 then none else q.latPsig })) ∧
    (Ready (.swrite o) s t p g → let c := issueCtx (.swrite o) s t p g
      let x := BitVec.ofNat 32 (c.g o.a)
      (x ^^^ BitVec.ofNat 32 ((issueState (.swrite o) s t p).special c o.d.toNat)) &&& ~~~(BitVec.ofNat 32 (writable o.d.toNat)) = 0 →
      (o.d.toNat = 0 → modeReserved x = false) →
      ∃ u y, exec (.swrite o) s = .next u ∧ (∀ sp a, u.rdByte sp a = s.rdByte sp a) ∧
        (∀ id f r l, u.reg id f r l = s.reg id f r l) ∧ u.team? t.id = some y ∧
        (∃ q, y.split? p.uid = some q ∧ q.mode = if o.d.toNat = 0x00 then x else p.mode) ∧
        y.rtimer = (if o.d.toNat = 0x0C then x else t.rtimer) ∧
        y.wdlLo = (if o.d.toNat = 0x0D then x else t.wdlLo) ∧
        y.wdl = (if o.d.toNat = 0x0E then x.toNat * 2 ^ 32 + t.wdlLo.toNat else t.wdl) ∧
        y.cause = (if o.d.toNat = 0x0F then x else t.cause) ∧
        y.epc = (if o.d.toNat = 0x10 then x else t.epc) ∧
        y.sstatLo = (if o.d.toNat = 0x11 then x else t.sstatLo) ∧
        y.sstatHi = (if o.d.toNat = 0x12 then x else t.sstatHi) ∧
        y.sticky = (if o.d.toNat = 0x18 then (((t.sticky &&& ~~~x) ||| t.raised) &&& 0x33F) ||| (x &&& 0x1F0000) else t.sticky) ∧
        y.rcount = t.rcount ∧ y.regpc = t.regpc ∧ y.trapv = t.trapv ∧ y.gran = t.gran ∧ y.present = t.present)) ∧
  (∀ o : FE, ∀ s t p g,
    Ready (.swrite o) s t p g → let c := issueCtx (.swrite o) s t p g
      let x := BitVec.ofNat 32 (c.g o.a)
      let changes := (x ^^^ BitVec.ofNat 32 ((issueState (.swrite o) s t p).special c o.d.toNat)) &&&
        ~~~(BitVec.ofNat 32 (writable o.d.toNat)) ≠ 0
      CanTrap s t p g 19 →
      (changes → ∃ u, exec (.swrite o) s = .next u ∧ TakesTrap s u t p 19 (encodingDetail (.swrite o)) c.act false p.pc) ∧
      (¬changes → o.d.toNat = 0 → modeReserved x = true →
        ∃ u, exec (.swrite o) s = .next u ∧ TakesTrap s u t p 14 (encodingDetail (.swrite o)) c.act false p.pc))

/-- R45. An instruction that starts and has an encoding fault enters the handler with the lowest code that applies, the
opcode and function in DETAIL and the active lanes in m15; nothing of its effect happens.
R355. In a handler JSET, JOIN, BAR, YIELD, CLAIM, RELEASE, REGION and NODE trap with code 151.
The order among the checks is the reading of log 10. -/
def Obligations.ChecksBeforeIssue : Prop :=
  (∀ i s t p g k,
    hasWords i = true → Starts i s t p g → lowest (encodingFaults i p.modeEtype t.gran) = some k → CanTrap s t p g k →
    ∃ u, exec i s = .next u ∧ TakesTrap s u t p k (encodingDetail i) (issueCtx i s t p g).act false p.pc) ∧
  (∀ i s t p g,
    Starts i s t p g → lowest (encodingFaults i p.modeEtype t.gran) = none → t.handler ≠ none →
    (∃ o, i = .jset o) ∨ (∃ o, i = .join o ∨ i = .yield o) ∨ (∃ o, i = .bar o) ∨
      (∃ o, i = .claim o ∨ i = .release o ∨ i = .region o ∨ i = .node o) →
    CanTrap s t p g 151 →
    ∃ u, exec i s = .next u ∧ TakesTrap s u t p 151 (i.op + 256 * (wordFunction i.word % 16)) (issueCtx i s t p g).act false p.pc)

/-- R357, R402, R45. TRAP enters the handler with code 288 + I and SKIP; BKPT with code 161 and SKIP; HALT of a team and a
misplaced EXT with an encoding fault of code 20 (3 with a guard slot) and 10 or 11.
HALT with a guard slot: code 3 is the reading of log 10. -/
def Obligations.TrapInstructions : Prop := ∀ s t p g,
  (∀ o, Ready (.trap o) s t p g → CanTrap s t p g (288 + o.d.toNat) → let c := issueCtx (.trap o) s t p g
    ∃ u, exec (.trap o) s = .next u ∧
      TakesTrap s u t p (288 + o.d.toNat) (if o.a.toNat = 0 then 0 else c.g o.a % 65536) c.act true p.pc) ∧
  (∀ o, Ready (.bkpt o) s t p g → CanTrap s t p g 161 → let c := issueCtx (.bkpt o) s t p g
    ∃ u, exec (.bkpt o) s = .next u ∧ TakesTrap s u t p 161 o.d.toNat c.act true p.pc) ∧
  (∀ o, Starts (.halt o) s t p g → CanTrap s t p g 20 → let c := issueCtx (.halt o) s t p g
    ∃ u, exec (.halt o) s = .next u ∧
      TakesTrap s u t p (if o.gs = 0 then 20 else 3) (encodingDetail (.halt o)) c.act false p.pc) ∧
  (∀ o, Starts (.ext o) s t p g → CanTrap s t p g 11 → let c := issueCtx (.ext o) s t p g
    ∃ u, exec (.ext o) s = .next u ∧
      TakesTrap s u t p (if o.marked then 10 else 11) (encodingDetail (.ext o)) c.act false p.pc)

/-- R174. An enabled exception of ADD, SUB, MUL, NEG under SAT and of FADD, FMUL, FMA, FRCP, FSQRT, FEXP2 traps with the code
of the exception and the type group, the flags in DETAIL, and writes no result. -/
def Obligations.ArithmeticTraps : Prop :=
  (∀ o : FR,
    ArithTraps (.add o) (.typed o.d) (fun c => typeGroup c.et) (fun c l k => c.fits (c.int o.a l k + c.int o.b l k)) ∧
    ArithTraps (.sub o) (.typed o.d) (fun c => typeGroup c.et) (fun c l k => c.fits (c.int o.a l k - c.int o.b l k)) ∧
    ArithTraps (.mul o) (.typed o.d) (fun c => typeGroup c.et) (fun c l k => c.fits (c.int o.a l k * c.int o.b l k)) ∧
    ArithTraps (.fadd o) (.typed o.d) (fun c => typeGroup c.et) (fun c l k =>
      addFV (etFmt c.et) (c.round false l k) (c.flt o.a l k) (c.flt o.b l k) [c.flt o.a l k, c.flt o.b l k]) ∧
    ArithTraps (.fmul o) (.typed o.d) (fun c => typeGroup c.et) (fun c l k =>
      mulFV (etFmt c.et) (c.round false l k) (c.flt o.a l k) (c.flt o.b l k)) ∧
    ArithTraps (.fma o) (.typed o.d) (fun c => typeGroup c.et) (fun c l k =>
      fmaFV (etFmt c.et) (c.round false l k) (c.flt o.a l k) (c.flt o.b l k) (c.flt o.d l k)
        [c.flt o.a l k, c.flt o.b l k, c.flt o.d l k])) ∧
  (∀ o : FF,
    let on (f : Fmt → RMode → FV → Nat × Nat) (c : Ctx) (l k : Nat) : Nat × Nat :=
      f (etFmt c.et) (c.round false l k) (c.flt o.a l k)
    ArithTraps (.neg o) (.typed o.d) (fun c => typeGroup c.et) (fun c l k => c.fits (-c.int o.a l k)) ∧
    ArithTraps (.frcp o) (.typed o.d) (fun c => typeGroup c.et) (on rcpFV) ∧
    ArithTraps (.fsqrt o) (.typed o.d) (fun c => typeGroup c.et) (on sqrtFV) ∧
    ArithTraps (.fexp2 o) (.typed o.d) (fun c => typeGroup c.et) (on exp2FV))

/-- R358. TRET at depth 1 ends the handler: the split in SSTAT's slot, or the deferred split that trapped, goes on at EPC with
the saved MODE, m15 comes back and DEPTH is 0. At depth 2 the depth-1 set comes back and the handler goes on. With SKIP = 1 it
goes on behind the instruction at EPC, 8 bytes on where its first word is EXT and 4 otherwise (stated where that word is
already fetched). At depth 0 TRET traps with code 152. -/
def Obligations.TrapReturn : Prop := ∀ o : FE, ∀ s t p g, Ready (.tret o) s t p g → let c := issueCtx (.tret o) s t p g
  let goesOnAt (next : Word) : Prop :=
    (t.sstatHi.getLsbD 3 = false ∧ next = t.epc) ∨
    (t.sstatHi.getLsbD 3 = true ∧ ∃ w, (issueState (.tret o) s t p).fetch t.core g.asid (g.codeBase + t.epc.toNat) =
      (issueState (.tret o) s t p, .ok w) ∧ next = t.epc + (if isExt w then 8 else 4))
  (∀ next, t.depth = 1 → t.sstatHi.toNat / 64 = 0 → modeReserved t.sstatLo = false → goesOnAt next →
    ∃ u x, exec (.tret o) s = .next u ∧ u.team? t.id = some x ∧ x.handler = none ∧ x.depth = 0 ∧
      sget 0 x.m 15 = t.m15save &&& t.present ∧
      (∀ q ∈ t.splits, q.slot = t.sstatHi.toNat % 8 → (∀ r ∈ t.deferred, some r.uid ≠ t.trapped) →
        (∀ r ∈ t.live, r.uid = q.uid → r.monWait = none) →
        ∃ q' ∈ x.splits, q'.uid = q.uid ∧ q'.pc = next ∧ q'.mode = t.sstatLo) ∧
      (∀ q ∈ t.deferred, some q.uid = t.trapped → (∀ r ∈ t.live, r.uid = q.uid → r.monWait = none) →
        ∃ q' ∈ x.deferred, q'.uid = q.uid ∧ q'.pc = next ∧ q'.mode = t.sstatLo) ∧
      (∀ sp a, u.rdByte sp a = s.rdByte sp a)) ∧
  (∀ w next, t.depth = 2 → t.saved1 = some w → t.handler = some p → t.sstatHi.toNat / 64 = 0 → modeReserved t.sstatLo = false →
    goesOnAt next →
    ∃ u x h, exec (.tret o) s = .next u ∧ u.team? t.id = some x ∧ x.handler = some h ∧ h.pc = next ∧ h.mode = t.sstatLo ∧
      x.cause = w.cause ∧ x.epc = w.epc ∧ x.sstatLo = w.lo ∧ x.depth = 1 ∧ sget 0 x.m 15 = w.m15) ∧
  (t.depth = 0 → CanTrap s t p g 152 →
    ∃ u, exec (.tret o) s = .next u ∧ TakesTrap s u t p 152 0 c.act false p.pc)

/-- R311, R312, R337, R364. REGION of a team with one split and no join record starts a region. CLAIM gives a granule count
that is free and answers the new allotment, RELEASE gives granules back; 0 asks for the allotment. SETPERF sets the
team's request. -/
def Obligations.RegionsAndRequests : Prop := ∀ o : FE, ∀ s t p g,
  (Ready (.region o) s t p g → let c := issueCtx (.region o) s t p g
    t.splits.length ≤ 1 → t.deferred = [] → t.joins = [] →
    ∃ u y q, exec (.region o) s = .next u ∧ u.team? t.id = some y ∧ y.regpc = p.pc ∧ y.rcount = t.rcount + 1 ∧
      y.region = some q ∧ q.own = p.own ∧ q.exec = p.exec ∧ q.mode = p.mode ∧ q.written = [] ∧
      (∀ sp a, u.rdByte sp a = s.rdByte sp a) ∧ (∀ id f r l, u.reg id f r l = s.reg id f r l) ∧
      ∃ p', u.splitOf t.id p.uid = some p' ∧ p'.pc = p.pc + BitVec.ofNat 32 c.len) ∧
  (Ready (.claim o) s t p g → let c := issueCtx (.claim o) s t p g
    (c.g o.a = 0 → ∃ u, exec (.claim o) s = .next u ∧ u.field t.id o.d.toNat 0 = t.gran % 2 ^ 32 ∧
      Frame s u t.id [fieldReg o.d.toNat] c.passes) ∧
    (c.g o.a ≠ 0 → t.gran + c.g o.a ≤ 24 → (t.gran + c.g o.a) * 32 * t.size ≤ 524288 →
      (s.quadOf t.core t.quad).claims = [] → c.g o.a * t.size / 32 ≤ s.freeUnits t.core t.quad →
      ∃ u y, exec (.claim o) s = .next u ∧ u.team? t.id = some y ∧ y.gran = t.gran + c.g o.a ∧
        u.field t.id o.d.toNat 0 = t.gran + c.g o.a ∧
        (∀ r l, r < 8 * t.gran → r < 192 → l < 1024 → u.reg t.id .v r l = s.reg t.id .v r l) ∧
        (∀ r l, 8 * t.gran ≤ r → r < 192 → l < 1024 → u.reg t.id .v r l = 0))) ∧
  (Ready (.release o) s t p g → let c := issueCtx (.release o) s t p g
    (c.g o.a = 0 → ∃ u, exec (.release o) s = .next u ∧ u.field t.id o.d.toNat 0 = t.gran % 2 ^ 32 ∧
      Frame s u t.id [fieldReg o.d.toNat] c.passes) ∧
    (c.g o.a ≠ 0 → c.g o.a < t.gran → s.outstanding t = false →
      ∃ u y, exec (.release o) s = .next u ∧ u.team? t.id = some y ∧ y.gran = t.gran - c.g o.a ∧
        u.field t.id o.d.toNat 0 = (t.gran - c.g o.a) % 2 ^ 32 ∧
        (∀ r l, r < 8 * (t.gran - c.g o.a) → r < 192 → l < 1024 → u.reg t.id .v r l = s.reg t.id .v r l) ∧
        (∀ r l, 8 * (t.gran - c.g o.a) ≤ r → r < 192 → l < 1024 → u.reg t.id .v r l = 0))) ∧
  (Ready (.setperf o) s t p g → let c := issueCtx (.setperf o) s t p g
    c.g o.a ≤ 7 → ∃ u, exec (.setperf o) s = .next u ∧
      Frame s u t.id [] fun x => c.passes { x with perf := c.g o.a })

/-- R319, R324, R326, R388, R399. NODE creates a node and answers 0 and its handle, or 1 with too few free entries. EMIT appends
a record to a node of KIND 1 and answers 0; to no node it answers 3. RPC takes a ticket, sends its message and answers
the ticket; RPCWAIT takes the reply. TMARK sends a trace record to the ring, where the context has one. JCADD queues an add to the node's join counter.
Which free entry and which free ticket is taken is a free value (log 8). -/
def Obligations.NodesAndCalls : Prop := ∀ o : FE, ∀ s t p g,
  (Ready (.node o) s t p g → let c := issueCtx (.node o) s t p g
    s.teamPerformed t.id = true →
    (s.poolFree ≤ 64 → ∃ u, exec (.node o) s = .next u ∧ u.field t.id o.d.toNat 0 = 1 ∧
      u.field t.id (o.d.toNat + 1) 0 = 0xFFFFFFFF ∧ u.nodes = s.nodes) ∧
    (64 < s.poolFree → ∃ u n, exec (.node o) s = .next u ∧ u.nodes = s.nodes ++ [n] ∧ u.field t.id o.d.toNat 0 = 0 ∧
      u.field t.id (o.d.toNat + 1) 0 = n.handle % 2 ^ 32 ∧ n.handle = s.freeHandle ∧ n.asid = g.asid ∧ n.spawned = false ∧
      n.hdrAddr = c.gAt o.a 0 + c.gAt o.a 1 % 65536 * 2 ^ 32 ∧ n.header = none ∧ n.id = s.nextId)) ∧
  (Ready (.emit o) s t p g → let c := issueCtx (.emit o) s t p g
    s.teamPerformed t.id = true →
    ((∀ n ∈ s.nodes, n.handle ≠ c.g o.d) → ∃ u, exec (.emit o) s = .next u ∧ u.field t.id o.d.toNat 0 = 3 ∧ u.nodes = s.nodes) ∧
    (∀ n h, s.nodes.find? (fun n => decide (n.handle = c.g o.d)) = some n → n.cancelled = false → n.header = some h → h.kind = 1 → 64 < s.poolFree →
      (h.maxd = 0 ∨ (if n.id = g.node then g.depth + 1 else 0) < h.maxd) →
      ∃ u m, exec (.emit o) s = .next u ∧ u.field t.id o.d.toNat 0 = 0 ∧ m ∈ u.nodes ∧ m.id = n.id ∧
        m.records.length = n.records.length + 1 ∧
        m.records.getLast? = some ⟨(List.range 8).map fun k => BitVec.ofNat 32 (c.gAt o.a k),
          if n.id = g.node then g.depth + 1 else 0⟩)) ∧
  (∀ k, Ready (.rpc o) s t p g → let c := issueCtx (.rpc o) s t p g
    s.allPerformed t.id p.uid = true → s.unanswered t.id < 4 →
    (∀ q ∈ s.rpcQ.takeWhile (fun q => decide (q ≠ (t.id, p.uid))), 4 ≤ s.unanswered q.1) → s.freeTicket 32 256 = some k →
    ∃ u, exec (.rpc o) s = .next u ∧ (k, .team t.id none) ∈ u.tickets ∧ u.field t.id o.d.toNat 0 = k % 2 ^ 32 ∧
      u.outbox = s.outbox ++ [.team k g.asid t.sourceWord p.pc ((List.range 8).map fun j => BitVec.ofNat 32 (c.gAt o.a j))]) ∧
  (∀ q, Ready (.rpcwait o) s t p g → let c := issueCtx (.rpcwait o) s t p g
    let k := (c.asIssued [c.g o.a % 256]).headD 0
    s.tickets.find? (fun x => decide (x.1 = k)) = some (k, .team t.id (some q)) → q.status = 0 →
    ∃ u, exec (.rpcwait o) s = .next u ∧ u.field t.id o.d.toNat 0 = (if q.carried then q.value1.toNat else 0) ∧
      u.field t.id (o.d.toNat + 1) 0 = q.value0.toNat ∧ (∀ x ∈ u.tickets, x.1 ≠ k)) ∧
  (Ready (.tmark o) s t p g → let c := issueCtx (.tmark o) s t p g
    ((g.asid ≠ s.dbg.asid ∨ s.dbg.ringSize = 0) → ∃ u, PassesBy (.tmark o) s u t c) ∧
    (g.asid = s.dbg.asid → s.dbg.ringSize ≠ 0 → ∃ u, exec (.tmark o) s = .next u ∧
      Frame { s with nextId := s.nextId + 1
                     dbg := { s.dbg with ringQ := s.dbg.ringQ ++
                       [(s.nextId, (t.id, p.uid), [4099, p.pc.toNat, c.g o.a, t.teamReg])] } } u t.id [] c.passes)) ∧
  (Ready (.jcadd o) s t p g → let c := issueCtx (.jcadd o) s t p g
    let jca := match s.node? g.node with | some n => n.jca | none => 0
    (jca = 0 → ∃ u, PassesBy (.jcadd o) s u t c) ∧
    (jca ≠ 0 → (issueState (.jcadd o) s t p).counter t.id 1 < 63 → s.readSetFull c [] = false →
      ∃ u, exec (.jcadd o) s = .next u ∧
        u.jcAdds = s.jcAdds ++ [⟨s.nextId, g.asid, jca, c.gAt o.a 0 + c.gAt o.a 1 * 2 ^ 32, false⟩] ∧
        (∀ sp a, u.rdByte sp a = s.rdByte sp a)))

/-! ### Engine instructions (R113 to R133) -/

/-- R116 to R119, R122, R265. COPY, COPY2D, GATHER, SCATTER, COLL and RAST are accepted where their queue has room: the
command takes the next number, keeps the eight words of its block, its guard slot and its barrier word, and D is its number.
A full queue makes the split wait.
When a queue is full is the reading of log 17. -/
def Obligations.CopyCommandsAccepted : Prop := ∀ o : FE,
  let keeps (op : CmdOp) (c : Ctx) (x : EngCmd) : Prop :=
    x.op = op ∧ x.block = (List.range 8).map (fun k => BitVec.ofNat 32 (c.gAt o.a k)) ∧ x.gs = o.gs.toNat ∧
      x.bar = BitVec.ofNat 32 (c.gAt o.a 7)
  let recs (c : Ctx) (x : EngCmd) : Prop :=
    ∀ k, (k = 0 ∨ k = 2) → c.gAt o.a k % 2 ^ 32 / 2 ^ 29 = 0 →
      (k, BitVec.ofNat 128 (c.rd .b (c.gAt o.a k % 2 ^ 32 / 2 ^ 24 % 32) 0)) ∈ x.recs
  let any (_ : State) (_ : Ctx) : Prop := True
  Accepts (.copy o) 0 o.d any (fun c x => keeps .copy c x ∧ recs c x) ∧
  Accepts (.copy2d o) 0 o.d any (fun c x => keeps .copy2d c x ∧ recs c x) ∧
  Accepts (.gather o) 0 o.d any (fun c x => keeps .gather c x ∧ recs c x) ∧
  Accepts (.scatter o) 0 o.d any (fun c x => keeps .scatter c x ∧ recs c x) ∧
  Accepts (.coll o) 1 o.d any (keeps .coll) ∧
  Accepts (.rast o) 4 o.d any (keeps .rast) ∧
  (∀ s t p g, Ready (.copy o) s t p g → 32 ≤ (g.eng 0).accepted - (g.eng 0).c → ∃ u, Blocks (.copy o) s u t p [])

/-- R251 to R254. TRACE, RRES and TPLOAD are accepted where the engine has room for the rays of the active lanes (2,048 on a
core); TRACE keeps the eight ray words of each active lane. TRACE and RRES with no active lane only go on. -/
def Obligations.RayCommandsAccepted : Prop :=
  (∀ o : FR,
    Accepts (.trace o) 3 o.d (fun s c => c.lanes ≠ [] ∧ s.coreRays c.core + c.lanes.length ≤ 2048) (fun c x =>
      x.op = .trace ∧ x.block = (List.range 8).map (fun k => BitVec.ofNat 32 (c.gAt o.a k)) ∧
      x.gs = c.gAt o.a 4 % 2 ^ 32 / 256 % 16 ∧ x.bar = BitVec.ofNat 32 (c.gAt o.a 7) ∧
      x.rays = c.lanes.map fun l => (l, (List.range 8).map fun k => BitVec.ofNat 32 (c.rd .v (o.b.toNat + k) l))) ∧
    (∀ s t p g, Ready (.trace o) s t p g → let c := issueCtx (.trace o) s t p g
      c.lanes = [] → ∃ u, PassesBy (.trace o) s u t c)) ∧
  (∀ o : FE,
    Accepts (.rres o) 3 o.d (fun s c => c.lanes ≠ [] ∧ s.coreRays c.core + c.lanes.length ≤ 2048) (fun c x =>
      x.op = .rres ∧ x.block = (List.range 8).map (fun k => BitVec.ofNat 32 (c.gAt o.a k)) ∧ x.gs = o.gs.toNat ∧
      x.rays.map (·.1) = c.lanes) ∧
    (∀ s t p g, Ready (.rres o) s t p g → let c := issueCtx (.rres o) s t p g
      c.lanes = [] → ∃ u, PassesBy (.rres o) s u t c) ∧
    Accepts (.tpload o) 3 o.d (fun _ _ => True) (fun c x =>
      x.op = .tpload ∧ x.block = (List.range 4).map (fun k => BitVec.ofNat 32 (c.gAt o.a k)) ∧ x.gs = o.gs.toNat))

/-- R217, R221, R226, R237 to R239, R242. MLOOP (active lanes that agree on the format word, the team's grid of the tile's
shape, its tokens held, no INV slot), MLDA, MSTA (no INV slot) and MACC are accepted with their descriptor and block. MLOOP
with no active lane only goes on.
When a queue is full is the reading of log 17. -/
def Obligations.MatrixCommandsAccepted : Prop :=
  let tile (d : Nat) (c : Ctx) (g : Group) (slots : List Nat) : Prop :=
    ∃ q, c.team.grid = some q ∧ q.tokens ≠ 0 ∧ dShape d = q.shape ∧ g.anyInv slots = false
  (∀ o : FR,
    AcceptsMat (.mloop o) (fun c => tileSlots (c.g o.d))
      (fun c g => c.lanes ≠ [] ∧ (∀ k ∈ c.lanes, ∀ l ∈ c.lanes, c.src o.b.toNat k = c.src o.b.toNat l) ∧
        tile (c.g o.d) c g (tileSlots (c.g o.d)))
      (fun c x => x.op = .mloop ∧ x.desc = BitVec.ofNat 32 (c.g o.d) ∧ (∀ l ∈ c.lanes, x.fmt = BitVec.ofNat 32 (c.src o.b.toNat l)) ∧
        x.gs = dGs (c.g o.d) ∧ x.block = (List.range 8).map fun k => BitVec.ofNat 32 (c.gAt o.a k)) ∧
    (∀ s t p g, Ready (.mloop o) s t p g → let c := issueCtx (.mloop o) s t p g
      c.lanes = [] → ∃ u, PassesBy (.mloop o) s u t c)) ∧
  (∀ o : FE,
    AcceptsMat (.mlda o) (fun c => tileSlots (c.g o.d)) (fun _ _ => True) (fun c x =>
      x.op = .mlda ∧ x.desc = BitVec.ofNat 32 (c.g o.d) ∧ x.block = (List.range 4).map fun k => BitVec.ofNat 32 (c.gAt o.a k)) ∧
    AcceptsMat (.msta o) (fun c => tileSlots (c.g o.d)) (fun c g => g.anyInv (tileSlots (c.g o.d)) = false) (fun c x =>
      x.op = .msta ∧ x.desc = BitVec.ofNat 32 (c.g o.d) ∧ x.block = (List.range 4).map fun k => BitVec.ofNat 32 (c.gAt o.a k)) ∧
    AcceptsMat (.macc o) (fun c => tileSlots (c.g o.d) ++ tileSlots (c.g o.a))
      (fun c g => tile (c.g o.d) c g (tileSlots (c.g o.d) ++ tileSlots (c.g o.a))) (fun c x =>
        x.op = .macc ∧ x.desc = BitVec.ofNat 32 (c.g o.d) ∧ x.desc2 = BitVec.ofNat 32 (c.g o.a)))

/-- R211, R213, R237 to R241. GRID takes its quads at once where each is ungridded and has room, UNGRID gives them and the
tokens back, MZERO clears a tile and its INV, MRD reads an element per active lane (0 outside the tile) and MWR writes one,
MSTAT reports the unfinished commands on a tile, MWAIT goes on where none is left.
R235, R236, R260. MXV and RBOX with no active lane only go on; otherwise, where their checks pass and the grid's tokens
are held, they capture their operands, with the number of the last command that their context has accepted: the split waits,
and no register is written yet.
What MXV and RBOX wait for is the reading of log 19. -/
def Obligations.GridAndTiles : Prop :=
  (∀ o : FE, ∀ s t p g,
    (Ready (.grid o) s t p g → let c := issueCtx (.grid o) s t p g
      t.grid = none → s.gridFits t.core (gridQuads o.d.toNat t.quad) = true →
      ∃ u, exec (.grid o) s = .next u ∧
        Frame (s.wakeGridded t.core (gridQuads o.d.toNat t.quad)) u t.id [] fun x =>
          c.passes { x with grid := some { shape := o.d.toNat, quads := gridQuads o.d.toNat t.quad } }) ∧
    (∀ q, Ready (.ungrid o) s t p g → let c := issueCtx (.ungrid o) s t p g
      t.grid = some q → s.gridHalt t = none → s.gridWork t = false →
      ∃ u, exec (.ungrid o) s = .next u ∧
        Frame { s with gov := s.gov.returnTokens q.tokens (s.modTeam t.id fun x => { x with grid := none }).tokensHeld } u t.id []
          fun x => c.passes { x with grid := none }) ∧
    (Ready (.mzero o) s t p g → let c := issueCtx (.mzero o) s t p g
      let slots := tileSlots (c.g o.a)
      c.descBad (c.g o.a) = false → g.pending slots = false →
      ∃ u, exec (.mzero o) s = .next u ∧
        Frame (s.modGroup g.id fun h => { h with acc := h.acc.filter fun x => !(slots.contains (x.1 / 1024))
                                                 inv := h.inv.filter fun x => !(slots.contains x) }) u t.id [] c.passes) ∧
    (Ready (.mrd o) s t p g → let c := issueCtx (.mrd o) s t p g
      let d := c.gAt o.a 0
      c.descBad d = false → g.anyInv (tileSlots d) = false → g.pending (tileSlots d) = false →
      ∃ u, exec (.mrd o) s = .next u ∧
        (∀ l ∈ c.lanes, u.field t.id o.d.toNat l =
          (let n := tileCols (dShape d)
           let e := c.gAt o.a 1 * n + l
           if e < tileRows (dShape d) * n then (sget 0 g.acc (accKey d (e / n) (e % n))).toNat else 0)) ∧
        (∀ l, l ∉ c.lanes → u.reg t.id .v o.d.toNat l = s.reg t.id .v o.d.toNat l) ∧
        Frame s u t.id [fieldReg o.d.toNat] c.passes) ∧
    (Ready (.mwr o) s t p g → let c := issueCtx (.mwr o) s t p g
      let d := c.gAt o.d 0
      c.descBad d = false → g.anyInv (tileSlots d) = false → g.pending (tileSlots d) = false →
      ∃ u, exec (.mwr o) s = .next u ∧
        Frame (s.modGroup g.id fun h => { h with acc := ssets 0 h.acc (c.lanes.filterMap fun l =>
          (mrdKey d (c.gAt o.d 1) l).map fun k => (k, BitVec.ofNat 32 (c.src o.a.toNat l))) }) u t.id [] c.passes) ∧
    (Ready (.mstat o) s t p g → let c := issueCtx (.mstat o) s t p g
      let d := c.g o.a
      let l := g.naming (tileSlots d)
      c.descBad d = false →
      ∃ u, exec (.mstat o) s = .next u ∧
        u.field t.id o.d.toNat 0 =
          min 255 l.length * 65536 + (if g.anyInv (tileSlots d) then 2 else 0) + (if l.isEmpty then 0 else 1) ∧
        (l = [] → u.field t.id (o.d.toNat + 1) 0 = 0) ∧ Frame s u t.id (fieldRegs o.d.toNat 2) c.passes) ∧
    (Ready (.mwait o) s t p g → let c := issueCtx (.mwait o) s t p g
      let d := (c.asIssued [c.g o.a]).headD 0
      c.descBad d = false → g.tileHalt (tileSlots d) = none →
      ∃ u, if g.pending (tileSlots d) then Blocks (.mwait o) s u t p [d] else PassesBy (.mwait o) s u t c)) ∧
  (∀ o : FR, ∀ s t p g,
    (Ready (.mxv o) s t p g → let c := issueCtx (.mxv o) s t p g
      let w0 := c.gAt o.a 0 % 2 ^ 32
      let k := c.gAt o.a 2 % 65536
      let n := c.gAt o.a 4 % 2 ^ 32
      let x := c.gAt o.a 3 % 256
      let b := c.block o.a 8
      (c.lanes = [] → ∃ u, PassesBy (.mxv o) s u t c) ∧
      (∀ w q, c.lanes ≠ [] → (∀ l ∈ c.lanes, c.src o.b.toNat l = w) → weightOk w = true → mxvBlockBad w b = false →
        (w0 / 2 ^ 29 = 0 → recUnfit (BitVec.ofNat 128 (c.rd .b (w0 / 2 ^ 24 % 32) 0)) = false) →
        w0 % 16 = 0 → c.gAt o.a 1 % 16 = 0 → t.grid = some q → q.retake = false → q.tokens ≠ 0 →
        0 < k → k ≤ 16 * t.size → 0 < n → n ≤ t.size → x + (k + t.size - 1) / t.size ≤ 8 * t.gran →
        ∃ u, Blocks (.mxv o) s u t p ([(issueState (.mxv o) s t p).lastBefore c, w] ++ (List.range 8).map (bw b) ++
          [c.act.toNat, (BitVec.ofNat 128 (c.rd .b (w0 / 2 ^ 24 % 32) 0)).toNat] ++
          (List.range k).map fun j => c.rd .v (x + j / t.size) (j % t.size)))) ∧
    (Ready (.rbox o) s t p g → let c := issueCtx (.rbox o) s t p g
      let w0 := c.gAt o.a 0 % 2 ^ 32
      let r := BitVec.ofNat 128 (c.rd .b (w0 / 2 ^ 24 % 32) 0)
      (c.lanes = [] → ∃ u, PassesBy (.rbox o) s u t c) ∧
      (∀ q, c.lanes ≠ [] → (∀ k < 7, c.gAt o.a (k + 1) % 2 ^ 32 = 0) → operandBad w0 = false →
        (w0 / 2 ^ 29 = 0 → recUnfit r = false) → w0 % 16 = 0 → t.grid = some q → q.shape = 0 → q.tokens ≠ 0 →
        ∃ u, Blocks (.rbox o) s u t p ([(issueState (.rbox o) s t p).lastBefore c, w0, r.toNat, c.act.toNat] ++
          c.lanes.flatMap fun l => (List.range 8).map fun k => c.rd .v (o.b.toNat + k) l))))

/-- R123 to R126, R132, R255. WAITP goes on once the path's counter is not above g[A], as it read it at its issue. WAITT goes on
once C has reached the number, waits while it has not, and traps at a number not accepted or, with the context halted, at one
not reached. TLGET, RPOLL read the context. GRES writes a guard slot, after the commands at the queue heads have met what it
held. QRES of a context that is not halted only goes on; of a halted one it
lets it go on. -/
def Obligations.WaitsAndGuards : Prop := ∀ o : FE, ∀ s t p g,
  (Ready (.waitp o) s t p g → let c := issueCtx (.waitp o) s t p g
    let limit := (c.asIssued [c.g o.a]).headD 0
    ∃ u, if s.counter t.id o.d.toNat ≤ limit then PassesBy (.waitp o) s u t c else Blocks (.waitp o) s u t p [limit]) ∧
  (Ready (.waitt o) s t p g → let c := issueCtx (.waitt o) s t p g
    let x := g.eng o.d.toNat
    let n := (c.asIssued [o.d.toNat, c.gAt o.a 0 + c.gAt o.a 1 * 2 ^ 32]).getD 1 0
    let detail := o.d.toNat % 8 + o.d.toNat / 16 % 4 * 16
    (n ≤ x.accepted → n ≤ x.c → ∃ u, exec (.waitt o) s = .next u ∧ Frame (s.splitAcquires t.id p.uid 5) u t.id [] c.passes) ∧
    (n ≤ x.accepted → x.c < n → x.halted = none → ∃ u, Blocks (.waitt o) s u t p [o.d.toNat, n]) ∧
    (∀ k, n ≤ x.accepted → x.c < n → x.halted = some k → CanTrap s t p g k →
      ∃ u, exec (.waitt o) s = .next u ∧ TakesTrap s u t p k detail c.act false p.pc) ∧
    (x.accepted < n → CanTrap s t p g (199 + 8 * (o.d.toNat % 8)) →
      ∃ u, exec (.waitt o) s = .next u ∧ TakesTrap s u t p (199 + 8 * (o.d.toNat % 8)) detail c.act false p.pc)) ∧
  (Ready (.tlget o) s t p g → let c := issueCtx (.tlget o) s t p g
    let x := g.eng o.a.toNat
    ∃ u, exec (.tlget o) s = .next u ∧ u.field t.id o.d.toNat 0 = x.c % 2 ^ 32 ∧
      u.field t.id (o.d.toNat + 1) 0 = x.c / 2 ^ 32 % 2 ^ 32 ∧ u.field t.id (o.d.toNat + 2) 0 = (x.accepted - x.c) % 2 ^ 32 ∧
      (u.field t.id (o.d.toNat + 3) 0 % 2 = 1 ↔ x.halted ≠ none) ∧ Frame s u t.id (fieldRegs o.d.toNat 4) c.passes) ∧
  (Ready (.rpoll o) s t p g → let c := issueCtx (.rpoll o) s t p g
    ∃ u, exec (.rpoll o) s = .next u ∧ u.field t.id o.d.toNat 0 = (g.rayEnded * 65536 + g.rayCount % 65536) % 2 ^ 32 ∧
      Frame (s.modGroup g.id fun h => { h with rayEnded := 0 }) u t.id [fieldReg o.d.toNat] c.passes) ∧
  (Ready (.gres o) s t p g → let c := issueCtx (.gres o) s t p g
    let v : GuardSt := if c.g o.a % 4 = 0 then .no else if c.g o.a % 4 = 1 then .yes else .pending
    ∃ u, exec (.gres o) s = .next u ∧
      Frame (s.modGroup g.id fun h => { h.meetGuards with guards := sset .pending h.guards o.gs.toNat v }) u t.id [] c.passes) ∧
  (Ready (.qres o) s t p g → let c := issueCtx (.qres o) s t p g
    ((g.eng o.d.toNat).halted = none → ∃ u, PassesBy (.qres o) s u t c) ∧
    ((g.eng o.d.toNat).halted ≠ none → ∃ u h, exec (.qres o) s = .next u ∧ u.group? g.id = some h ∧
      (h.eng o.d.toNat).halted = none ∧ (∀ y ∈ (h.eng o.d.toNat).cmds, y.st ≠ .failed) ∧
      ((c.g o.a % 4 = 1 ∨ c.g o.a % 4 = 3) → ∀ y ∈ (h.eng o.d.toNat).cmds, y.st ≠ .queued)))

/-- R127, R128. On a barrier object that lies in reach: BINIT writes EXPECT, zeroes ARRIVED and the status word and clears
PHASE; BARV arrives (the last arrival zeroes ARRIVED and turns PHASE) and returns the phase it arrived in; BWAIT goes on once
PHASE differs and waits while it does not, where no sector of the object is poisoned; BSTAT returns the status word.
R113. YJOIN of a group whose node has no yard answers status 4; of another it owes g[D] and waits at the yard of its key.
YLEAVE of no member answers status 1; of a member it owes g[D] and the member is leaving.
What two YLEAVEs of a group answer is the reading of log 18. -/
def Obligations.BarrierObjectsAndYards : Prop :=
  (∀ o : FE, ∀ s t p g s1 sup r lvl,
    let at' (c : Ctx) (write : Bool) (i : Instr) (w : Nat) : Prop :=
      barLevel w = some lvl ∧
        (issueState i s t p).formLocal c lvl 0 16 16 write true [(w % 2 ^ 29, { lane := 0, off := 0 })] = .ok s1 sup [r] ∧
        s1.lineClear c r.space r.line = true
    let a := r.line * 64 + (r.lanes.headD { lane := 0, off := 0 }).off
    let rest (u : State) : Prop := ∀ sp x, (sp ≠ r.space ∨ x < a ∨ a + 16 ≤ x) → u.rdByte sp x = s.rdByte sp x
    (Ready (.binit o) s t p g → let c := issueCtx (.binit o) s t p g
      at' c true (.binit o) (c.g o.a) →
      ∃ u, exec (.binit o) s = .next u ∧ u.rd r.space a 4 = c.g o.d % 2 ^ 32 ∧ u.rd r.space (a + 4) 4 = 0 ∧
        u.rd r.space (a + 8) 4 = s.rd r.space (a + 8) 4 / 2 * 2 ∧ u.rd r.space (a + 12) 4 = 0 ∧ rest u) ∧
    (Ready (.barv o) s t p g → let c := issueCtx (.barv o) s t p g
      at' c true (.barv o) (c.g o.a) → s1.releasedAt t.id lvl = true →
      let n := (s.rd r.space (a + 4) 4 + 1) % 2 ^ 32
      let last := decide (s.rd r.space a 4 ≤ n)
      ∃ u, exec (.barv o) s = .next u ∧ u.field t.id o.d.toNat 0 = s.rd r.space (a + 8) 4 % 2 ∧
        u.rd r.space a 4 = s.rd r.space a 4 ∧ u.rd r.space (a + 4) 4 = (if last then 0 else n) ∧
        u.rd r.space (a + 8) 4 = (if last then s.rd r.space (a + 8) 4 ^^^ 1 else s.rd r.space (a + 8) 4) ∧
        u.rd r.space (a + 12) 4 = s.rd r.space (a + 12) 4 ∧ rest u) ∧
    (Ready (.bwait o) s t p g → let c := issueCtx (.bwait o) s t p g
      let was := c.asIssued [c.g o.a, c.g o.d]
      at' c false (.bwait o) (was.headD 0) → s.isPoisoned r.space a 16 = false →
      ∃ u, if s.rd r.space (a + 8) 4 % 2 ≠ was.getD 1 0 % 2 then
          exec (.bwait o) s = .next u ∧ Frame (s.splitAcquires t.id p.uid lvl.scope) u t.id [] c.passes
        else Blocks (.bwait o) s u t p was) ∧
    (Ready (.bstat o) s t p g → let c := issueCtx (.bstat o) s t p g
      at' c false (.bstat o) (c.g o.a) →
      ∃ u, exec (.bstat o) s = .next u ∧ u.field t.id o.d.toNat 0 = s.rd r.space (a + 12) 4 ∧
        Frame s u t.id [fieldReg o.d.toNat] c.passes)) ∧
  (∀ o : FE, ∀ s t p g,
    (Ready (.yjoin o) s t p g → let c := issueCtx (.yjoin o) s t p g
      (g.yardOk = false → ∃ u, exec (.yjoin o) s = .next u ∧ u.yards = s.yards ∧
        u.field t.id o.d.toNat 0 = (4 * 2 ^ 24 + 8 * (match s.yards.find? fun y => decide (y.asid = g.asid ∧ y.key = c.g o.a) with
          | some y => y.members.length
          | none => 0)) % 2 ^ 32 ∧
        Frame s u t.id [fieldReg o.d.toNat] c.passes) ∧
      (g.yardOk = true → ∃ u y z, exec (.yjoin o) s = .next u ∧ u.team? t.id = some y ∧
        ⟨s.nextId, p.uid, .g, o.d.toNat - 192, 1, 1⟩ ∈ y.awaits ∧ z ∈ u.yards ∧ z.asid = g.asid ∧ z.key = c.g o.a ∧
        ⟨g.id, t.id, s.nextId⟩ ∈ z.waiting ∧ s.sameData u)) ∧
    (Ready (.yleave o) s t p g → let c := issueCtx (.yleave o) s t p g
      (s.yardOf g.id = none → ∃ u, exec (.yleave o) s = .next u ∧ u.field t.id o.d.toNat 0 = 2 ^ 24 ∧
        Frame s u t.id [fieldReg o.d.toNat] c.passes) ∧
      (∀ y m, s.yardOf g.id = some (y, m) → ∃ u h, exec (.yleave o) s = .next u ∧ u.group? g.id = some h ∧
        h.leavingYard = g.leavingYard ++ [(t.id, s.nextId)] ∧
        (∀ z ∈ u.yards, ∀ k ∈ z.members, k.group = g.id → k.leaving = true) ∧ s.sameData u)))

/-- R261, R262. BOXU, SAH and NPACK complete: each active lane's box grows by the other (with the invalid flag of a signalling
NaN), its surface area, its packed node; other lanes keep their registers.
The bytes that NPACK gives for a box with an infinity are free values (log 8). -/
def Obligations.BuildHelpers : Prop := ∀ o : FE,
  Computes (.boxu o) ⟨o.d, fun _ => 6, fun _ => 32, fun _ => 6, fun c => c.computing o.d⟩ noPre (fun c l k =>
    boxuReg k (c.rd .v (o.d.toNat + k) l) (c.rd .v (o.a.toNat + k) l)) ∧
  Computes (.sah o) (.word o.d) noPre (fun c l _ =>
    let r (k : Nat) : Nat := c.rd .v (o.a.toNat + k) l
    (sahOf [r 0, r 1, r 2] [r 3, r 4, r 5] (r 6), 0)) ∧
  Computes (.npack o) ⟨o.d, fun _ => 16, fun _ => 512, fun _ => 1, fun c => c.computing o.d⟩ noPre (fun c l _ =>
    let r (k : Nat) : Nat := c.rd .v (o.a.toNat + k) l
    npackOf (fun k => Config.openValue (6 + 16 * (64 * l + k)) c.nonce)
      ((List.range 4).map fun i => (List.range 6).map fun k => r (6 * i + k)) [r 24, r 25, r 26, r 27] [r 28, r 29])

/-- R269 to R272. With a team of 64 lanes ATLNEXT takes the next request, reads it where its lines are there, and writes its
number and words and each active lane's pixel, or 0xFFFFFFFF where none is left and none is to come; ATLDONE marks a request that has been handed out. VRSL with no
triangle work running reads its map where its lines are there, puts it in force and answers LSEQ. VISRD and SAMP put their reads
in flight; what is stated of SAMP has every sample's line there and no sample poisoned.
What VRSL, VISRD and SAMP wait for is the reading of log 21. -/
def Obligations.ShadingAtlas : Prop :=
  (∀ o : FE, ∀ s t p g,
    (Ready (.atlnext o) s t p g → let c := issueCtx (.atlnext o) s t p g
      let a := g.atlas
      (t.size = 64 → p.busy = none → a.count ≤ a.next → a.generating = false →
        ∃ u, exec (.atlnext o) s = .next u ∧ u.field t.id o.d.toNat 0 = 0xFFFFFFFF ∧
          Frame s u t.id [fieldReg o.d.toNat] c.passes) ∧
      (∀ w recs s0 sup reqs s1 q, t.size = 64 → p.busy = none → a.next < a.count → a.list = some (w, recs) →
        let cmd : EngCmd := { n := 0, op := .rast, team := 0, tword := 0, block := [0, 0, 0, w], recs := recs, before := s.nextId }
        let r : OpRange := ⟨3, (w.toNat % 2 ^ 24 + 16 * a.next : Nat), 16⟩
        ((issueState (.atlnext o) s t p).modGroup g.id fun h => { h with atlas := { h.atlas with next := a.next + 1 } }).wholeLines
          c cmd true [(0, r)] = .ok s0 sup reqs → (∀ x ∈ reqs, x.st ≠ .parked) → s0.opRead (s0.myGroup c) cmd r = .ok (s1, q) →
        let word := q / 2 ^ 64 % 2 ^ 32
        let rate := rateOf (word / 2 ^ 30) c.nonce
        ∃ u, exec (.atlnext o) s = .next u ∧
          (∀ y, s1.team? t.id = some y →
            u.field t.id o.d.toNat 0 = a.next % 2 ^ 32 ∧ u.field t.id (o.d.toNat + 1) 0 = q % 2 ^ 32 ∧
            u.field t.id (o.d.toNat + 2) 0 = q / 2 ^ 32 % 2 ^ 32 ∧ u.field t.id (o.d.toNat + 3) 0 = word ∧
            ∀ l ∈ c.lanes, u.field t.id o.a.toNat l =
              ((word / 2 ^ 15 % 2 ^ 15 * 8 * rate + l / 8 * rate) % 65536 * 65536 +
                (word % 2 ^ 15 * 8 * rate + l % 8 * rate) % 65536)) ∧
          ∀ h, s1.group? g.id = some h → h.atlas.next = a.next + 1 → ∃ h', u.group? g.id = some h' ∧ h'.atlas = h.atlas)) ∧
    (Ready (.atldone o) s t p g → let c := issueCtx (.atldone o) s t p g
      t.size = 64 → c.g o.a < g.atlas.next → c.g o.a ∉ g.atlas.doneSet → s.teamPerformed t.id = true →
      ∃ u, exec (.atldone o) s = .next u ∧
        Frame (s.modGroup g.id fun h => { h with atlas := { h.atlas with doneSet := h.atlas.doneSet ++ [c.g o.a] } }) u t.id []
          c.passes) ∧
    (∀ s0 sup reqs s1 x, Ready (.vrsl o) s t p g → let c := issueCtx (.vrsl o) s t p g
      let b := c.block o.a 4
      let w := bw b 0
      let n := bw b 1 % 65536 * (bw b 1 / 65536)
      let r := BitVec.ofNat 128 (c.rd .b (w / 2 ^ 24 % 32) 0)
      let cmd : EngCmd := { n := 0, op := .rast, team := 0, tword := 0, block := b, recs := [(0, r)], before := s.nextId }
      let r0 : OpRange := ⟨0, (w % 2 ^ 24 : Nat), n⟩
      operandBad w = false → 0 < n → n ≤ 65536 → bw b 2 = 0 → bw b 3 = 0 → p.fence = none → s.allPerformed t.id p.uid = true →
      p.busy = none → s.counter t.id 0 < 63 → w % 8 = 0 →
      (lvlOf w = 0 → recUnfit r = false ∧ w % 2 ^ 24 + n ≤ bufExtent r * bufS r ∧
        (issueState (.vrsl o) s t p).watchpoint c 0 n false true [(0, (bufBase r + w % 2 ^ 24) % 2 ^ 48)] = none) →
      firstFail ((issueState (.vrsl o) s t p).opFails g cmd false r0) = none →
      (issueState (.vrsl o) s t p).wholeLines c cmd true [(0, r0)] = .ok s0 sup reqs → (∀ y ∈ reqs, y.st ≠ .parked) →
      s0.opRead (s0.myGroup c) cmd r0 = .ok (s1, x) →
      (∀ i < n, x / 256 ^ i % 256 ≤ 2) → (∀ h, s1.group? g.id = some h → h.rasterising = false) →
      ∀ h, s1.group? g.id = some h →
      ∃ u h', exec (.vrsl o) s = .next u ∧ u.group? g.id = some h' ∧
        h'.rast.map = some ⟨bw b 1 % 65536, bw b 1 / 65536, (List.range n).map fun i => x / 256 ^ i % 256⟩ ∧
        (∀ y, s1.team? t.id = some y → u.field t.id o.d.toNat 0 = h.rast.lseq % 2 ^ 32))) ∧
  (∀ o : FE,
    let off (c : Ctx) (l : Nat) : Option Nat :=
      let xy := c.rd .v o.d.toNat l
      let k := c.rd .v (o.d.toNat + 1) l % 4
      let b := c.block o.a 4
      let w := bw b 1 % 65536
      if w ≤ xy % 65536 ∨ bw b 1 / 65536 ≤ xy / 65536 ∨ 2 ^ (bw b 2 % 4) ≤ k then none
      else some (bw b 0 % 2 ^ 24 + 16 * ((xy / 65536 * w + xy % 65536) * 2 ^ (bw b 2 % 4) + k))
    let samples (s : State) (c : Ctx) : Formed :=
      s.formOperand c (bw (c.block o.a 8) 0) 16 (c.lanes.map fun l => (off c l, { lane := l, off := 0 }))
    Launches (.visrd o) (fun _ => { path := 7, n := 16 })
      (fun s c => if visBlockBad (c.block o.a 4) then .hold s
        else s.formOperand c (bw (c.block o.a 4) 0) 16 (c.lanes.map fun l => (off c l, { lane := l, off := 0 })))
      (fun c => some ⟨.v, o.d.toNat, 4, c.act⟩) (fun _ => .load 6) ∧
    Launches (.samp o) (fun _ => { path := 7, n := 8 })
      (fun s c =>
        let b := c.block o.a 8
        if visBlockBad b || operandBad (bw b 3) || (List.range 4).any (fun k => decide (bw b (4 + k) ≠ 0)) || c.sp.fence.isSome ||
            !(s.allPerformed c.tid c.uid) then .hold s
        else match samples s c with
          | .ok s sup reqs =>
            if reqs.any fun r => decide (r.st = .parked) then .hold s
            else match s.readNow c 16 reqs with
              | (s, none) => .hold s
              | (s, some vs) =>
                if vs.any fun v => v.2.2 then .hold s
                else
                  let hit := vs.filter fun v => visValid v.2.1 && decide (visBlk v.2.1 ≠ 0xFFFFFF)
                  let blank := sup ++ (vs.filter fun v => !(hit.any fun h => decide (h.1 = v.1))).map (·.1)
                  match s.formOperand c (bw b 3) 8 (hit.flatMap fun v =>
                      let xy := c.rd .v o.d.toNat v.1
                      (texelTaps (xy % 65536) (xy / 65536) (rateOf (visRate v.2.1) c.nonce)).2.map fun k =>
                        (some (bw b 3 % 2 ^ 24 + 512 * visBlk v.2.1 + k.2), { lane := v.1, off := 0, cmp := k.1 })) with
                  | .ok s sup2 reqs => .ok s (blank ++ sup2) reqs
                  | _ => .hold s
          | _ => .hold s)
      (fun c => some ⟨.v, o.d.toNat, 2, c.act⟩) (fun _ => .samp))

/-! ### Memory traffic (R62 to R69, R88 to R106, R125, R136, R150 to R155, R283, R351, R383 to R387) -/

/-- R125, R136, R140, R146, R148, R150. LOAD_DATA_RETURN of an access of one line, of a local level or of a global line that its
core's L1 holds, alone on its path, gives each lane's registers the bytes read, extended, and takes the access off its path, where
no acquire is before it and no later write stands over its registers. STORE_PERFORMED writes the lane's bytes of a local level and
no other byte; of ATOM and LATOM it leaves in memory what the operation makes of the old value, a failed CAS nothing, and returns
the old value; of ATAGG it adds the sum, and each lane receives the old value with the contributions of the lanes before it. What
is stated of a hardware-coherent line has the line in the SLC and nothing waiting for it. SLC_REQUEST performs the line of a
hardware-coherent store at the SLC and leaves the access in flight. MONITOR_REGISTRATION arms the split's monitor on the line. -/
def Obligations.AccessesPerform : Prop := ∀ s f r t,
  s.flight? f.id = some f → (∀ e ∈ s.flights, e.id = f.id → e = f) → f.reqs = [r] → s.team? f.team = some t →
  s.mayPerform f r = true → f.returned = false → s.yardGone f r = false →
  -- it is alone on its path, with no acquire before it and no later write over its registers
  let alone : Prop := (∀ e ∈ s.earlier f, e.acquires = false) ∧ (∀ e ∈ t.unset, f.id ∉ e.above) ∧
    (∀ e ∈ s.flights, e ≠ f → (e.team, e.path) ≠ (f.team, f.path)) ∧ (∀ e ∈ s.flights, e.held = false)
  let returns (i : Instr) (w reg : Nat) (x : LaneAcc → Nat) : Prop := ∃ u, exec i s = .next u ∧
    (∀ a ∈ r.lanes, ∀ k < wRegs w, u.reg f.team .v (reg + k) a.lane = (loadImage w (x a)).getD k 0) ∧
    (∀ e ∈ u.flights, e.id ≠ f.id) ∧ ∀ sp x, u.rdByte sp x = s.rdByte sp x
  -- the line is where it is performed
  let present : Prop := s.unread r.space r.line ∧ r.pte = none ∧
    (r.space = .glob → r.cc = 0 ∧ s.dirOf r.line = {} ∧ s.slcQ = [] ∧ s.inSlc r.line ∧ s.seenOn f.core r.line = []) ∧
    (∀ h, r.space = .win h → s.group? h ≠ none) ∧ (∀ k, r.space = .priv k → s.team? k ≠ none)
  let leaves (u : State) (a : LaneAcc) (x : Nat) : Prop :=
    (∀ k < f.n, u.rdByte r.space (r.line * 64 + a.off + k) = byteOf x k) ∧
    ∀ sp x, (sp ≠ r.space ∨ x < r.line * 64 + a.off ∨ r.line * 64 + a.off + f.n ≤ x) → u.rdByte sp x = s.rdByte sp x
  (∀ w reg, f.kind = .load w → f.dst = some (.v, reg) → f.zero = [] → alone →
    (r.lanes.map (·.lane)).Nodup → (∀ a ∈ r.lanes, a.lane < 1024) →
    (r.space ≠ .glob → returns (.loadDataReturn ⟨f.id⟩) w reg fun a => s.rd r.space (r.line * 64 + a.off) f.n) ∧
    (∀ y, r.space = .glob → (r.cc = 0 ∨ (f.order = 0 ∧ f.aux ≠ [1])) → s.l1Line f.core r.line = some y →
      (∀ k ∈ r.sectors, y.has k = true) → returns (.loadDataReturn ⟨f.id⟩) w reg fun a => lineRd y.data a.off f.n)) ∧
  (∀ a op et reg, f.kind = .atomic op et → f.n = atomWidth et → f.dst = some (.v, reg) → f.zero = [] → r.lanes = [a] → a.lane < 1024 →
    alone → present →
    let old := s.rd r.space (r.line * 64 + a.off) f.n
    ∃ u, exec (.storePerformed ⟨f.id⟩) s = .next u ∧ leaves u a ((atomNew op et old a.data a.cmp).getD old) ∧
      (∀ k < atomWidth et / 4, u.reg f.team .v (reg + k) a.lane = old / 2 ^ (32 * k) % 2 ^ 32) ∧ ∀ e ∈ u.flights, e.id ≠ f.id) ∧
  (∀ a et reg, f.kind = .atagg et → f.n = atomWidth et → f.dst = some (.v, reg) → r.lanes = [a] →
    (f.contrib.map (·.1)).Nodup → (∀ q ∈ f.contrib, q.1 < 1024) → alone → present →
    let old := s.rd r.space (r.line * 64 + a.off) f.n
    ∃ u, exec (.storePerformed ⟨f.id⟩) s = .next u ∧ leaves u a ((old + a.data) % 256 ^ f.n) ∧
      (∀ j l x, f.contrib[j]? = some (l, x) → ∀ k < atomWidth et / 4, u.reg f.team .v (reg + k) l =
        (old + ((f.contrib.take j).map (·.2)).sum) % 256 ^ f.n / 2 ^ (32 * k) % 2 ^ 32) ∧ ∀ e ∈ u.flights, e.id ≠ f.id) ∧
  (∀ a, f.kind = .store → f.dst = none → r.lanes = [a] → r.space ≠ .glob → r.pte = none →
    (∀ h, r.space = .win h → s.group? h ≠ none) → (∀ k, r.space = .priv k → s.team? k ≠ none) →
    ∃ u, exec (.storePerformed ⟨f.id⟩) s = .next u ∧
      (∀ k < f.n, u.rdByte r.space (r.line * 64 + a.off + k) = byteOf a.data k) ∧
      ∀ sp x, (sp ≠ r.space ∨ x < r.line * 64 + a.off ∨ r.line * 64 + a.off + f.n ≤ x) → u.rdByte sp x = s.rdByte sp x) ∧
  (∀ a, f.kind = .store → r.lanes = [a] → r.space = .glob → r.cc = 0 → r.pte = none → s.dirOf r.line = {} →
    s.slcQ = [] → s.inSlc r.line → s.seenOn f.core r.line = [] → s.unread .glob r.line →
    ∃ u f', exec (.slcRequest ⟨f.id, r.line⟩) s = .next u ∧ u.flight? f.id = some f' ∧ f'.performed = true ∧ f'.returned = false ∧
      (∀ k < f.n, u.rdByte .glob (r.line * 64 + a.off + k) = byteOf a.data k) ∧
      ∀ sp x, (sp ≠ .glob ∨ x < r.line * 64 + a.off ∨ r.line * 64 + a.off + f.n ≤ x) → u.rdByte sp x = s.rdByte sp x) ∧
  (∀ p, f.kind = .arm → f.aux ≠ [2] → f.dst = none → t.split? f.split = some p →
    ∃ u q, exec (.monitorRegistration ⟨f.id⟩) s = .next u ∧ u.splitOf f.team f.split = some q ∧ q.mon = .armed ∧
      q.monLine = r.line ∧ (s.slcSlice r.line, f.team, f.split, r.line) ∈ u.monRegs ∧ ∀ sp x, u.rdByte sp x = s.rdByte sp x)

/-- R101, R105, R106, R153, R283. L1_INVALIDATION takes a hardware-coherent line and its presence bit from a core; what an
earlier class of the page has left dirty there stays (log 14).
FENCE_COMPLETE of a split whose earlier accesses are done and that holds no store ends its fence. WAITMON_TIMEOUT ends a wait
with reason 3. CMAINT_COMPLETE of an invalidation up to device scope drops its lines from the L1 of the core that issued it. ICINV_COMPLETE drops the range from
every instruction cache and loop buffer.
When a held store is released is the reading of log 16. -/
def Obligations.FencesMonitorsMaintenanceComplete : Prop := ∀ s : State,
  (∀ core line, (core, line) ∈ s.l1Invs → ∃ u, exec (.l1Invalidation ⟨core, line⟩) s = .next u ∧
    (core, line) ∉ u.l1Invs ∧ (u.dirOf line).cores.getLsbD core = false ∧
    ∀ c, u.core? core = some c → ∀ x ∈ c.l1, x.line = line → x.dirty ≠ 0) ∧
  (∀ core line, (core, line) ∉ s.l1Invs → exec (.l1Invalidation ⟨core, line⟩) s = .next s) ∧
  (∀ tid uid p f, s.splitOf tid uid = some p → p.fence = some f → f.trap = none → s.fenceReady tid uid f.kind f.scope f.before = true →
    (∀ x ∈ s.flights, x.team = tid → x.split = uid → x.held = false) →
    ∃ u, exec (.fenceComplete ⟨tid, uid⟩) s = .next u ∧ u.splitOf tid uid = some { p with fence := none, restarts := 0 } ∧
      s.sameData u) ∧
  (∀ tid t uid p d dl, s.team? tid = some t → t.split? uid = some p → p.monWait = some ⟨d, some dl, none⟩ → dl ≤ s.time →
    p.st = .monWait → t.residence = .resident → t.handler = none → (∀ q ∈ t.deferred, q.uid ≠ uid) →
    ∃ u q, exec (.waitmonTimeout ⟨tid, uid⟩) s = .next u ∧ u.reg tid .g d 0 = 3 ∧ u.splitOf tid uid = some q ∧ q.st = .ready ∧
      q.pc = p.pc + 4 ∧ q.mon = .disarmed ∧ q.monWait = none) ∧
  (∀ f r c extent scope, s.flight? f.id = some f → f.kind = .cmaint 1 extent scope → f.reqs = [r] →
    s.mayPerform f r = true → f.returned = false → extent ≤ 1 → scope ≤ 5 → s.core? f.core = some c → (c.l1.map (·.line)).Nodup →
    ∃ u c', exec (.cmaintComplete ⟨f.id⟩) s = .next u ∧ u.core? f.core = some c' ∧ (∀ x ∈ c'.l1, x.line ∉ f.zero) ∧
      (∀ e ∈ u.flights, e.id = f.id → e.returned = true) ∧ ∀ sp x, u.rdByte sp x = s.rdByte sp x) ∧
  (∀ tid t uid p g lo hi, s.team? tid = some t → t.split? uid = some p → s.group? t.group = some g → p.icinv = some (lo, hi) →
    ∃ u, exec (.icinvComplete ⟨tid, uid⟩) s = .next u ∧ u.splitOf tid uid = some { p with icinv := none } ∧
      (∀ c ∈ u.cores, ∀ x ∈ c.icache, x.asid = g.asid → x.line * 64 < lo ∨ hi ≤ x.line * 64) ∧
      (∀ y ∈ u.teams, ∀ x ∈ y.loop, x.asid = g.asid → x.va + (if x.w1.isSome then 8 else 4) ≤ lo ∨ hi ≤ x.va) ∧ s.sameData u)

/-- R88 to R94, R96, R351, R387. After PAGE_WALK_COMPLETE that found a leaf (its tables in frames of the context's own or no key) the
core's TLB hits. FAULT_REPLY frees the ticket
and lets the parked split go on or refuses it. PARKED_REPLAY of a split parked at a fetch lets it fetch again, or, refused,
traps with code 323. TRANSLATION_INVALIDATION drops every TLB entry it covers and starts a generation; the ninth waits.
INVALIDATION_ACK acknowledges the oldest once its generation has drained.
The fault message and the refusal's trap follow the readings of log 13. -/
def Obligations.TranslationEvents : Prop := ∀ s : State,
  (∀ core asid va s1 e, s.core? core ≠ none → s.ctx? asid ≠ none → s.translate (some core) asid va = (s1, some (some e)) →
    e.alien = false →
    exec (.pageWalkComplete ⟨core, asid, va⟩) s = .next s1 ∧ s1.translate (some core) asid va = (s1, some (some e))) ∧
  (∀ (e : EvReply) f tid uid p k, s.tickets.find? (fun q => decide (q.1 = e.ticket)) = some (e.ticket, .fault f) →
    f.src = .split tid uid → s.splitOf tid uid = some p → p.park = some k → s.faultQ = [] →
    ∃ u, exec (.faultReply e) s = .next u ∧ (∀ q ∈ u.tickets, q.1 ≠ e.ticket) ∧ s.sameData u ∧
      u.splitOf tid uid = some { p with
        park := some { k with resumed := decide (e.status = 0), refused := decide (e.status ≠ 0) } }) ∧
  (∀ t p g k, s.team? t.id = some t → t.split? p.uid = some p → s.group? t.group = some g → p.park = some k → k.kind = .fetch →
    t.residence = .resident → t.handler = none → s.groupRuns g = true → (∀ q ∈ t.deferred, q.uid ≠ p.uid) →
    (k.refused = false → k.resumed = true → ∃ u, exec (.parkedReplay ⟨t.id, p.uid⟩) s = .next u ∧
      u.splitOf t.id p.uid = some { p with park := none, st := .ready } ∧ s.sameData u) ∧
    (k.refused = true → CanTrap s t p g 323 → ∃ u, exec (.parkedReplay ⟨t.id, p.uid⟩) s = .next u ∧
      TakesTrap s u t p 323 16 p.exec false p.pc)) ∧
  (∀ kind, s.invs.length < 8 → ∃ u, exec (.translationInvalidation ⟨kind⟩) s = .next u ∧ u.gen = s.gen + 1 ∧
    u.invs = s.invs ++ [⟨kind, s.gen⟩] ∧ s.sameData u ∧
    (∀ x ∈ u.l2Tlb, invCovers kind x.asid x.vpn x.lg x.global = false) ∧
    ∀ c ∈ u.cores, ∀ x ∈ c.tlb, invCovers kind x.asid x.vpn x.lg x.global = false) ∧
  (∀ kind, 8 ≤ s.invs.length → exec (.translationInvalidation ⟨kind⟩) s = .next s) ∧
  (∀ i is, s.invs = i :: is → s.drained i.gen = true →
    exec .invalidationAck s = .next { s with invs := is, outbox := s.outbox ++ [.invAck i.gen] })

/-- R71, R100, R103, R383, R384. From MINCFG on: HOST_READ_SHARED answers the bytes and makes the host a sharer;
HOST_READ_FOR_OWNERSHIP, with no device copy and no other agent's copy left, makes it the owner; HOST_WRITE writes the bytes and no other;
HOST_ATOMIC with operation 0 adds and answers the bytes it found; a range that is not backed is answered with status 1
and nothing else happens. SNOOP_RESPONSE puts the host's dirty sector into the SLC. FRAME_CLEAN begins its work and
FRAME_CLEAN_COMPLETE answers it.
The forms of the answers are the readings of log 14. -/
def Obligations.HostMemoryRequests : Prop := ∀ s : State,
  let lines (pa n : Nat) : List Nat := ((List.range n).map fun i => (pa + i) / 64).eraseDups
  let there (pa n : Nat) : Prop := s.slcQ = [] ∧ ∀ l ∈ lines pa n, (∀ q ∈ s.recalls, q.1 ≠ l) ∧ s.inSlc l
  let calm (pa n agent : Nat) : Prop := there pa n ∧ ∀ l ∈ lines pa n, (s.dirOf l).cores = 0 ∧
    ((s.dirOf l).host = .i ∨ (s.dirOf l).host = .m ∧ (s.dirOf l).owner = agent)
  (∀ e : EvHostRead, 2 ≤ s.boot.state → s.hostStatus e.binding e.ide e.pa e.n = 0 →
    (there e.pa e.n → ∃ u ps, exec (.hostReadShared e) s = .next u ∧
      u.outbox = s.outbox ++ [.memData 0 ((List.range e.n).map fun i => s.rdByte .glob (e.pa + i)) ps] ∧
      (∀ l ∈ lines e.pa e.n, (u.dirOf l).host = .s) ∧ s.sameData u) ∧
    (calm e.pa e.n e.agent → ∃ u ps, exec (.hostReadForOwnership e) s = .next u ∧
      u.outbox = s.outbox ++ [.memData 0 ((List.range e.n).map fun i => s.rdByte .glob (e.pa + i)) ps] ∧
      (∀ l ∈ lines e.pa e.n, (u.dirOf l).host = .m) ∧ s.sameData u)) ∧
  (∀ e : EvHostRead, 2 ≤ s.boot.state → s.slcQ = [] → (∃ i < e.n, s.backed (e.pa + i) = false) →
    exec (.hostReadShared e) s = .next (s.send (.memData 1 (List.replicate e.n 255) []))) ∧
  (∀ e : EvHostWrite, 2 ≤ s.boot.state → s.hostStatus e.binding e.ide e.pa e.data.length = 0 → calm e.pa e.data.length e.agent →
    ∃ u, exec (.hostWrite e) s = .next u ∧ u.outbox = s.outbox ++ [.memDone 0] ∧
      (∀ i, ∀ h : i < e.data.length, u.rdByte .glob (e.pa + i) = e.data[i]) ∧
      (∀ l ∈ lines e.pa e.data.length, (u.dirOf l).host = .m) ∧
      ∀ sp a, (sp ≠ .glob ∨ a < e.pa ∨ e.pa + e.data.length ≤ a) → u.rdByte sp a = s.rdByte sp a) ∧
  (∀ e : EvHostAtomic, let n := if e.width = 8 then 8 else 4
    2 ≤ s.boot.state → e.op = 0 → s.hostStatus e.binding e.ide e.pa n = 0 → calm e.pa n e.agent →
    ∃ u ps, exec (.hostAtomic e) s = .next u ∧
      u.outbox = s.outbox ++ [.memData 0 ((List.range n).map fun i => s.rdByte .glob (e.pa + i)) ps] ∧
      u.rd .glob e.pa n = (s.rd .glob e.pa n + e.operand) % 256 ^ n ∧
      ∀ sp a, (sp ≠ .glob ∨ a < e.pa ∨ e.pa + n ≤ a) → u.rdByte sp a = s.rdByte sp a) ∧
  (∀ line drop k (d : BitVec 128), s.recalls.find? (fun r => decide (r.1 = line)) = some (line, drop) → k < 4 →
    ∃ u, exec (.snoopResponse ⟨line, [(k, d)]⟩) s = .next u ∧ (∀ r ∈ u.recalls, r.1 ≠ line) ∧
      (u.dirOf line).host = (if drop then .i else .s) ∧ u.rd .glob (line * 64 + 16 * k) 16 = d.toNat ∧
      ∀ sp a, (sp ≠ .glob ∨ a < line * 64 + 16 * k ∨ line * 64 + 16 * k + 16 ≤ a) → u.rdByte sp a = s.rdByte sp a) ∧
  (∀ frames, ∃ u, exec (.frameClean ⟨frames⟩) s = .next u ∧ u.cleans = s.cleans ++ [frames]) ∧
  (∀ f fs s1, s.cleans = f :: fs → s.cleanFrames f = (s1, true) →
    exec .frameCleanComplete s = .next { s1 with cleans := fs, outbox := s1.outbox ++ [.cleanDone f] })

/-- R62 to R69. BANK_ACCESS of an idle bank is served, a write marking its row's slot dirty; behind other requests it queues.
PER_BANK_REFRESH falls due while a segment operation runs. BANK_SEGMENT_REQUEST of a promotion answers status 3 for a row
that has a slot, starts a copy into a free slot, and answers 5 with every slot pinned; of a demotion it answers 6 with no
slot, frees a clean one with status 1, and writes a dirty one back first. The ends of a write-back and of a copy free and
fill the slot and answer.
An arrival behind segment operations queues by the reading of log 15. -/
def Obligations.BankEvents : Prop := ∀ (s : State) (k : Nat), let b := s.bank k
  let answers (u : State) (team tok x : Nat) : Prop := ∀ t a, s.team? team = some t → t.awaits.find? (fun a => decide (a.tok = tok)) = some a →
    (∀ e ∈ t.unset, tok ∉ e.above) → u.reg team .g a.reg 0 = x % 2 ^ 32
  (∀ row write, b.running = none → b.queue = [] → ∃ u, exec (.bankAccess ⟨k, row, write⟩) s = .next u ∧
    (u.bank k).slots = b.slots.map (fun q => if write = true ∧ q.2.frow = row then (q.1, { q.2 with dirty := true }) else q) ∧
    (u.bank k).queue = []) ∧
  (∀ row write, b.running ≠ none → ∃ u, exec (.bankAccess ⟨k, row, write⟩) s = .next u ∧
    (u.bank k).queue = b.queue ++ [.access row write none] ∧ (u.bank k).slots = b.slots) ∧
  (∃ u, exec (.perBankRefresh ⟨k⟩) s = .next u ∧ 
    u.bank k = if b.running.isSome then { b with refreshDue := true } else { b with refreshDue := false, acts := [] }) ∧
  (∀ row pin tok team q, b.running = none → b.refreshDue = false → b.queue = .promote row pin tok team :: q →
    (∀ i x, b.slotOf row = some (i, x) → ∃ u, exec (.bankSegmentRequest ⟨k⟩) s = .next u ∧ (u.bank k).running = none ∧
      (u.bank k).queue = q ∧ answers u team tok (promoteResult i 3)) ∧
    (∀ i, b.slotOf row = none → (∀ x ∈ b.slots, x.1 ≠ i) → (∀ j < i, ∃ x ∈ b.slots, x.1 = j) → i < s.slotsS →
      ∃ u, exec (.bankSegmentRequest ⟨k⟩) s = .next u ∧ (u.bank k).running = some (.copy i row pin 0 tok team)) ∧
    (b.slotOf row = none → (∀ j < s.slotsS, ∃ x ∈ b.slots, x.1 = j) → (∀ x ∈ b.slots, x.2.pin = true) →
      ∃ u, exec (.bankSegmentRequest ⟨k⟩) s = .next u ∧ (u.bank k).slots = b.slots ∧ answers u team tok (promoteResult 0 5))) ∧
  (∀ row tok team q, b.running = none → b.refreshDue = false → b.queue = .demote row tok team :: q →
    (b.slotOf row = none → ∃ u, exec (.bankSegmentRequest ⟨k⟩) s = .next u ∧ (u.bank k).queue = q ∧
      answers u team tok (promoteResult 0 6)) ∧
    (∀ i x, b.slotOf row = some (i, x) → x.dirty = false → ∃ u, exec (.bankSegmentRequest ⟨k⟩) s = .next u ∧
      (∀ y ∈ (u.bank k).slots, y.1 ≠ i) ∧ answers u team tok (promoteResult i 1)) ∧
    (∀ i x, b.slotOf row = some (i, x) → x.dirty = true → ∃ u, exec (.bankSegmentRequest ⟨k⟩) s = .next u ∧
      (u.bank k).running = some (.demoteWb i tok team))) ∧
  (∀ i row pin tok team, b.running = some (.evictWb i row pin tok team) → ∃ u, exec (.segmentWritebackDone ⟨k⟩) s = .next u ∧
    (u.bank k).running = some (.copy i row pin 2 tok team) ∧ ∀ y ∈ (u.bank k).slots, y.1 ≠ i) ∧
  (∀ i tok team, b.running = some (.demoteWb i tok team) → ∃ u, exec (.segmentWritebackDone ⟨k⟩) s = .next u ∧
    (u.bank k).running = none ∧ (∀ y ∈ (u.bank k).slots, y.1 ≠ i) ∧ answers u team tok (promoteResult i 2)) ∧
  (∀ i row pin st tok team, b.running = some (.copy i row pin st tok team) → ∃ u, exec (.segmentCopyDone ⟨k⟩) s = .next u ∧
    (u.bank k).running = none ∧ (i, ⟨pin, false, row, s.time / 1024 % 2 ^ 32⟩) ∈ (u.bank k).slots ∧
    answers u team tok (promoteResult i st))

/-! ### Engines and the grid on their own (R113, R118 to R132, R213, R222 to R272, R341) -/

/-- R118, R120, R122, R124, R128, R129, R131. ENGINE_COMMAND_START of a copy: an unresolved guard keeps it back, a guard of no
discards it, and otherwise, its team's earlier accesses done, it starts or, on a failed check, halts its context with the code
of engine and kind. ENGINE_TRANSFER reads a unit of the window and writes one. ENGINE_COMMAND_COMPLETE moves C on, and a
barrier object gets its arrival.
The unit that a transfer moves is the reading of log 17. -/
def Obligations.EngineCommandEvents : Prop := ∀ (s : State) (g : Group) (sel : Nat) (cmd : EngCmd),
  s.group? g.id = some g → s.groupRuns g = true → sel % 8 ≤ 1 →
  ((g.eng sel).head = some cmd →
    (g.ruling cmd = .pending → exec (.engineCommandStart ⟨g.id, sel⟩) s = .next s) ∧
    (g.ruling cmd = .no → (g.eng sel).cmd? cmd.n = some cmd → s.reportThere g cmd.bar cmd.before = true → ∃ u h, exec (.engineCommandStart ⟨g.id, sel⟩) s = .next u ∧ u.group? g.id = some h ∧
      (∀ x ∈ (h.eng sel).cmds, x.n = cmd.n → x.st = .done) ∧ (h.eng sel).halted = (g.eng sel).halted) ∧
    (g.ruling cmd = .yes → s.priorDone cmd (copyPaths cmd) = true → s.indexThere g cmd = true →
      let fails := firstFail (if cmd.op = .coll then s.checkColl g cmd else (s.checkCopy g cmd).1)
      (fails = none → ∃ u h, exec (.engineCommandStart ⟨g.id, sel⟩) s = .next u ∧ u.group? g.id = some h ∧
        (∀ x ∈ (h.eng sel).cmds, x.n = cmd.n → x.st = .started) ∧ s.sameData u) ∧
      (∀ k loc, fails = some (k, loc) → (g.eng sel).cmd? cmd.n = some cmd → s.reportThere g cmd.bar cmd.before = true →
        ∃ u h, exec (.engineCommandStart ⟨g.id, sel⟩) s = .next u ∧ u.group? g.id = some h ∧
        (h.eng sel).halted = some (192 + 8 * (sel % 8) + k)))) ∧
  ((g.eng sel).cmd? cmd.n = some cmd → cmd.st = .started → cmd.op ≠ .coll →
    (cmd.pend = [] → cmd.progress < copyTotal cmd → lvlOf (bw cmd.block 0) = 1 → (copyUnit cmd cmd.progress).1 + 4 ≤ g.ws →
      s.isPoisoned (.win g.id) ((copyUnit cmd cmd.progress).1 / 64 * 64 + (copyUnit cmd cmd.progress).1 % 64) 4 = false →
      cmd.buf = [] → cmd.ahead = [] →
      ∃ u h x, exec (.engineTransfer ⟨g.id, sel, cmd.n⟩) s = .next u ∧ u.group? g.id = some h ∧ (h.eng sel).cmd? cmd.n = some x ∧
        x.pend = [(0, (copyUnit cmd cmd.progress).2, BitVec.ofNat 32 (s.rd (.win g.id) (copyUnit cmd cmd.progress).1 4))] ∧
        s.sameData u) ∧
    (∀ k off w rest, cmd.pend = (k, off, w) :: rest → lvlOf (bw cmd.block 2) = 1 → 256 ≤ off → off + 4 ≤ g.ws →
      (∀ i < 4, (g.eng sel).laterWrote cmd.n (.win g.id) (off + i) = false) →
      ∃ u h x, exec (.engineTransfer ⟨g.id, sel, cmd.n⟩) s = .next u ∧ u.group? g.id = some h ∧ (h.eng sel).cmd? cmd.n = some x ∧
        x.pend = rest ∧ x.progress = cmd.progress + 1 ∧ x.moved = cmd.moved + 4 ∧ u.rd (.win g.id) off 4 = w.toNat ∧
        ∀ sp a, (sp ≠ .win g.id ∨ a < off ∨ off + 4 ≤ a) → u.rdByte sp a = s.rdByte sp a)) ∧
  (cmd.moved? = true → (g.eng sel).cmds = [cmd] → cmd.n = (g.eng sel).c + 1 → s.reportThere g cmd.bar cmd.before = true →
    ∃ u h, exec (.engineCommandComplete ⟨g.id, sel, cmd.n⟩) s = .next u ∧ u.group? g.id = some h ∧
      (h.eng sel).c = cmd.n ∧ (h.eng sel).cmds = [] ∧
      (cmd.bar = 0 → s.sameData u) ∧
      ∀ sp a, cmd.bar ≠ 0 → s.engWord g cmd.bar.toNat 16 16 true cmd.before = .ok (sp, a) →
        (s.rd sp (a + 4) 4 + 1) % 2 ^ 32 < s.rd sp a 4 → u.rd sp (a + 4) 4 = (s.rd sp (a + 4) 4 + 1) % 2 ^ 32)

/-- R113, R213, R228, R341. YJOIN_COMPLETE makes the first waiting group a member where the yard has room and none of its
members is on the same core. YLEAVE_COMPLETE revokes a quiet member and answers. GRID_TAKE takes all quads at once and lets
the waiting GRID go on; UNGRID_COMPLETE gives the grid back. TOKEN_GRANT gives the head of the queue its whole need;
TOKEN_IDLE_RELEASE takes the tokens of a grid idle for 1,024 clocks. -/
def Obligations.YardGridTokenEvents : Prop := ∀ s : State,
  let answers (u : State) (team tok : Nat) (good : Nat → Prop) : Prop :=
    ∀ t a, s.team? team = some t → t.awaits.find? (fun a => decide (a.tok = tok)) = some a → (∀ e ∈ t.unset, tok ∉ e.above) →
      good (u.reg team .g a.reg 0)
  (∀ y w ws g, s.yards.find? (fun z => decide (z.asid = y.asid ∧ z.key = y.key)) = some y → y.waiting = w :: ws →
    s.yardHome y = true → s.yardOf w.group = none → s.group? w.group = some g →
    (∀ m ∈ y.members, ∀ h, s.group? m.group = some h → h.core ≠ g.core) → y.members.length < 8 →
    ∃ u z m, exec (.yjoinComplete ⟨y.asid, y.key⟩) s = .next u ∧ z ∈ u.yards ∧ z.asid = y.asid ∧ z.key = y.key ∧ z.waiting = ws ∧
      m ∈ z.members ∧ m.group = w.group ∧ m.leaving = false ∧ (∀ k ∈ y.members, k.idx ≠ m.idx) ∧
      answers u w.team w.tok fun x => x = 8 * (y.members.length + 1) + m.idx) ∧
  (∀ g y m tid tok, s.group? g.id = some g → s.yardOf g.id = some (y, m) → m.leaving = true → s.yardQuiet g y m.idx = true →
    g.leavingYard = [(tid, tok)] →
    ∃ u h, exec (.yleaveComplete ⟨g.id⟩) s = .next u ∧ u.yardOf g.id = none ∧ u.group? g.id = some h ∧ h.leavingYard = [] ∧
      answers u tid tok fun x => x = (8 * (y.members.length - 1) + m.idx) % 2 ^ 32) ∧
  (∀ t p g o vs, s.team? t.id = some t → t.residence = .resident → t.grid = none → s.group? t.group = some g →
    (t.handler.toList ++ t.splits).find? (fun p => match p.busy with | some (.grid _, _) => true | _ => false) = some p → t.split? p.uid = some p →
    p.busy = some (.grid o, vs) → s.gridFits t.core (gridQuads o.d.toNat t.quad) = true →
    ∃ u x q r, exec (.gridTake ⟨t.id⟩) s = .next u ∧ u.team? t.id = some x ∧ x.grid = some q ∧ q.shape = o.d.toNat ∧
      q.quads = gridQuads o.d.toNat t.quad ∧ x.split? p.uid = some r ∧ r.pc = p.pc + 4 ∧ r.st = .ready ∧ s.sameData u) ∧
  (∀ t p g o vs, s.team? t.id = some t → t.residence ≠ .ended → s.group? t.group = some g →
    (t.handler.toList ++ t.live).find? (fun p => match p.busy with | some (.ungrid _, _) => true | _ => false) = some p → t.split? p.uid = some p →
    p.busy = some (.ungrid o, vs) → s.gridHalt t = none → s.gridWork t = false →
    ∃ u x r, exec (.ungridComplete ⟨t.id⟩) s = .next u ∧ u.team? t.id = some x ∧ x.grid = none ∧
      x.split? p.uid = some r ∧ r.pc = p.pc + 4 ∧ r.st = .ready ∧ s.sameData u) ∧
  (∀ tid rest t q, s.gov.queue = tid :: rest → s.team? tid = some t → t.grid = some q → q.retake = false → q.tokens = 0 →
    (q.quads.length ≤ s.gov.free → ∃ u x, exec .tokenGrant s = .next u ∧ u.team? tid = some x ∧
      x.grid = some { q with tokens := q.quads.length, idle := 0 } ∧ u.gov.free = s.gov.free - q.quads.length ∧
      u.gov.queue = rest ∧ s.sameData u) ∧
    (s.gov.free < q.quads.length → exec .tokenGrant s = .next s)) ∧
  (∀ t q, s.team? t.id = some t → t.grid = some q → q.tokens ≠ 0 → 1024 ≤ q.idle → s.gridBusy t = false →
    ∃ u x, exec (.tokenIdleRelease ⟨t.id⟩) s = .next u ∧ u.team? t.id = some x ∧
      x.grid = some { q with tokens := 0, idle := 0 } ∧
      u.gov.free = min (s.gov.free + q.tokens) (s.gov.pool - u.tokensHeld) ∧ s.sameData u)

/-- R222, R224, R227, R229, R236, R242, R260. MATRIX_COMMAND_START starts the head that may compute and passes its checks.
MLOOP_STEP whose operands can be read updates every element of the tile and counts the step. MATRIX_COMMAND_FINISH of an MLOOP
after its last step, and of a MACC, moves C on. MXV_FINISH and RBOX_FINISH, their clocks over, their grid ready and
their lines there, write v[D] of the captured lanes.
The order of a step's checks and fetches is the reading of log 19. -/
def Obligations.MatrixEvents : Prop := ∀ (s : State) (g : Group), s.group? g.id = some g → s.groupRuns g = true →
  (∀ sel cmd, sel % 8 = 2 → (g.eng sel).head = some cmd → g.ruling cmd = .yes → s.priorDone cmd (matPaths cmd) = true →
    ((cmd.op = .mloop ∨ cmd.op = .macc) → s.cellsReady cmd = true) → s.gridStopped cmd = false →
    (∀ x ∈ (g.eng sel).cmds, x.n < cmd.n → x.st ≠ .started) → firstFail (s.matFails g cmd) = none →
    ∃ u h, exec (.matrixCommandStart ⟨g.id, sel⟩) s = .next u ∧ u.group? g.id = some h ∧
      (∀ x ∈ (h.eng sel).cmds, x.n = cmd.n → x.st = .started) ∧ s.sameData u) ∧
  (∀ sel cmd s1 s2 ms xs, (g.eng sel).cmd? cmd.n = some cmd → cmd.op = .mloop → cmd.st = .started → s.cellsReady cmd = true →
    cmd.progress < bw cmd.block 4 → firstFail ((mlRanges cmd cmd.progress).flatMap (s.opFails g cmd false)) = none →
    s.opReads g cmd (mlMasks cmd cmd.progress) = .ok (s1, ms) → (∀ m ∈ ms, popcount 48 m = fNz cmd.fmt.toNat) →
    s1.opReads g cmd ((mlRanges cmd cmd.progress).drop (mlMasks cmd cmd.progress).length) = .ok (s2, xs) →
    ∀ h, s2.group? g.id = some h →
    ∃ u h', exec (.mloopStep ⟨g.id, sel, cmd.n⟩) s = .next u ∧ u.group? g.id = some h' ∧
      h'.acc = ssets 0 h.acc (g.stepTile cmd (mlPanels cmd cmd.progress (ms ++ xs))) ∧
      (∀ x ∈ (h'.eng sel).cmds, x.n = cmd.n → x.progress = cmd.progress + 1) ∧ ∀ sp a, u.rdByte sp a = s2.rdByte sp a) ∧
  (∀ sel cmd, sel % 8 = 2 → (g.eng sel).cmds = [cmd] → cmd.n = (g.eng sel).c + 1 → cmd.st = .started →
    s.reportThere g cmd.bar cmd.before = true →
    (cmd.op = .mloop → bw cmd.block 4 ≤ cmd.progress → s.cellsReady cmd = true →
      ∃ u h, exec (.matrixCommandFinish ⟨g.id, sel, cmd.n⟩) s = .next u ∧ u.group? g.id = some h ∧ (h.eng sel).c = cmd.n ∧
        (h.eng sel).cmds = [] ∧ h.acc = g.acc) ∧
    (cmd.op = .macc → s.cellsReady cmd = true →
      ∃ u h, exec (.matrixCommandFinish ⟨g.id, sel, cmd.n⟩) s = .next u ∧ u.group? g.id = some h ∧ (h.eng sel).c = cmd.n ∧
        h.acc = ssets 0 g.acc (g.maccTile cmd))) ∧
  (∀ t p o n v vs s0 sup reqs s1 xs, s.team? t.id = some t → t.split? p.uid = some p → t.group = g.id → t.residence = .resident →
    p.busy = some (.mxv o, n :: v :: vs) → o.d.toNat < 192 → s.mxvReady t g n = true → p.clocked = true →
    let q : MxvRun := { mxvOf (v :: vs) with cmd := { (mxvOf (v :: vs)).cmd with ahead := p.ahead } }
    let c : Ctx := { mkCtx (.mxv o) t p g s.nonce with act := q.act }
    let lanes := (bitsBelow q.act t.size).filter fun l => decide (l < bw q.cmd.block 4)
    mIsMx (xTy q.w) = false → firstFail (lanes.flatMap fun l => (mxvNeeds q l).flatMap (s.opFails g q.cmd false)) = none →
    s.wholeLines c q.cmd false (lanes.flatMap fun l => (mxvNeeds q l).map fun r => (l, r)) = .ok s0 sup reqs →
    (∀ r ∈ reqs, r.st ≠ .parked) → s0.mxvRead g q lanes = .ok (s1, xs) →
    ∃ u, exec (.mxvFinish ⟨t.id, p.uid⟩) s = .next u ∧ (s1.team? t.id ≠ none →
      ∀ j, ∀ h : j < lanes.length, u.reg t.id .v o.d.toNat lanes[j] =
        mxvOut q.w q.xs (lanes[j] * bw q.cmd.block 1) (xs.getD j 0) 0 % 2 ^ 32) ∧ ∀ sp a, u.rdByte sp a = s1.rdByte sp a) ∧
  (∀ t p o n w0 r act vs s0 sup reqs s1 boxes, s.team? t.id = some t → t.split? p.uid = some p → t.group = g.id → t.residence = .resident →
    p.busy = some (.rbox o, n :: w0 :: r :: act :: vs) → o.d.toNat < 192 → s.mxvReady t g n = true → p.clocked = true →
    let lanes := bitsBelow (BitVec.ofNat 1024 act) t.size
    let cmd : EngCmd := { n := 0, op := .mloop, team := 0, tword := 0, block := [BitVec.ofNat 32 w0], recs := [(0, BitVec.ofNat 128 r)], ahead := p.ahead }
    let c : Ctx := { mkCtx (.rbox o) t p g s.nonce with act := BitVec.ofNat 1024 act }
    vs.length = 8 * lanes.length → firstFail (s.opFails g cmd false ⟨0, opOff w0, 768⟩) = none →
    s.wholeLines c cmd false (lanes.map fun l => (l, ⟨0, opOff w0, 768⟩)) = .ok s0 sup reqs → (∀ r ∈ reqs, r.st ≠ .parked) →
    s0.opRead g cmd ⟨0, opOff w0, 768⟩ = .ok (s1, boxes) →
    ∃ u, exec (.rboxFinish ⟨t.id, p.uid⟩) s = .next u ∧ (s1.team? t.id ≠ none →
      ∀ j, ∀ h : j < lanes.length, u.reg t.id .v o.d.toNat lanes[j] = rboxHits ((vs.drop (8 * j)).take 8) boxes % 2 ^ 32) ∧
      ∀ sp a, u.rdByte sp a = s1.rdByte sp a)

/-- R246, R251 to R254. TPLOAD_SLOT_LOAD puts the program of a readable, well-formed image into its slot. RAY_START of a TRACE
ray whose direction is not degenerate and whose program is loaded gives the engine the ray. RAY_MICRO_OP_STEP executes one
micro-op wholly: the ray keeps the new record, or ends with its status; the step that would exceed the limit ends it.
The order of a ray's fault codes is the reading of log 20. -/
def Obligations.RayEvents : Prop := ∀ (s : State) (g : Group), s.group? g.id = some g → s.groupRuns g = true →
  (∀ cmd s1 x i, (g.eng 3).cmds.find? (fun c => decide (c.op = .tpload ∧ c.st = .started ∧ c.progress = 0)) = some cmd →
    s.opRead g cmd ⟨0, opOff (bw cmd.block 0), 8 * tpNl cmd + 4 * tpOps cmd⟩ = .ok (s1, x) →
    (∀ k < tpNl cmd, layoutOk (BitVec.ofNat 64 (x / 2 ^ (64 * k))) = true) → s1.tploadSlot g.core g.asid (tpPid cmd) = some i →
    ∃ u c p, exec (.tploadSlotLoad ⟨g.id⟩) s = .next u ∧ u.core? g.core = some c ∧ (i, p) ∈ c.programs ∧
      (∀ q ∈ c.programs, q.1 = i → q.2 = p) ∧ p.asid = g.asid ∧ p.pid = tpPid cmd ∧
      p.ops = (List.range (tpOps cmd)).map (fun k => BitVec.ofNat 32 (x / 2 ^ (64 * tpNl cmd + 32 * k))) ∧
      ∀ sp a, u.rdByte sp a = s1.rdByte sp a) ∧
  (∀ cmd l vs sp a, (g.eng 3).rayNext = some cmd → cmd.op = .trace → cmd.rays[cmd.progress]? = some (l, vs) →
    s.engRange g (lvlOf (bw cmd.block 0)) (offOf (bw cmd.block 0) + 128 * l) 128 true cmd.before = .ok (sp, a) → s.recordThere sp = true →
    g.holdsRay cmd.n l = false → (cmd.again ≤ cmd.progress ∨ s.coreRays g.core < 2048) →
    (traceRec cmd.block vs).degenerate = false → s.programOf g.core g.asid (traceRec cmd.block vs).pid ≠ none →
    s.programWaited g.core g.asid (traceRec cmd.block vs).pid = false →
    ∃ u h r, exec (.rayStart ⟨g.id⟩) s = .next u ∧ u.group? g.id = some h ∧ h.rays = g.rays ++ [r] ∧ r.n = cmd.n ∧ r.lane = l ∧
      r.space = sp ∧ r.addr = a ∧ r.words = (traceRec cmd.block vs).words ∧
      (∀ x ∈ (h.eng 3).cmds, x.n = cmd.n → ∃ y ∈ (g.eng 3).cmds, y.n = cmd.n ∧ x.progress = y.progress + 1) ∧ s.sameData u) ∧
  (∀ ray i p, g.rays.find? (fun r => decide (r.n = ray.n ∧ r.lane = ray.lane)) = some ray → s.recordThere ray.space = true →
    ray.started = true → ray.words ≠ [] → ray.final = [] → s.programOf g.core g.asid (rayRec ray.words).pid = some (i, p) →
    let r := rayRec ray.words
    (∀ w r', r.steps < 1048575 → p.ops[r.upc]? = some w → w.toNat / 2 ^ 27 ≠ 0 →
      r.micro (ray.nodeBuf p) w.toNat p.ops.length = .ok r' 0 →
      ∃ u h, exec (.rayMicroOpStep ⟨g.id, ray.n, ray.lane⟩) s = .next u ∧ u.group? g.id = some h ∧
        (∀ y ∈ h.rays, y.n = ray.n → y.lane = ray.lane → y.words = { r' with steps := r.steps + 1 }.words) ∧ s.sameData u) ∧
    (∀ w r' k, r.steps < 1048575 → p.ops[r.upc]? = some w → w.toNat / 2 ^ 27 ≠ 0 → k ≠ 0 →
      r.micro (ray.nodeBuf p) w.toNat p.ops.length = .ok r' k →
      ∃ u h, exec (.rayMicroOpStep ⟨g.id, ray.n, ray.lane⟩) s = .next u ∧ u.group? g.id = some h ∧
        ∀ y ∈ h.rays, ¬(y.n = ray.n ∧ y.lane = ray.lane)) ∧
    (1048575 ≤ r.steps → ∃ u h, exec (.rayMicroOpStep ⟨g.id, ray.n, ray.lane⟩) s = .next u ∧ u.group? g.id = some h ∧
      (∀ y ∈ h.rays, ¬(y.n = ray.n ∧ y.lane = ray.lane)) ∧ h.rayEnded = min 0xFFFF (g.rayEnded + 1)))

/-- R265 to R268, R271. RAST_COMMAND_START and REQUEST_PASS_START start the head of their mode where nothing runs and its checks
pass; the pass begins an empty list. RAST_TRIANGLE whose vertices and samples can be reached counts a triangle and a primitive.
REQUEST_PASS_SAMPLE passes over an invalid sample and appends a request for a new key. VRSL_LATCH at a primitive boundary puts
the staged map in force and answers LSEQ.
The order of the checks is the reading of log 21. -/
def Obligations.RasterEvents : Prop := ∀ (s : State) (g : Group), s.group? g.id = some g → s.groupRuns g = true →
  (∀ cmd, (g.eng 4).head = some cmd → (∀ x ∈ (g.eng 4).cmds, x.st ≠ .started) → g.ruling cmd = .yes →
    s.priorDone cmd (barPaths cmd.bar ++ lvlPaths (lvlOf (bw cmd.block 1)) ++ lvlPaths (lvlOf (bw cmd.block 3))) = true →
    firstFail (s.rastFails g cmd) = none →
    (bw cmd.block 0 % 4 ≠ 1 → ∃ u h, exec (.rastCommandStart ⟨g.id⟩) s = .next u ∧ u.group? g.id = some h ∧
      (∀ x ∈ (h.eng 4).cmds, x.n = cmd.n → x.st = .started) ∧ s.sameData u) ∧
    (bw cmd.block 0 % 4 = 1 → g.atlas.listFree = true → ∃ u h, exec (.requestPassStart ⟨g.id⟩) s = .next u ∧
      u.group? g.id = some h ∧ (∀ x ∈ (h.eng 4).cmds, x.n = cmd.n → x.st = .started) ∧ h.atlas.generating = true ∧
      h.atlas.count = 0 ∧ h.atlas.next = 0 ∧ s.sameData u)) ∧
  (∀ cmd, (g.eng 4).cmds.find? (fun c => decide (c.st = .started)) = some cmd →
    (∀ s1 x, rMode cmd = 0 → cmd.progress < bw cmd.block 4 → cmd.rays = [] → g.rast.staged = none →
      s.opRead g cmd ⟨3, (opOff (bw cmd.block 3) + 48 * cmd.progress : Nat), 48⟩ = .ok (s1, x) →
      let ws := (List.range 12).map fun k => BitVec.ofNat 32 (x / 2 ^ (32 * k))
      let r : Covering := match triOf ws with
        | some t => s1.updateSamples g cmd t ((bw cmd.block 5 + bw cmd.block 6 * 2 ^ 32 + cmd.progress) % 2 ^ 64)
            ((t.covered cmd).map (·.1))
        | none => { s := s1 }
      r.stop = none → ∀ h, r.s.group? g.id = some h → h.rast.staged = none →
      ∃ u h', exec (.rastTriangle ⟨g.id⟩) s = .next u ∧ u.group? g.id = some h' ∧ h'.rast.lseq = (h.rast.lseq + 1) % 2 ^ 32 ∧
        (∀ y ∈ (h'.eng 4).cmds, y.n = cmd.n → y.progress = cmd.progress + 1) ∧ ∀ sp a, u.rdByte sp a = r.s.rdByte sp a) ∧
    (∀ s1 sp a v, rMode cmd = 1 → cmd.progress < rTotal cmd →
      s.opUnit g cmd 1 (opPlace cmd 1 (opOff (bw cmd.block 1) + 16 * cmd.progress)) none 16 = (s1, .ok sp a v) →
      (visValid v = false → ∀ h, s1.group? g.id = some h → ∃ u h', exec (.requestPassSample ⟨g.id⟩) s = .next u ∧
        u.group? g.id = some h' ∧ (∀ y ∈ (h'.eng 4).cmds, y.n = cmd.n → y.progress = cmd.progress + 1) ∧
        h'.atlas.count = h.atlas.count ∧ ∀ sp a, u.rdByte sp a = s1.rdByte sp a) ∧
      (∀ key s2 s3 q b c q' b' c', visValid v = true →
        key = keyOf v (cmd.progress / rS cmd % rW cmd) (cmd.progress / rS cmd / rW cmd) s1.nonce →
        (∀ k ∈ g.atlas.keys, k.1 ≠ key) → g.atlas.count < bw cmd.block 4 →
        s1.opUnit g cmd 3 (opPlace cmd 3 (opOff (bw cmd.block 3) + 16 * g.atlas.count))
          (some (v % 2 ^ 64 + (visRate v * 2 ^ 30 + key.getD 3 0 % 2 ^ 15 * 2 ^ 15 + key.getD 2 0 % 2 ^ 15) * 2 ^ 64)) 16 =
            (s2, .ok q b c) →
        (∀ s2', s2' = (s2.modGroup g.id fun h => { h with
            atlas := { h.atlas with count := g.atlas.count + 1, keys := h.atlas.keys ++ [(key, g.atlas.count)] } }) →
          s2'.opUnit g cmd 1 (opPlace cmd 1 (opOff (bw cmd.block 1) + 16 * cmd.progress) + 12)
            (some (g.atlas.count * 256 + v / 2 ^ 96 % 256)) = (s3, .ok q' b' c')) →
        ∀ h, s3.group? g.id = some h → ∃ u h', exec (.requestPassSample ⟨g.id⟩) s = .next u ∧ u.group? g.id = some h' ∧
          (∀ y ∈ (h'.eng 4).cmds, y.n = cmd.n → y.progress = cmd.progress + 1) ∧ h'.atlas.keys = h.atlas.keys ∧
          ∀ sp a, u.rdByte sp a = s3.rdByte sp a))) ∧
  (∀ m tid tok, g.atBoundary = true → g.rast.staged = some (m, [(tid, tok)]) → ∃ u h, exec (.vrslLatch ⟨g.id⟩) s = .next u ∧
    u.group? g.id = some h ∧ h.rast.map = some m ∧ h.rast.staged = none ∧
    ∀ t a, s.team? tid = some t → t.awaits.find? (fun a => decide (a.tok = tok)) = some a → (∀ e ∈ t.unset, tok ∉ e.above) →
      u.reg tid .g a.reg 0 = g.rast.lseq % 2 ^ 32)

/-! ### Launches, power, pre-emption, contexts, boot, the debug window (R290 to R401) -/

/-- R297, R308, R312, R313, R316, R318, R320, R322 to R325, R327, R330, R345. What the events between a spawn and DONE do:
a granted CLAIM, a rotation, a reload, the return of a team's granules, the end of a group, a spawn write, the dispatch and
staging of a node, the placement of a group with the initial registers of its teams (R52), the completion of a node.
Where a rule leaves a case open the readings of log 22 apply. -/
def Obligations.LaunchEvents : Prop := ∀ s : State,
  (∀ core quad t p o n rest g, (s.quadOf core quad).claims = (t.id, p.uid) :: rest → s.team? t.id = some t →
    t.split? p.uid = some p → p.busy = some (.claim o, [n]) → s.group? t.group = some g →
    t.gran + n ≤ 24 → (t.gran + n) * 32 * t.size ≤ 524288 → n * t.size / 32 ≤ s.freeUnits core quad →
    ∃ u x r, exec (.claimGrant ⟨core, quad⟩) s = .next u ∧ u.team? t.id = some x ∧ x.gran = t.gran + n ∧
      x.split? p.uid = some r ∧ r.pc = p.pc + 4 ∧ r.st = .ready ∧
      u.reg t.id .g (o.d.toNat - 192) 0 = (t.gran + n) % 2 ^ 32 ∧
      ∀ k l, 8 * t.gran ≤ k → k < 192 → l < 1024 → u.reg t.id .v k l = 0) ∧
  (∀ t d ds, s.team? t.id = some t → t.deferred = d :: ds → t.rotDue ≠ 0 → t.handler = none → t.residence = .resident →
    (∃ v ∈ t.splits, t.spillable v = true ∧ s.passed t v = true) →
    ∃ u x v, exec (.splitRotation ⟨t.id⟩) s = .next u ∧ u.team? t.id = some x ∧ v ∈ t.splits ∧ t.spillable v = true ∧ s.passed t v = true ∧
      (∀ w ∈ t.splits, t.spillable w = true → s.passed t w = true → v.res ≤ w.res) ∧
      x.splits.map (·.uid) = (t.splits.filter fun p => p.uid ≠ v.uid).map (·.uid) ++ [d.uid] ∧
      (∃ q ∈ x.splits, q.uid = d.uid ∧ q.slot = v.slot ∧ q.reload = 16) ∧
      x.deferred.map (·.uid) = ds.map (·.uid) ++ [v.uid] ∧ x.rotDue = t.rotDue - 1) ∧
  (∀ t p, s.team? t.id = some t → t.residence = .resident → p ∈ t.splits → p.reload ≠ 0 →
    (∀ q ∈ t.splits, q.reload = 0 ∨ p.reload ≤ q.reload) →
    ∃ u x, exec (.splitReload ⟨t.id⟩) s = .next u ∧ u.team? t.id = some x ∧
      x.splits.map (·.reload) = t.splits.map fun q => q.reload - p.reload) ∧
  (∀ t, s.team? t.id = some t → t.residence = .ended → t.grid = none → (∀ f ∈ s.flights, f.team ≠ t.id) →
    ∃ u, exec (.teamGranuleReturn ⟨t.id⟩) s = .next u ∧ u.team? t.id = none) ∧
  (∀ g n, s.group? g.id = some g → (∀ t ∈ s.teams, t.group ≠ g.id) → (∀ e ∈ g.engs, e.2.halted = none) →
    (∀ e ∈ g.engs, ∀ c ∈ e.2.cmds, c.unfinished = false) → s.yardOf g.id = none → s.node? g.node = some n →
    ∃ u m, exec (.groupEnd ⟨g.id⟩) s = .next u ∧ u.group? g.id = none ∧ u.node? n.id = some m ∧ m.live = n.live - 1 ∧
      (n.jca ≠ 0 → ∃ a ∈ u.jcAdds, a.asid = n.asid ∧ a.addr = n.jca ∧ a.value = 1)) ∧
  (∀ asid (ws : List Word), s.spawnsOpen asid = true → ws.length = 16 →
    (s.poolFree ≠ 0 → ∃ u n, exec (.spawnWrite ⟨asid, 0, ws⟩) s = .next u ∧ u.nodes = s.nodes ++ [n] ∧
      u.outbox = s.outbox ++ [.spawnDone 0] ∧ n.asid = asid ∧ n.spawned = true ∧ n.live = 0 ∧ n.preds = [] ∧
      n.hdrAddr = ((ws.getD 0 0).toNat + (ws.getD 1 0).toNat * 2 ^ 32) % 2 ^ 48 ∧ n.args = (ws.drop 2).take 8 ∧
      n.jcaSpawn = (ws.getD 10 0).toNat + (ws.getD 11 0).toNat * 2 ^ 32) ∧
    (s.poolFree = 0 → exec (.spawnWrite ⟨asid, 0, ws⟩) s = .next (s.send (.spawnDone 1)))) ∧
  (∀ asid off (ws : List Word), off ≠ 0 ∨ ws.length ≠ 16 →
    exec (.spawnWrite ⟨asid, off, ws⟩) s = .next (s.send (.memDone 1))) ∧
  (∀ n x s1 jca, s.node? n.id = some n → s.ctx? n.asid = some x → n.cancelled = true →
    (if n.jcaSpawn ≠ 0 then (s, DRead.ok n.jcaSpawn) else s.dispRead n.asid (n.hdrAddr + 0x38) 8) = (s1, .ok jca) →
    ∃ u, exec (.nodeDispatch ⟨n.id⟩) s = .next u ∧ u.node? n.id = none ∧
      (jca ≠ 0 → ∃ a ∈ u.jcAdds, a.asid = n.asid ∧ a.addr = jca ∧ a.value = 16 * 2 ^ 48 + 2 ^ 56)) ∧
  (∀ n x s1 s2 s3 s4 raw rr pr ar, s.node? n.id = some n → s.ctx? n.asid = some x → n.header = none → n.preds = [] →
    x.halted = false → x.swapped = false → s.dispRead n.asid n.hdrAddr 256 = (s1, .ok raw) →
    (if hDword raw 0xA0 = 0 then (s1, .ok 0) else s1.dispRead n.asid (hDword raw 0xA0 % 2 ^ 48) 512) = (s2, .ok rr) →
    (if hDword raw 0xA8 = 0 then (s2, .ok 0) else s2.dispRead n.asid (hDword raw 0xA8 % 2 ^ 48) 32) = (s3, .ok pr) →
    (if n.argAddr = 0 then (s3, .ok 0) else s3.dispRead n.asid (n.argAddr % 2 ^ 48) 32) = (s4, .ok ar) →
    let h := parseHeader raw rr (if hDword raw 0xA8 = 0 then none else some ((List.range 8).map (blockWord pr)))
    let jca := if n.jcaSpawn ≠ 0 then n.jcaSpawn else hDword raw 0x38
    let rejected (r : Nat) : Prop := ∃ u, exec (.nodeDispatch ⟨n.id⟩) s = .next u ∧ u.node? n.id = none ∧
      (jca ≠ 0 → ∃ a ∈ u.jcAdds, a.asid = n.asid ∧ a.addr = jca ∧ a.value = r * 2 ^ 48 + 2 ^ 56)
    (n.cancelled = false → headerReason raw h n.bad (s.mostSlots x) ≠ 0 → rejected (headerReason raw h n.bad (s.mostSlots x))) ∧
    (n.cancelled = false → headerReason raw h n.bad (s.mostSlots x) = 0 →
      ∃ u m, exec (.nodeDispatch ⟨n.id⟩) s = .next u ∧ u.node? n.id = some m ∧ m.header = some h)) ∧
  (∀ n h s1 l, s.node? n.id = some n → n.header = some h → n.staged = false →
    s.stageLines n.asid (h.tilePages [1, 3]) = (s1, some l) →
    ∃ u m, exec (.tileStaging ⟨n.id⟩) s = .next u ∧ u.node? n.id = some m ∧ m.staged = true ∧
      ∀ q ∈ u.staged, q ∈ s1.staged ∨ q.1 = n.id ∧ q.2.1 ∈ l) ∧
  (∀ n h c p x k, s.nextPlaced = some (n, h, c) → n.nextPlace = some p → s.ctx? n.asid = some x → s.core? c = some k →
    (k.power = .gated → (∀ q ∈ s.cores, q.power ≠ .waking) →
      ∃ u k', exec (.groupPlacement ⟨n.id⟩) s = .next u ∧ u.core? c = some k' ∧ k'.power = .waking) ∧
    (∀ qs, k.power = .on → k.moving = none → (h.urgent = true ∨ s.groupsOn c ≠ [] ∨ k.level = s.target c) →
      s.homesOn c h (s.coreSlots c) = some qs →
      ∃ u g ts, exec (.groupPlacement ⟨n.id⟩) s = .next u ∧ u.groups = s.groups ++ [g] ∧ u.teams = s.teams ++ ts ∧
        g.node = n.id ∧ g.asid = n.asid ∧ g.core = c ∧ g.gamma = p.1 ∧ g.relaunch = p.2.1 ∧ g.ws = h.ws ∧ g.xb = h.xb ∧
        ts.length = (teamsOf h.roles).length ∧
        ∀ t ∈ ts, t.group = g.id ∧ t.core = c ∧ t.residence = .resident ∧ t.quad ∈ qs ∧
          (∃ q, t.splits = [q] ∧ q.pc = t.entry ∧ q.own = t.present ∧ q.exec = t.present ∧ q.mode = 0) ∧
          (∀ r l, t.raw .v r l = 0 ∧ t.raw .m r l = 0) ∧
          (∀ r, t.raw .g r 0 = if r < 8 then (p.2.2.1.getD r 0).toNat else 0) ∧
          (∀ r < 32, t.raw .b r 0 = (h.records.getD r 0).toNat) ∧
          t.cause = 0 ∧ t.epc = 0 ∧ t.sstatLo = 0 ∧ t.sstatHi = 0 ∧ t.sticky = 0 ∧ t.cycle = 0 ∧ t.rtimer = 0 ∧ t.wdl = 0)) ∧
  (∀ n, s.node? n.id = some n → n.spent = true → n.preds = [] →
    ∃ u, exec (.nodeComplete ⟨n.id⟩) s = .next u ∧ u.node? n.id = none ∧
      (∀ m ∈ s.nodes, m.id ≠ n.id → ∃ m' ∈ u.nodes, m'.id = m.id ∧ n.id ∉ m'.preds) ∧
      (n.jca ≠ 0 → ∃ a ∈ u.jcAdds, a.asid = n.asid ∧ a.addr = n.jca ∧ a.value = 2 ^ 56))

/-- R47, R48, R336, R340, R342 to R349, R397. What the events of power and of the timers do.
How the remaining cycles pass, and how a missing reading counts, are the readings of log 23. -/
def Obligations.PowerEvents : Prop := ∀ s : State,
  let due : Prop := ∀ l, s.gov.sampled = some l → l + s.gov.interval ≤ s.time
  (∀ c k, s.core? c = some k → k.power = .on → k.moving = none → s.target c ≠ k.level →
    s.urgentFirst c = false → (∀ g ∈ s.groupsOn c, s.inRun g = false) →
    ∃ u k', exec (.levelMove ⟨c⟩) s = .next u ∧ u.core? c = some k' ∧ k'.moving = some (s.target c) ∧ k'.level = k.level) ∧
  (∀ c k l, s.core? c = some k → k.moving = some l →
    ∃ u k', exec (.levelMoveComplete ⟨c⟩) s = .next u ∧ u.core? c = some k' ∧ k'.moving = none ∧ k'.level = l) ∧
  (∀ c k mv, s.core? c = some k →
    (s.drpthr ≠ 0 → s.drpthr * 5 ≤ mv → (∀ n, k.droop ≠ .stretched n) →
      ∃ u k', exec (.droopTrigger ⟨c, mv⟩) s = .next u ∧ u.core? c = some k' ∧ k'.droop = .stretched 7) ∧
    (s.drpthr = 0 ∨ mv < s.drpthr * 5 → exec (.droopTrigger ⟨c, mv⟩) s = .next s)) ∧
  (∀ c k n, s.core? c = some k → k.droop = .stretched n → 0 < n →
    ∃ u k', exec (.droopStretchEnd ⟨c⟩) s = .next u ∧ u.core? c = some k' ∧ k'.droop = .halved 64 ∧ k'.cycle = k.cycle + n) ∧
  (∀ c k n, s.core? c = some k → k.droop = .halved n → 0 < n →
    ∃ u k', exec (.droopHalvingEnd ⟨c⟩) s = .next u ∧ u.core? c = some k' ∧ k'.droop = .none ∧ k'.cycle = k.cycle + n) ∧
  (∀ c k b, s.core? c = some k → b < 16 → s.gridder c (b / 4) = none → (sget {} k.bays b).gate = .awake →
    1024 ≤ (sget {} k.bays b).idle →
    ∃ u k', exec (.bayPowerGate ⟨c, b⟩) s = .next u ∧ u.core? c = some k' ∧ (sget {} k'.bays b).gate = .gated) ∧
  (∀ c k q b n, s.core? c = some k → q < 4 → b < 4 → (sget {} k.bays (4 * q + b)).gate = .waking n → 0 < n →
    (∀ x < b, ∀ m, (sget {} k.bays (4 * q + x)).gate ≠ .waking m) →
    ∃ u k', exec (.bayWakeComplete ⟨c, q⟩) s = .next u ∧ u.core? c = some k' ∧
      (sget {} k'.bays (4 * q + b)).gate = .awake) ∧
  (∀ c k, s.core? c = some k → k.power = .on → s.groupsOn c = [] → 100000 ≤ k.idleNs →
    ∃ u k', exec (.corePowerGate ⟨c⟩) s = .next u ∧ u.core? c = some k' ∧ k'.power = .gated) ∧
  (∀ c k, s.core? c = some k → k.power = .waking →
    ∃ u k', exec (.coreWakeComplete ⟨c⟩) s = .next u ∧ u.core? c = some k' ∧ k'.power = .on) ∧
  (∀ x : Int, due → s.gov.limit < x → s.gov.step = 0 →
    ∃ u, exec (.skinTemperatureInterval ⟨some x⟩) s = .next u ∧ u.gov.step = 1 ∧ u.gov.missing = 0 ∧
      u.gov.rscale = max (s.gov.rscale - 16) (min 64 s.gov.rscale)) ∧
  (∀ x : Int, due → x < s.gov.limit - (s.gov.hysteresis : Int) → ¬ s.gov.limit < x → s.gov.step = 1 →
    ∃ u, exec (.skinTemperatureInterval ⟨some x⟩) s = .next u ∧ u.gov.rscale = min 128 (s.gov.rscale + 16) ∧
      u.gov.step = (if min 128 (s.gov.rscale + 16) = 128 then 0 else 1)) ∧
  (due → s.gov.missing < 3 → ∃ u, exec (.skinTemperatureInterval ⟨none⟩) s = .next u ∧ u.gov.missing = s.gov.missing + 1 ∧
    u.gov.step = s.gov.step) ∧
  (∀ x l, s.gov.sampled = some l → s.time < l + s.gov.interval → exec (.skinTemperatureInterval ⟨x⟩) s = .next s) ∧
  (∀ th pool ceil, 65536 ≤ th → th ≤ 2097151 → 4 ≤ pool → pool ≤ 64 → ceil ≤ 7 → (pool = 64 ∨ th = 65536) →
    (ceil = 7 ∨ pool = 4) →
    ∃ u, exec (.governorEstimate ⟨th, pool, ceil⟩) s = .next u ∧ u.gov.threshold = th ∧ u.gov.powerPool = pool ∧
      u.gov.powerCeil = ceil ∧ (∀ c ∈ u.cores, c.threshold = th) ∧
      u.gov.pool = (match s.gov.rung4 with | some r => min pool r | none => pool)) ∧
  (∀ t, s.team? t.id = some t → t.residence = .resident → s.coreOn t.core = true → t.rtimer ≠ 0 →
    ∃ u x, exec (.rtimerExpiry ⟨t.id⟩) s = .next u ∧ u.team? t.id = some x ∧ x.rtimer = 0 ∧ 321 ∈ x.async ∧
      x.cycle = t.cycle + t.rtimer.toNat) ∧
  (∀ t, s.team? t.id = some t → t.residence = .resident → t.wdl ≠ 0 → t.wdl ≤ s.time →
    ∃ u x, exec (.wallDeadlineExpiry ⟨t.id⟩) s = .next u ∧ u.team? t.id = some x ∧ x.wdl = 0 ∧ 322 ∈ x.async) ∧
  (∀ c k, s.core? c = some k → s.coreOn c = true →
    (∃ u k', exec (.chargeWindowAging ⟨c⟩) s = .next u ∧ u.core? c = some k' ∧ k'.cycle = k.cycle + 1 ∧
      ((∀ p ∈ k.passes, p.sync = false) → k'.charges = (if k.gridCharge = 0 then [] else [(k.cycle, k.gridCharge)]) ++
        k.charges.filter fun q => decide (k.cycle < q.1 + 256))) ∧
    (∀ b, s.dbg.lcren = true → b < 16 →
      ∃ u k', exec (.idleBayCycle ⟨c, b⟩) s = .next u ∧ u.core? c = some k' ∧ k'.cycle = k.cycle + 1))

/-- R352, R353, R365, R371 to R380, R395. An asynchronous trap enters the handler; a poisoned register restarts the region
or kills the group; a stop that is due stops the team, a restore lets it go on; a group leaves its core whole and returns;
a partition halts, is swapped out and back; a core without groups retires.
Where a rule leaves a case open the readings of log 24 apply. -/
def Obligations.PreemptEvents : Prop := ∀ s : State,
  (∀ t p g code rest, s.team? t.id = some t → s.group? t.group = some g → s.groupRuns g = true → t.residence = .resident →
    t.async = code :: rest → t.asyncTarget = some p → t.split? p.uid = some p → t.depth = 0 → s.outstanding t = false →
    p.fence = none → (∀ q ∈ t.deferred, q.uid ≠ p.uid) →
    ∃ u x, exec (.asyncTrapEntry ⟨t.id⟩) s = .next u ∧ TakesTrap s u t p code 0 0 false p.pc ∧ u.team? t.id = some x ∧
      x.async = rest) ∧
  (∀ t p g w ws, s.team? t.id = some t → t.split? p.uid = some p → s.group? t.group = some g → t.residence = .resident →
    (t.region = none → ∃ u, exec (.poisonedRegisterRead ⟨t.id, p.uid, w :: ws⟩) s = .next u ∧ u.group? t.group = none ∧
      u.team? t.id = none) ∧
    (∀ q, t.region = some q → (∀ x ∈ w :: ws, (poisonWord x).1 ≠ .b) → t.depth = 0 → q.written.contains ((poisonWord w).1, (poisonWord w).2.1) = true →
      q.restarts < 4 → s.outstanding t = false →
      ∃ u x r q', exec (.poisonedRegisterRead ⟨t.id, p.uid, w :: ws⟩) s = .next u ∧ u.team? t.id = some x ∧ x.splits = [r] ∧
        r.uid = p.uid ∧ r.pc = t.regpc ∧ r.own = q.own &&& t.present ∧ r.exec = q.exec &&& t.present ∧ r.mode = q.mode ∧
        x.deferred = [] ∧ x.joins = [] ∧ x.region = some q' ∧ q'.restarts = q.restarts + 1 ∧ q'.written = [])) ∧
  (∀ t g, s.team? t.id = some t → s.group? t.group = some g → t.residence = .resident → s.stoppable t = true →
    let stops (why : StopWhy) (r : Residence) : Prop :=
      ∃ u x, exec (.teamStop ⟨t.id, why⟩) s = .next u ∧ u.team? t.id = some x ∧ x.residence = r ∧ x.group = t.group
    (s.forcedOut t = true → stops .level .stopped) ∧
    (s.coreHalted t.core = true → stops .partition .stopped) ∧
    (s.dbg.stopreq = true → s.dbg.asid = g.asid → s.protected g.asid = false → stops .debug .debugStopped) ∧
    (∀ h x, s.urgentNeed = some (h, x) → x.mask.getLsbD t.core = true → s.coreTakes t.core = true → s.lacksSpace t.core h = false →
      (s.victim t.core h).map (·.id) = some t.id → s.evictFits g t.imageBytes = true →
      stops .evict (.evicted s.nextId)) ∧
    exec (.teamStop ⟨t.id, .group⟩) s = .next s) ∧
  (∀ t g, s.team? t.id = some t → s.group? t.group = some g → s.coreHolds g = true →
    (t.residence = .stopped → s.coreOn t.core = true → s.forced t.core = false →
      ∃ u x, exec (.teamRestore ⟨t.id⟩) s = .next u ∧ u.team? t.id = some x ∧ x.residence = .resident) ∧
    (∀ o, t.residence = .evicted o → g.evicted = false → s.canReturn t o = true →
      ∃ u x, exec (.teamRestore ⟨t.id⟩) s = .next u ∧ u.team? t.id = some x ∧ x.residence = .resident)) ∧
  (∀ g h x v, s.group? g.id = some g → s.urgentNeed = some (h, x) → x.mask.getLsbD g.core = true →
    s.coreTakes g.core = true → s.lacksSpace g.core h = true → (s.victim g.core h).map (·.group) = some g.id →
    s.evictFits g (s.groupBytes g) = true → s.evictGroup g = some v →
    exec (.groupEviction ⟨g.id⟩) s = .next v ∧ (∃ g', v.group? g.id = some g' ∧ g'.evicted = true) ∧
      ∀ t ∈ v.teams, t.group = g.id → t.residence = .saved ∨ t.residence = .ended) ∧
  (∀ g core qs, s.group? g.id = some g → g.evicted = true → s.restoreHomes g core = some qs → s.coreOn core = true →
    ∃ u g', exec (.groupRestore ⟨g.id, core⟩) s = .next u ∧ u.group? g.id = some g' ∧ g'.evicted = false ∧ g'.core = core ∧
      ∀ t ∈ s.livingTeams g.id, ∃ y ∈ u.teams, y.id = t.id ∧ y.residence = .resident ∧ y.core = core) ∧
  (∀ x, s.ctx? x.asid = some x → x.shadow ≠ 0 → x.swapped = false →
    (∃ u y, exec (.partitionHalt ⟨x.asid⟩) s = .next u ∧ u.ctx? x.asid = some y ∧ y.halted = true) ∧
    (x.halted = true → s.quiet x.cores = true → s.clean x.cores = true →
      ∃ u y, exec (.partitionSwap ⟨x.asid⟩) s = .next u ∧ u.ctx? x.asid = some y ∧ y.swapped = true ∧
        ∀ i < x.cores.length, u.rd .loft (x.shadow + i * 10485760) 4 = 1)) ∧
  (∀ x, s.ctx? x.asid = some x → x.shadow ≠ 0 → x.swapped = true → x.halted = true → s.quiet x.cores = true → s.clean x.cores = true →
    (∀ c ∈ x.cores, s.groupsOn c = [] ∧ s.coreOn c = true) →
    ∃ u y, exec (.partitionSwap ⟨x.asid⟩) s = .next u ∧ u.ctx? x.asid = some y ∧ y.swapped = false ∧ y.halted = false ∧
      ∀ i < x.cores.length, u.rd .loft (x.shadow + i * 10485760) 4 = 0) ∧
  (∀ c k s1, s.boot.state = 4 → c < 16 → s.boot.retired.getLsbD c = false → s.unfit c = true → (∀ g ∈ s.groups, g.core ≠ c) →
    s.maintL1 c (s.l1Lines c) true true = (s1, true) → s1.core? c = some k →
    ∃ u k', exec (.coreRetirement ⟨c⟩) s = .next u ∧ u.boot.retired.getLsbD c = true ∧ u.core? c = some k' ∧
      k'.power = .dark ∧ (∀ x ∈ u.ctxs, x.mask.getLsbD c = false) ∧ u.outbox = s1.outbox ++ [.ctxEvent c])

/-- R385, R386, R388, R393. CTX_CREATE of a legal new context adds it, with the frames of its TDI zeroed and owned; an ASID
that exists is refused. CTX_SET replaces the fields, or, of a locked or running TDI, puts it into ERROR. CTX_DESTROY leaves
nothing of the context. RPC_REPLY is kept under its ticket.
The list of frames in the request and the free key slot are the model's (logs 25, 8). -/
def Obligations.ContextEvents : Prop := ∀ s : State,
  (∀ e : EvCtxCfg, let x := { ctxOf e with mask := e.mask &&& ~~~s.boot.retired }
    s.isOpen = true →
    (s.ctx? e.asid = none → s.ctxOk x = true → e.tdi = none → e.frames = [] →
      ∃ u, exec (.ctxCreate e) s = .next u ∧ u.ctx? e.asid = some x ∧ u.outbox = s.outbox ++ [.ctxDone e.asid true]) ∧
    (∀ t, s.ctx? e.asid = none → s.ctxOk x = true → e.tdi = some t → t < 16 → (s.tdi t).st = .unlocked →
      (s.tdi t).asid = none → s.framesFree 0 e.frames = true →
      ∃ u k, exec (.ctxCreate e) s = .next u ∧ u.ctx? e.asid = some x ∧ (u.tdi t).asid = some e.asid ∧
        (u.tdi t).keySlot = some k ∧ ∀ f ∈ e.frames, (∀ q ∈ s.frameOwner, q.1 ≠ f) →
          sget 0 u.frameOwner f = k ∧ ∀ a, f * 4096 ≤ a → a < f * 4096 + 4096 → u.rdByte .glob a = 0) ∧
    (s.ctx? e.asid ≠ none → exec (.ctxCreate e) s = .next (s.send (.ctxDone e.asid false))) ∧
    (∀ y, s.ctx? e.asid = some y → y.tdi = none → e.frames = [] →
      s.ctxOk { x with tdi := none, halted := y.halted, swapped := y.swapped } = true →
      ∃ u, exec (.ctxSet e) s = .next u ∧
        u.ctx? e.asid = some { x with tdi := none, halted := y.halted, swapped := y.swapped } ∧
        u.outbox = s.outbox ++ [.ctxDone e.asid true]) ∧
    (∀ y t, s.ctx? e.asid = some y → y.tdi = some t → ((s.tdi t).st = .locked ∨ (s.tdi t).st = .run) →
      ∃ u, exec (.ctxSet e) s = .next u ∧ (u.tdi t).st = .error ∧ u.ctx? e.asid = some y ∧
        (∀ a, (s.tdi t).asid = some a → ∀ g ∈ u.groups, g.asid ≠ a))) ∧
  (∀ x, s.isOpen = true → s.ctx? x.asid = some x →
    ∃ u, exec (.ctxDestroy ⟨x.asid⟩) s = .next u ∧ u.ctx? x.asid = none ∧ (∀ n ∈ u.nodes, n.asid ≠ x.asid) ∧
      (∀ g ∈ u.groups, g.asid ≠ x.asid) ∧ (∀ y ∈ u.yards, y.asid ≠ x.asid) ∧ Msg.ctxDone x.asid true ∈ u.outbox) ∧
  (∀ (e : EvReply) t, (e.ticket, .team t none) ∈ s.tickets →
    ∃ u, exec (.rpcReply e) s = .next u ∧ (e.ticket, .team t (some e)) ∈ u.tickets ∧ s.sameData u)

/-- R389 to R394, R54, R345. Boot goes from power-on reset over memory training, the host's FWGO and the verification of the
image to the cores, each failure back to MINCFG with its ERR; measurements are answered signed; a TDI moves through the
TDISP states by the requests that each state admits, and into ERROR; BOOTSTAT shows the state, the error, the failing channel and
the retired cores.
The model's readings of the requests are in log 25, its digests and signatures in log 7. -/
def Obligations.BootAndTrustEvents : Prop := ∀ s : State,
  (∀ r m d, ∃ u, exec (.powerOnReset ⟨r, m, d⟩) s = .next u ∧ u.boot.state = 1 ∧ u.boot.retired = r ||| s.boot.retired ∧
    u.boot.minSvn = max m s.boot.minSvn ∧ u.boot.modules = d ∧ u.teams = [] ∧ u.groups = [] ∧ u.ctxs = [] ∧
    ∀ c ∈ u.cores, c.power = .dark) ∧
  (s.boot.state = 1 →
    (∀ ch rows, rows = 32768 ∨ rows = 65536 ∨ rows = 131072 →
      ∃ u, exec (.memoryTrainingComplete ⟨true, ch, rows⟩) s = .next u ∧ u.boot.state = 2 ∧ u.boot.err = 0 ∧ u.rows = rows) ∧
    (∀ ok ch rows, ok = false ∨ (rows ≠ 32768 ∧ rows ≠ 65536 ∧ rows ≠ 131072) →
      ∃ u, exec (.memoryTrainingComplete ⟨ok, ch, rows⟩) s = .next u ∧ u.boot.state = 2 ∧ u.boot.err = 1 ∧
        u.boot.chan = ch % 64)) ∧
  (∀ x, exec (.fwgo ⟨x⟩) s = .next (if s.boot.state = 2 ∧ s.boot.err ≠ 1 ∧ x = 1 then { s with boot := { s.boot with state := 3 } } else s)) ∧
  (s.boot.state = 3 →
    (s.boot.verify = 0 → ∃ u, exec .firmwareVerification s = .next u ∧ u.boot.state = 4 ∧ u.boot.err = 0 ∧
      u.boot.firmware = some (s.boot.digest, s.boot.word 4)) ∧
    (s.boot.verify ≠ 0 → ∃ u, exec .firmwareVerification s = .next u ∧ u.boot.state = 2 ∧ u.boot.err = s.boot.verify)) ∧
  (∀ c k, s.boot.state = 4 → s.boot.nextCore = c → c < 16 → s.core? c = some k →
    ∃ u k', exec (.corePowerUp ⟨c⟩) s = .next u ∧ u.boot.nextCore = c + 1 ∧ u.core? c = some k' ∧
      k'.power = (if s.boot.retired.getLsbD c || s.unfit c then k.power else .on)) ∧
  (∀ i b, s.boot.state = 4 → s.measure i = some b →
    exec (.getMeasurements ⟨i⟩) s = .next (s.send (.measurements b (Config.signMeasurement b)))) ∧
  (s.boot.state = 4 → ∀ i < 16,
    (∃ u, exec (.ideKmKeySet ⟨i⟩) s = .next u ∧ u.tdi i = { s.tdi i with ideKey := true }) ∧
    ((s.tdi i).st = .unlocked → ∃ u, exec (.lockInterfaceRequest ⟨i⟩) s = .next u ∧
      u.tdi i = { s.tdi i with st := .locked } ∧ u.outbox = s.outbox ++ [.tdispDone i true]) ∧
    ((s.tdi i).st ≠ .unlocked → exec (.lockInterfaceRequest ⟨i⟩) s = .next (s.send (.tdispDone i false))) ∧
    ((s.tdi i).st = .locked → ∃ u, exec (.startInterfaceRequest ⟨i⟩) s = .next u ∧
      u.tdi i = { s.tdi i with st := .run, loaded := true } ∧ u.outbox = s.outbox ++ [.tdispDone i true]) ∧
    ((s.tdi i).st ≠ .locked → exec (.startInterfaceRequest ⟨i⟩) s = .next (s.send (.tdispDone i false))) ∧
    (∀ a x, (s.tdi i).st = .locked → (s.tdi i).asid = some a → s.ctx? a = some x →
      exec (.getDeviceInterfaceReport ⟨i⟩) s =
        .next (s.send (.report i x.asid (s.tdi i).bar0 (s.tdi i).bar2 x.mask x.loftBase x.loftSize))) ∧
    (∃ u, exec (.stopInterfaceRequest ⟨i⟩) s = .next u ∧ u.tdi i = { s.tdi i with st := .unlocked, loaded := false } ∧
      u.outbox = s.outbox ++ [.tdispDone i true] ∧
      ∀ k, (s.tdi i).keySlot = some k → ∀ q ∈ s.frameOwner, q.2 = k →
        ∀ a, q.1 * 4096 ≤ a → a < q.1 * 4096 + 4096 → u.rdByte .glob a = 0)) ∧
  (∀ i, (s.tdi i).st = .locked ∨ (s.tdi i).st = .run →
    (∃ u, exec (.frozenConfigurationWrite ⟨i⟩) s = .next u ∧ (u.tdi i).st = .error ∧
      ∀ a, (s.tdi i).asid = some a → ∀ g ∈ u.groups, g.asid ≠ a) ∧
    (∃ u, exec (.ideIntegrityFailure ⟨i⟩) s = .next u ∧ (u.tdi i).st = .error ∧ (u.tdi i).ideKey = false ∧
      ∀ a, (s.tdi i).asid = some a → ∀ g ∈ u.groups, g.asid ≠ a)) ∧
  (∀ i, (s.tdi i).st = .unlocked ∨ (s.tdi i).st = .error → exec (.frozenConfigurationWrite ⟨i⟩) s = .next s ∧
    exec (.ideIntegrityFailure ⟨i⟩) s = .next s) ∧
  (s.boot.state < 8 → s.boot.err < 8 → s.boot.chan < 64 →
    (s.fwRead 0).toNat % 8 = s.boot.state ∧ (s.fwRead 0).toNat / 8 % 8 = s.boot.err ∧
    (s.boot.err = 1 → (s.fwRead 0).toNat / 64 % 64 = s.boot.chan) ∧
    (s.fwRead 0).toNat / 4096 = s.boot.retired.toNat ∧ s.fwRead 4 = s.boot.fwlen)

/-- R390, R391, R396, R399 to R401. Setting and clearing STOPREQ, clearing HALTDBG and DROPS and a register write complete
whatever stands: in RUN, the watched context not protected, the bit is set or cleared. STOPREQ stops the team of the watched
context and its clearing lets it go on; clearing HALTDBG lets a trapped team enter its handler; DROPS clears what is written.
Register writes act on the registers of the firmware and the debug window, which answers in RUN only, and touch no memory and
no register of a team, but for one into a frozen configuration, which puts its TDI into ERROR (R394); a legal RINGSIZE is stored
and an illegal one changes nothing; S is taken once, by the reading of log 15.
An illegal RINGSIZE is ignored by the reading of log 26; the numbers of firmware registers (log 23) and of the registers of a TDI
(log 35) are the model's. -/
def Obligations.DebugEvents : Prop := ∀ s : State,
  (s.boot.state = 4 → s.protected s.dbg.asid = false →
    (∃ u, exec .stopreqSet s = .next u ∧ u.dbg.stopreq = true ∧ u.dbg.asid = s.dbg.asid) ∧
    (∃ u, exec .stopreqClear s = .next u ∧ u.dbg.stopreq = false ∧ u.dbg.asid = s.dbg.asid) ∧
    ∃ u, exec .haltdbgClear s = .next u ∧ u.dbg.haltdbg = false ∧ u.dbg.asid = s.dbg.asid) ∧
  (s.boot.state = 4 → ∀ x, exec (.dropsClear ⟨x⟩) s =
    .next { s with dbg := { s.dbg with drops := (BitVec.ofNat 32 s.dbg.drops &&& ~~~ BitVec.ofNat 32 x).toNat } }) ∧
  (∀ w off v, (∀ i, w = .interface i → (s.tdi i).st = .unlocked ∨ (s.tdi i).st = .error) →
    ∃ u, exec (.registerWrite ⟨w, off, v⟩) s = .next u ∧ s.sameData u ∧ u.boot.state = s.boot.state) ∧
  (s.boot.state = 4 → ∀ i < 16, ∀ off v, off = 0x04 ∨ off = 0x10 ∨ off = 0x18 →
    ((s.tdi i).st = .unlocked → ∃ u, exec (.registerWrite ⟨.interface i, off, v⟩) s = .next u ∧
      (u.tdi i).command = (if off = 0x04 then v % 65536 else (s.tdi i).command) ∧
      (u.tdi i).bar0 = (if off = 0x10 then v % 2 ^ 64 / 4096 * 4096 else (s.tdi i).bar0) ∧
      (u.tdi i).bar2 = (if off = 0x18 then v % 2 ^ 64 / 4096 * 4096 else (s.tdi i).bar2)) ∧
    ((s.tdi i).st = .locked ∨ (s.tdi i).st = .run →
      ∃ u, exec (.registerWrite ⟨.interface i, off, v⟩) s = .next u ∧ (u.tdi i).st = .error ∧
        (u.tdi i).command = (s.tdi i).command ∧ (u.tdi i).bar0 = (s.tdi i).bar0 ∧ (u.tdi i).bar2 = (s.tdi i).bar2)) ∧
  (s.boot.state = 4 → ∀ v,
    exec (.registerWrite ⟨.trusted, 0x1E, v⟩) s = .next { s with drpthr := v % 256 } ∧
    (s.slotsFixed = true → exec (.registerWrite ⟨.trusted, 0x100, v⟩) s = .next s) ∧
    (s.slotsFixed = false → v % 256 = 0 → v ≤ s.rows / 16 → v ≤ 4096 →
      exec (.registerWrite ⟨.trusted, 0x100, v⟩) s = .next { s with slotsFixed := true, slotsS := v })) ∧
  (s.boot.state = 4 → s.protected s.dbg.asid = false → ∀ t, s.teamsOf s.dbg.asid = [t] → s.team? t.id = some t →
    (∀ g, s.group? t.group = some g → g.region = none) →
    (t.residence = .resident → s.stoppable t = true →
      ∃ u x, exec .stopreqSet s = .next u ∧ u.dbg.stopreq = true ∧ u.team? t.id = some x ∧ x.residence = .debugStopped) ∧
    (t.residence = .debugStopped → t.stopTrap = none →
      ∃ u x, exec .stopreqClear s = .next u ∧ u.dbg.stopreq = false ∧ u.team? t.id = some x ∧ x.residence = .resident) ∧
    (∀ p code detail lanes skip epc, t.residence = .debugStopped → t.stopTrap = some (p.uid, code, detail, lanes, skip, epc) →
      t.split? p.uid = some p → t.depth ≤ 1 →
      ∃ u x h, exec .haltdbgClear s = .next u ∧ u.dbg.haltdbg = false ∧ u.team? t.id = some x ∧ x.residence = .resident ∧
        x.stopTrap = none ∧ x.handler = some h ∧ h.pc = t.trapv ∧ x.epc = epc ∧
        x.cause = BitVec.ofNat 32 (detail % 65536 * 65536 + code))) ∧
  (s.protected s.dbg.asid = true → exec .stopreqSet s = .next s ∧ exec .stopreqClear s = .next s ∧
    exec .haltdbgClear s = .next s) ∧
  (s.boot.state ≠ 4 → exec .stopreqSet s = .next s ∧ exec .stopreqClear s = .next s ∧ exec .haltdbgClear s = .next s ∧
    (∀ x, exec (.dropsClear ⟨x⟩) s = .next s) ∧ ∀ off v, exec (.registerWrite ⟨.debug, off, v⟩) s = .next s) ∧
  (2 ≤ s.boot.state →
    (∀ v, ∃ u, exec (.registerWrite ⟨.firmware, 4, v⟩) s = .next u ∧ u.boot.fwlen = BitVec.ofNat 32 v) ∧
    (∀ off v, 0x100000 ≤ off → off ≤ 0xFFFFFC → ∃ u, exec (.registerWrite ⟨.firmware, off, v⟩) s = .next u ∧
      leNat (sget 0 u.boot.image) (off - 0x100000) 4 = v % 2 ^ 32 ∧
      ∀ a, (a < off - 0x100000 ∨ off - 0x100000 + 4 ≤ a) → sget 0 u.boot.image a = sget 0 s.boot.image a)) ∧
  (s.boot.state = 4 → ∀ v, s.protected (v / 65536 % 65536) = false → ∃ u, exec (.registerWrite ⟨.debug, 0, v⟩) s = .next u ∧
    u.dbg.asid = v / 65536 % 65536 ∧ u.dbg.sigrec = v.testBit 2 ∧ u.dbg.lcren = v.testBit 1 ∧
    u.dbg.haltdbg = (s.dbg.haltdbg || v.testBit 3)) ∧
  (s.boot.state = 4 → ∀ v,
    (v = 0 ∨ (4096 ≤ v ∧ v ≤ 2 ^ 30 ∧ v = 2 ^ Nat.log2 v) →
      ∃ u, exec (.registerWrite ⟨.debug, 0x10, v⟩) s = .next u ∧ u.dbg.ringSize = v) ∧
    (v ≠ 0 ∧ (v < 4096 ∨ 2 ^ 30 < v ∨ v ≠ 2 ^ Nat.log2 v) → exec (.registerWrite ⟨.debug, 0x10, v⟩) s = .next s)) ∧
  (s.boot.state = 4 → ∀ n < 8, ∀ v < 2 ^ 64, s.protected (v / 2 ^ 48) = false →
    ∃ u, exec (.registerWrite ⟨.debug, 0x100 + 16 * n, v⟩) s = .next u ∧ (sget 0 u.dbg.bp n).toNat = v) ∧
  (s.boot.state = 4 → ∀ n < 8, ∀ v : Nat, ∃ u, exec (.registerWrite ⟨.debug, 0x108 + 16 * n, v⟩) s = .next u ∧
    ∀ k < 8, u.dbg.bpen.getLsbD k = if k = n then v.testBit 0 else s.dbg.bpen.getLsbD k)

/-! ### The machine as a whole -/

/-- R46, R58, R62, R389, R390, R394, R396. What reset leaves: the device in its ROM with no error, every core dark, no
context, no team, S = 512, every promotion slot clear, the ladder at its start values, DRPTHR 6, a debug window of zeros,
every TDI unlocked. Both invariants below hold in it. -/
def Obligations.ResetState : Prop :=
  State.reset.boot.state = 0 ∧ State.reset.boot.err = 0 ∧ State.reset.boot.chan = 0 ∧
  State.reset.cores.map (·.id) = List.range 16 ∧ (∀ c ∈ State.reset.cores, c.power = .dark) ∧
  State.reset.ctxs = [] ∧ State.reset.groups = [] ∧ State.reset.teams = [] ∧ State.reset.nodes = [] ∧
  State.reset.slotsS = 512 ∧ (∀ k, (State.reset.bank k).slots = []) ∧
  State.reset.gov.rscale = 128 ∧ State.reset.gov.planes = 8 ∧ State.reset.gov.step = 0 ∧
  State.reset.gov.threshold = 786432 ∧ State.reset.drpthr = 6 ∧ State.reset.dbg = {} ∧
  (∀ i, (State.reset.tdi i).st = .unlocked) ∧
  Memory.wf State.reset.mem = true ∧ State.reset.Legal

/-- R36, R37. The words that the spec works out decode to the instructions it gives them for. -/
def Obligations.WorkedWords : Prop :=
  decode 0xAB050102 0 = .ok (.fma ⟨true, 5, 1, 2⟩, 1) ∧
  decode 0x60040714 0 = .ok (.ld ⟨false, 4, 7, 2, 4⟩, 1) ∧
  decode 0x65030924 0 = .ok (.lds ⟨false, 3, 9, 4, 4⟩, 1) ∧
  decode 0x7F000003 0x14C3C3E8 = .ok (.addi ⟨false, some ⟨false, 3⟩, 0xC3, 0xC3, 0xE8⟩, 2) ∧
  decode 0x7F000015 0x3F000602 = .ok (.setmode ⟨false, some ⟨false, 0x15⟩, 0, 0x0602⟩, 2) ∧
  decode 0x7EC40600 0 = .ok (.sread ⟨false, 0xC4, 6, 0⟩, 1) ∧
  decode 0x7E0CC501 0 = .ok (.swrite ⟨false, 0x0C, 0xC5, 0⟩, 1)

/-- R36 to R39, R44. Every well-formed instruction decodes from its own words, whatever follows them, with every operand at
every value; and whatever two words decode to is well formed and has exactly the words that were read. -/
def Obligations.DecodeEncode : Prop :=
  (∀ i w, wellFormed i = true → decode ((encode i).getD 0 w) ((encode i).getD 1 w) = .ok (i, (encode i).length)) ∧
  (∀ w0 w1 i n, decode w0 w1 = .ok (i, n) → wellFormed i = true ∧ encode i = [w0, w1].take n)

/-- R36, R39, R92, R292, R331. Where the next turn is a split's, nothing is due on its core before it, the split may issue and
the words at code base + PC decode to an instruction, a step is exec of that instruction with that split as the issuer; of one
that begins, the passes for the bays it has won issue after it; one that has won none while an open bay could take it waits, and
so does one of a slot below that of a split of its team that has issued in the cycle; where one of a lower slot issues in the
cycle too, that one goes first (R47, R169, R337, R352).
The words are those of the team's loop buffer or, where it has none, those fetched. Where the next turn is an event, and the
cycles that it lets pass are free, a step is exec of the event.
The turns of the agenda are the model's own (log 2), and when the passes issue is the reading of log 30. -/
def Obligations.StepRunsDecoded : Prop := ∀ s t p g ts i n s1 w0 wo,
  let s0 : State := { s with agenda := ts }
  let u : State := { s1 with cur := some (t.id, p.uid) }
  let open' : Bool := (s0.core? t.core).any fun k => (passesOf i p.exec t.size).any fun q => k.openBay (4 * t.quad + q.1)
  (s.agenda = .issue t.id p.uid :: ts → s.team? t.id = some t → t.split? p.uid = some p → s.group? t.group = some g →
    s0.due t.core = none → s.issuable t p = true → s0.fetchPair t g.asid (g.codeBase + p.pc.toNat) = (s1, .ok (w0, wo)) →
    decode w0 (wo.getD 0) = .ok (i, n) → s0.firstOf t p = none →
    (p.st = .blocked → step s = exec i u) ∧
    (p.st ≠ .blocked → t.late p = false → s0.wonBays i t p ≠ [] ∨ open' = false → ∀ v, exec i u = .next v →
      step s = .next (v.passOn s0 t.core (t.id, p.uid) (s0.wonBays i t p))) ∧
    (p.st ≠ .blocked → (s0.wonBays i t p = [] ∧ open' = true) ∨ t.late p = true → step s = .next s0)) ∧
  (∀ va, t.loop.find? (fun l => decide (l.asid = g.asid) && decide (l.va = va % 2 ^ 48)) = none →
    s.fetch t.core g.asid va = (s1, .ok w0) →
    (wOp w0 ≠ 0x7F → (s.fetchPair t g.asid va).2 = .ok (w0, none)) ∧
    (∀ s2 w1, wOp w0 = 0x7F → s1.fetch t.core g.asid (va + 4) = (s2, .ok w1) →
      (s.fetchPair t g.asid va).2 = .ok (w0, some w1))) ∧
  (∀ va l, t.loop.find? (fun l => decide (l.asid = g.asid) && decide (l.va = va % 2 ^ 48)) = some l → l.bad = false →
    s.fetchPair t g.asid va = (s, .ok (l.w0, l.w1))) ∧
  (s.agenda = .event i :: ts → encode i = [] → (∀ c k, s0.cyclesOf i = some (c, k) → s0.freeFor c k = true) →
    step s = exec i s0)

/-- No step faults and no step is refused: from every state the machine goes on.
That an event which is not due leaves the state is the model's choice (log 27). -/
def Obligations.EveryStepGoesOn : Prop := ∀ s : State, s.GoesOn

/-- Main memory stays in its canonical form (addresses strictly rising, no entry that an unlisted address reads as). -/
def Obligations.MemoryStaysCanonical : Prop := ∀ s u : State, Memory.wf s.mem = true → step s = .next u → Memory.wf u.mem = true

/-- R30, R49, R358. No step gives a split, a region or a join record a MODE that R30 rules out. -/
def Obligations.ModesStayLegal : Prop := ∀ s u : State, s.Legal → step s = .next u → u.Legal
end

