-- ==== Sys2Proof/Laws/Sparse.lean ====
section
/-!
SUPPORT. Laws of the sparse maps of Machine/Sparse.lean: what a write leaves to be read, and that every update keeps the
canonical form.
-/
namespace Sys2Proof.Machine

theorem sget_nil {α : Type} (d : α) (i : Nat) : sget d [] i = d := rfl

theorem sget_cons {α : Type} (d : α) (p : Nat × α) (t : List (Nat × α)) (i : Nat) :
    sget d (p :: t) i = if i = p.1 then p.2 else sget d t i := rfl

theorem sget_filter_same {α : Type} (d : α) (m : List (Nat × α)) (i : Nat) : sget d (m.filter fun p => p.1 ≠ i) i = d := by
  induction m with
  | nil => rfl
  | cons p t ih =>
    by_cases h : p.1 = i
    · simpa [List.filter_cons, h] using ih
    · have h' : i ≠ p.1 := fun e => h e.symm
      simpa [List.filter_cons, h, sget_cons, h'] using ih

theorem sget_filter_other {α : Type} (d : α) (m : List (Nat × α)) (i j : Nat) (h : j ≠ i) :
    sget d (m.filter fun p => p.1 ≠ i) j = sget d m j := by
  induction m with
  | nil => rfl
  | cons p t ih =>
    by_cases hp : p.1 = i
    · have : j ≠ p.1 := fun e => h (e.trans hp)
      simpa [List.filter_cons, hp, sget_cons, this, h] using ih
    · by_cases hj : j = p.1
      · simp [hp, sget_cons, hj]
      · simpa [List.filter_cons, hp, sget_cons, hj] using ih

/-- The key under which a fresh entry goes in reads as that entry, every other key as before. -/
theorem sget_sins {α : Type} (d : α) (m : List (Nat × α)) (i : Nat) (y : α) (h : ∀ p ∈ m, p.1 ≠ i) (j : Nat) :
    sget d (sins m i y) j = if j = i then y else sget d m j := by
  induction m with
  | nil => rfl
  | cons p t ih =>
    obtain ⟨k, x⟩ := p
    have hk : k ≠ i := h (k, x) (by simp)
    have ht : ∀ p ∈ t, p.1 ≠ i := fun p hp => h p (by simp [hp])
    unfold sins
    split
    · rfl
    · rw [sget_cons, ih ht, sget_cons]
      by_cases hj : j = k
      · subst hj; simp [hk]
      · simp [hj]

/-- What a write leaves: the written key reads as the value, every other as before. -/
theorem sget_sset {α : Type} [DecidableEq α] (d : α) (m : List (Nat × α)) (i : Nat) (y : α) (j : Nat) :
    sget d (sset d m i y) j = if j = i then y else sget d m j := by
  unfold sset
  simp only
  split
  next h =>
    split
    · next e => subst e; rw [sget_filter_same, h]
    · next e => exact sget_filter_other d m i j e
  next h =>
    rw [sget_sins]
    · split
      · rfl
      · next e => exact sget_filter_other d m i j e
    · intro p hp; simpa using (List.mem_filter.mp hp).2

@[simp] theorem sget_sset_same {α : Type} [DecidableEq α] (d : α) (m : List (Nat × α)) (i : Nat) (y : α) :
    sget d (sset d m i y) i = y := by simp [sget_sset]

theorem sget_sset_other {α : Type} [DecidableEq α] (d : α) (m : List (Nat × α)) (i j : Nat) (y : α) (h : j ≠ i) :
    sget d (sset d m i y) j = sget d m j := by simp [sget_sset, h]

theorem ssets_nil {α : Type} [DecidableEq α] (d : α) (m : List (Nat × α)) : ssets d m [] = m := rfl
theorem ssets_cons {α : Type} [DecidableEq α] (d : α) (m : List (Nat × α)) (p : Nat × α) (l : List (Nat × α)) :
    ssets d m (p :: l) = ssets d (sset d m p.1 p.2) l := rfl

/-- A key that a list of writes does not name reads as before. -/
theorem sget_ssets_other {α : Type} [DecidableEq α] (d : α) (l m : List (Nat × α)) (j : Nat) (h : ∀ p ∈ l, p.1 ≠ j) :
    sget d (ssets d m l) j = sget d m j := by
  induction l generalizing m with
  | nil => rfl
  | cons p l ih =>
    rw [ssets_cons, ih _ fun q hq => h q (by simp [hq]), sget_sset_other]
    exact fun e => h p (by simp) e.symm

/-- A key that a list of writes names once reads as the value written. -/
theorem sget_ssets_mem {α : Type} [DecidableEq α] (d : α) (l m : List (Nat × α)) (p : Nat × α) (hp : p ∈ l)
    (h : (l.map (·.1)).Nodup) : sget d (ssets d m l) p.1 = p.2 := by
  induction l generalizing m with
  | nil => cases hp
  | cons q l ih =>
    rw [ssets_cons]
    simp only [List.map_cons, List.nodup_cons, List.mem_map, not_exists, not_and] at h
    rcases List.mem_cons.mp hp with rfl | hp
    · rw [sget_ssets_other _ _ _ _ fun q hq e => h.1 q hq e, sget_sset_same]
    · exact ih _ hp h.2

/-! ### The canonical form -/

theorem swfFrom_cons {α : Type} [DecidableEq α] (d : α) (lo : Option Nat) (p : Nat × α) (t : List (Nat × α)) :
    swfFrom d lo (p :: t) = true ↔ (∀ l, lo = some l → l < p.1) ∧ p.2 ≠ d ∧ swfFrom d (some p.1) t = true := by
  cases lo <;> simp [swfFrom, and_assoc]

theorem swfFrom_weaken {α : Type} [DecidableEq α] (d : α) (lo lo' : Option Nat) (m : List (Nat × α))
    (h : swfFrom d lo m = true) (hl : ∀ a, lo' = some a → ∃ b, lo = some b ∧ a ≤ b) : swfFrom d lo' m = true := by
  cases m with
  | nil => rfl
  | cons p t =>
    rw [swfFrom_cons] at h ⊢
    refine ⟨fun a ha => ?_, h.2⟩
    obtain ⟨b, hb, hab⟩ := hl a ha
    exact Nat.lt_of_le_of_lt hab (h.1 b hb)

theorem swfFrom_filter {α : Type} [DecidableEq α] (d : α) (f : Nat × α → Bool) (lo : Option Nat) (m : List (Nat × α))
    (h : swfFrom d lo m = true) : swfFrom d lo (m.filter f) = true := by
  induction m generalizing lo with
  | nil => rfl
  | cons p t ih =>
    rw [swfFrom_cons] at h
    rw [List.filter_cons]
    split
    · rw [swfFrom_cons]; exact ⟨h.1, h.2.1, ih _ h.2.2⟩
    · refine swfFrom_weaken d _ _ _ (ih _ h.2.2) fun a ha => ⟨p.1, rfl, (h.1 a ha).le⟩

theorem swfFrom_sins {α : Type} [DecidableEq α] (d : α) (lo : Option Nat) (m : List (Nat × α)) (i : Nat) (y : α)
    (h : swfFrom d lo m = true) (hi : ∀ p ∈ m, p.1 ≠ i) (hl : ∀ a, lo = some a → a < i) (hy : y ≠ d) :
    swfFrom d lo (sins m i y) = true := by
  induction m generalizing lo with
  | nil => exact (swfFrom_cons d lo (i, y) []).mpr ⟨hl, hy, rfl⟩
  | cons p t ih =>
    obtain ⟨k, x⟩ := p
    rw [swfFrom_cons] at h
    unfold sins
    split
    next hk =>
      rw [swfFrom_cons]
      refine ⟨hl, hy, ?_⟩
      rw [swfFrom_cons]
      exact ⟨fun a ha => by cases ha; exact hk, h.2⟩
    next hk =>
      have hne : k ≠ i := hi (k, x) (by simp)
      rw [swfFrom_cons]
      refine ⟨h.1, h.2.1, ih (some k) h.2.2 (fun p hp => hi p (by simp [hp])) fun a ha => ?_⟩
      cases ha; omega

theorem swf_nil {α : Type} [DecidableEq α] (d : α) : swf d ([] : List (Nat × α)) = true := rfl

theorem swf_filter {α : Type} [DecidableEq α] (d : α) (f : Nat × α → Bool) (m : List (Nat × α)) (h : swf d m = true) :
    swf d (m.filter f) = true := swfFrom_filter d f none m h

/-- A write keeps the canonical form. -/
theorem swf_sset {α : Type} [DecidableEq α] (d : α) (m : List (Nat × α)) (i : Nat) (y : α) (h : swf d m = true) :
    swf d (sset d m i y) = true := by
  unfold sset
  simp only
  split
  · exact swf_filter d _ m h
  · refine swfFrom_sins d none _ i y (swfFrom_filter d _ none m h) (fun p hp => ?_) (fun a ha => by cases ha) ‹_›
    simpa using (List.mem_filter.mp hp).2

/-- A list of writes keeps the canonical form. -/
theorem swf_ssets {α : Type} [DecidableEq α] (d : α) (l m : List (Nat × α)) (h : swf d m = true) :
    swf d (ssets d m l) = true := by
  induction l generalizing m with
  | nil => exact h
  | cons p l ih => exact ih _ (swf_sset d m p.1 p.2 h)

/-- Dropping a range of keys keeps the canonical form. -/
theorem swf_sdrop {α : Type} [DecidableEq α] (d : α) (m : List (Nat × α)) (lo hi : Nat) (h : swf d m = true) :
    swf d (sdrop m lo hi) = true := swf_filter d _ m h

end Sys2Proof.Machine
end

