-- ==== Sys2Proof/Laws/State.lean ====
section
/-!
SUPPORT. What each update of State leaves in each field: one lemma per field and update, true by definition, so that no
proof unfolds a record update.
-/
namespace Sys2Proof.Machine

/-! ### State.modTeam -/

@[simp] theorem State.modTeam_mem (s : State) (id : Nat) (f : Team → Team) : (s.modTeam id f).mem = s.mem := rfl
@[simp] theorem State.modTeam_loft (s : State) (id : Nat) (f : Team → Team) : (s.modTeam id f).loft = s.loft := rfl
@[simp] theorem State.modTeam_poisoned (s : State) (id : Nat) (f : Team → Team) : (s.modTeam id f).poisoned = s.poisoned := rfl
@[simp] theorem State.modTeam_chErrors (s : State) (id : Nat) (f : Team → Team) : (s.modTeam id f).chErrors = s.chErrors := rfl
@[simp] theorem State.modTeam_rows (s : State) (id : Nat) (f : Team → Team) : (s.modTeam id f).rows = s.rows := rfl
@[simp] theorem State.modTeam_slotsS (s : State) (id : Nat) (f : Team → Team) : (s.modTeam id f).slotsS = s.slotsS := rfl
@[simp] theorem State.modTeam_slotsFixed (s : State) (id : Nat) (f : Team → Team) : (s.modTeam id f).slotsFixed = s.slotsFixed := rfl
@[simp] theorem State.modTeam_selfRefresh (s : State) (id : Nat) (f : Team → Team) : (s.modTeam id f).selfRefresh = s.selfRefresh := rfl
@[simp] theorem State.modTeam_banks (s : State) (id : Nat) (f : Team → Team) : (s.modTeam id f).banks = s.banks := rfl
@[simp] theorem State.modTeam_l2 (s : State) (id : Nat) (f : Team → Team) : (s.modTeam id f).l2 = s.l2 := rfl
@[simp] theorem State.modTeam_slc (s : State) (id : Nat) (f : Team → Team) : (s.modTeam id f).slc = s.slc := rfl
@[simp] theorem State.modTeam_slcQ (s : State) (id : Nat) (f : Team → Team) : (s.modTeam id f).slcQ = s.slcQ := rfl
@[simp] theorem State.modTeam_hostQ (s : State) (id : Nat) (f : Team → Team) : (s.modTeam id f).hostQ = s.hostQ := rfl
@[simp] theorem State.modTeam_dir (s : State) (id : Nat) (f : Team → Team) : (s.modTeam id f).dir = s.dir := rfl
@[simp] theorem State.modTeam_recalls (s : State) (id : Nat) (f : Team → Team) : (s.modTeam id f).recalls = s.recalls := rfl
@[simp] theorem State.modTeam_l1Invs (s : State) (id : Nat) (f : Team → Team) : (s.modTeam id f).l1Invs = s.l1Invs := rfl
@[simp] theorem State.modTeam_monRegs (s : State) (id : Nat) (f : Team → Team) : (s.modTeam id f).monRegs = s.monRegs := rfl
@[simp] theorem State.modTeam_l2Tlb (s : State) (id : Nat) (f : Team → Team) : (s.modTeam id f).l2Tlb = s.l2Tlb := rfl
@[simp] theorem State.modTeam_gen (s : State) (id : Nat) (f : Team → Team) : (s.modTeam id f).gen = s.gen := rfl
@[simp] theorem State.modTeam_invs (s : State) (id : Nat) (f : Team → Team) : (s.modTeam id f).invs = s.invs := rfl
@[simp] theorem State.modTeam_cleans (s : State) (id : Nat) (f : Team → Team) : (s.modTeam id f).cleans = s.cleans := rfl
@[simp] theorem State.modTeam_staged (s : State) (id : Nat) (f : Team → Team) : (s.modTeam id f).staged = s.staged := rfl
@[simp] theorem State.modTeam_yards (s : State) (id : Nat) (f : Team → Team) : (s.modTeam id f).yards = s.yards := rfl
@[simp] theorem State.modTeam_ctxs (s : State) (id : Nat) (f : Team → Team) : (s.modTeam id f).ctxs = s.ctxs := rfl
@[simp] theorem State.modTeam_nodes (s : State) (id : Nat) (f : Team → Team) : (s.modTeam id f).nodes = s.nodes := rfl
@[simp] theorem State.modTeam_entryGens (s : State) (id : Nat) (f : Team → Team) : (s.modTeam id f).entryGens = s.entryGens := rfl
@[simp] theorem State.modTeam_jcAdds (s : State) (id : Nat) (f : Team → Team) : (s.modTeam id f).jcAdds = s.jcAdds := rfl
@[simp] theorem State.modTeam_groups (s : State) (id : Nat) (f : Team → Team) : (s.modTeam id f).groups = s.groups := rfl
@[simp] theorem State.modTeam_cores (s : State) (id : Nat) (f : Team → Team) : (s.modTeam id f).cores = s.cores := rfl
@[simp] theorem State.modTeam_flights (s : State) (id : Nat) (f : Team → Team) : (s.modTeam id f).flights = s.flights := rfl
@[simp] theorem State.modTeam_gov (s : State) (id : Nat) (f : Team → Team) : (s.modTeam id f).gov = s.gov := rfl
@[simp] theorem State.modTeam_drpthr (s : State) (id : Nat) (f : Team → Team) : (s.modTeam id f).drpthr = s.drpthr := rfl
@[simp] theorem State.modTeam_tickets (s : State) (id : Nat) (f : Team → Team) : (s.modTeam id f).tickets = s.tickets := rfl
@[simp] theorem State.modTeam_faultQ (s : State) (id : Nat) (f : Team → Team) : (s.modTeam id f).faultQ = s.faultQ := rfl
@[simp] theorem State.modTeam_rpcQ (s : State) (id : Nat) (f : Team → Team) : (s.modTeam id f).rpcQ = s.rpcQ := rfl
@[simp] theorem State.modTeam_outbox (s : State) (id : Nat) (f : Team → Team) : (s.modTeam id f).outbox = s.outbox := rfl
@[simp] theorem State.modTeam_time (s : State) (id : Nat) (f : Team → Team) : (s.modTeam id f).time = s.time := rfl
@[simp] theorem State.modTeam_boot (s : State) (id : Nat) (f : Team → Team) : (s.modTeam id f).boot = s.boot := rfl
@[simp] theorem State.modTeam_tdis (s : State) (id : Nat) (f : Team → Team) : (s.modTeam id f).tdis = s.tdis := rfl
@[simp] theorem State.modTeam_frameOwner (s : State) (id : Nat) (f : Team → Team) : (s.modTeam id f).frameOwner = s.frameOwner := rfl
@[simp] theorem State.modTeam_dbg (s : State) (id : Nat) (f : Team → Team) : (s.modTeam id f).dbg = s.dbg := rfl
@[simp] theorem State.modTeam_agenda (s : State) (id : Nat) (f : Team → Team) : (s.modTeam id f).agenda = s.agenda := rfl
@[simp] theorem State.modTeam_cur (s : State) (id : Nat) (f : Team → Team) : (s.modTeam id f).cur = s.cur := rfl
@[simp] theorem State.modTeam_nonce (s : State) (id : Nat) (f : Team → Team) : (s.modTeam id f).nonce = s.nonce := rfl
@[simp] theorem State.modTeam_nextId (s : State) (id : Nat) (f : Team → Team) : (s.modTeam id f).nextId = s.nextId := rfl

/-! ### State.modGroup -/

@[simp] theorem State.modGroup_mem (s : State) (id : Nat) (f : Group → Group) : (s.modGroup id f).mem = s.mem := rfl
@[simp] theorem State.modGroup_loft (s : State) (id : Nat) (f : Group → Group) : (s.modGroup id f).loft = s.loft := rfl
@[simp] theorem State.modGroup_poisoned (s : State) (id : Nat) (f : Group → Group) : (s.modGroup id f).poisoned = s.poisoned := rfl
@[simp] theorem State.modGroup_chErrors (s : State) (id : Nat) (f : Group → Group) : (s.modGroup id f).chErrors = s.chErrors := rfl
@[simp] theorem State.modGroup_rows (s : State) (id : Nat) (f : Group → Group) : (s.modGroup id f).rows = s.rows := rfl
@[simp] theorem State.modGroup_slotsS (s : State) (id : Nat) (f : Group → Group) : (s.modGroup id f).slotsS = s.slotsS := rfl
@[simp] theorem State.modGroup_slotsFixed (s : State) (id : Nat) (f : Group → Group) : (s.modGroup id f).slotsFixed = s.slotsFixed := rfl
@[simp] theorem State.modGroup_selfRefresh (s : State) (id : Nat) (f : Group → Group) : (s.modGroup id f).selfRefresh = s.selfRefresh := rfl
@[simp] theorem State.modGroup_banks (s : State) (id : Nat) (f : Group → Group) : (s.modGroup id f).banks = s.banks := rfl
@[simp] theorem State.modGroup_l2 (s : State) (id : Nat) (f : Group → Group) : (s.modGroup id f).l2 = s.l2 := rfl
@[simp] theorem State.modGroup_slc (s : State) (id : Nat) (f : Group → Group) : (s.modGroup id f).slc = s.slc := rfl
@[simp] theorem State.modGroup_slcQ (s : State) (id : Nat) (f : Group → Group) : (s.modGroup id f).slcQ = s.slcQ := rfl
@[simp] theorem State.modGroup_hostQ (s : State) (id : Nat) (f : Group → Group) : (s.modGroup id f).hostQ = s.hostQ := rfl
@[simp] theorem State.modGroup_dir (s : State) (id : Nat) (f : Group → Group) : (s.modGroup id f).dir = s.dir := rfl
@[simp] theorem State.modGroup_recalls (s : State) (id : Nat) (f : Group → Group) : (s.modGroup id f).recalls = s.recalls := rfl
@[simp] theorem State.modGroup_l1Invs (s : State) (id : Nat) (f : Group → Group) : (s.modGroup id f).l1Invs = s.l1Invs := rfl
@[simp] theorem State.modGroup_monRegs (s : State) (id : Nat) (f : Group → Group) : (s.modGroup id f).monRegs = s.monRegs := rfl
@[simp] theorem State.modGroup_l2Tlb (s : State) (id : Nat) (f : Group → Group) : (s.modGroup id f).l2Tlb = s.l2Tlb := rfl
@[simp] theorem State.modGroup_gen (s : State) (id : Nat) (f : Group → Group) : (s.modGroup id f).gen = s.gen := rfl
@[simp] theorem State.modGroup_invs (s : State) (id : Nat) (f : Group → Group) : (s.modGroup id f).invs = s.invs := rfl
@[simp] theorem State.modGroup_cleans (s : State) (id : Nat) (f : Group → Group) : (s.modGroup id f).cleans = s.cleans := rfl
@[simp] theorem State.modGroup_staged (s : State) (id : Nat) (f : Group → Group) : (s.modGroup id f).staged = s.staged := rfl
@[simp] theorem State.modGroup_yards (s : State) (id : Nat) (f : Group → Group) : (s.modGroup id f).yards = s.yards := rfl
@[simp] theorem State.modGroup_ctxs (s : State) (id : Nat) (f : Group → Group) : (s.modGroup id f).ctxs = s.ctxs := rfl
@[simp] theorem State.modGroup_nodes (s : State) (id : Nat) (f : Group → Group) : (s.modGroup id f).nodes = s.nodes := rfl
@[simp] theorem State.modGroup_entryGens (s : State) (id : Nat) (f : Group → Group) : (s.modGroup id f).entryGens = s.entryGens := rfl
@[simp] theorem State.modGroup_jcAdds (s : State) (id : Nat) (f : Group → Group) : (s.modGroup id f).jcAdds = s.jcAdds := rfl
@[simp] theorem State.modGroup_teams (s : State) (id : Nat) (f : Group → Group) : (s.modGroup id f).teams = s.teams := rfl
@[simp] theorem State.modGroup_cores (s : State) (id : Nat) (f : Group → Group) : (s.modGroup id f).cores = s.cores := rfl
@[simp] theorem State.modGroup_flights (s : State) (id : Nat) (f : Group → Group) : (s.modGroup id f).flights = s.flights := rfl
@[simp] theorem State.modGroup_gov (s : State) (id : Nat) (f : Group → Group) : (s.modGroup id f).gov = s.gov := rfl
@[simp] theorem State.modGroup_drpthr (s : State) (id : Nat) (f : Group → Group) : (s.modGroup id f).drpthr = s.drpthr := rfl
@[simp] theorem State.modGroup_tickets (s : State) (id : Nat) (f : Group → Group) : (s.modGroup id f).tickets = s.tickets := rfl
@[simp] theorem State.modGroup_faultQ (s : State) (id : Nat) (f : Group → Group) : (s.modGroup id f).faultQ = s.faultQ := rfl
@[simp] theorem State.modGroup_rpcQ (s : State) (id : Nat) (f : Group → Group) : (s.modGroup id f).rpcQ = s.rpcQ := rfl
@[simp] theorem State.modGroup_outbox (s : State) (id : Nat) (f : Group → Group) : (s.modGroup id f).outbox = s.outbox := rfl
@[simp] theorem State.modGroup_time (s : State) (id : Nat) (f : Group → Group) : (s.modGroup id f).time = s.time := rfl
@[simp] theorem State.modGroup_boot (s : State) (id : Nat) (f : Group → Group) : (s.modGroup id f).boot = s.boot := rfl
@[simp] theorem State.modGroup_tdis (s : State) (id : Nat) (f : Group → Group) : (s.modGroup id f).tdis = s.tdis := rfl
@[simp] theorem State.modGroup_frameOwner (s : State) (id : Nat) (f : Group → Group) : (s.modGroup id f).frameOwner = s.frameOwner := rfl
@[simp] theorem State.modGroup_dbg (s : State) (id : Nat) (f : Group → Group) : (s.modGroup id f).dbg = s.dbg := rfl
@[simp] theorem State.modGroup_agenda (s : State) (id : Nat) (f : Group → Group) : (s.modGroup id f).agenda = s.agenda := rfl
@[simp] theorem State.modGroup_cur (s : State) (id : Nat) (f : Group → Group) : (s.modGroup id f).cur = s.cur := rfl
@[simp] theorem State.modGroup_nonce (s : State) (id : Nat) (f : Group → Group) : (s.modGroup id f).nonce = s.nonce := rfl
@[simp] theorem State.modGroup_nextId (s : State) (id : Nat) (f : Group → Group) : (s.modGroup id f).nextId = s.nextId := rfl

/-! ### State.modCore -/

@[simp] theorem State.modCore_mem (s : State) (id : Nat) (f : Core → Core) : (s.modCore id f).mem = s.mem := rfl
@[simp] theorem State.modCore_loft (s : State) (id : Nat) (f : Core → Core) : (s.modCore id f).loft = s.loft := rfl
@[simp] theorem State.modCore_poisoned (s : State) (id : Nat) (f : Core → Core) : (s.modCore id f).poisoned = s.poisoned := rfl
@[simp] theorem State.modCore_chErrors (s : State) (id : Nat) (f : Core → Core) : (s.modCore id f).chErrors = s.chErrors := rfl
@[simp] theorem State.modCore_rows (s : State) (id : Nat) (f : Core → Core) : (s.modCore id f).rows = s.rows := rfl
@[simp] theorem State.modCore_slotsS (s : State) (id : Nat) (f : Core → Core) : (s.modCore id f).slotsS = s.slotsS := rfl
@[simp] theorem State.modCore_slotsFixed (s : State) (id : Nat) (f : Core → Core) : (s.modCore id f).slotsFixed = s.slotsFixed := rfl
@[simp] theorem State.modCore_selfRefresh (s : State) (id : Nat) (f : Core → Core) : (s.modCore id f).selfRefresh = s.selfRefresh := rfl
@[simp] theorem State.modCore_banks (s : State) (id : Nat) (f : Core → Core) : (s.modCore id f).banks = s.banks := rfl
@[simp] theorem State.modCore_l2 (s : State) (id : Nat) (f : Core → Core) : (s.modCore id f).l2 = s.l2 := rfl
@[simp] theorem State.modCore_slc (s : State) (id : Nat) (f : Core → Core) : (s.modCore id f).slc = s.slc := rfl
@[simp] theorem State.modCore_slcQ (s : State) (id : Nat) (f : Core → Core) : (s.modCore id f).slcQ = s.slcQ := rfl
@[simp] theorem State.modCore_hostQ (s : State) (id : Nat) (f : Core → Core) : (s.modCore id f).hostQ = s.hostQ := rfl
@[simp] theorem State.modCore_dir (s : State) (id : Nat) (f : Core → Core) : (s.modCore id f).dir = s.dir := rfl
@[simp] theorem State.modCore_recalls (s : State) (id : Nat) (f : Core → Core) : (s.modCore id f).recalls = s.recalls := rfl
@[simp] theorem State.modCore_l1Invs (s : State) (id : Nat) (f : Core → Core) : (s.modCore id f).l1Invs = s.l1Invs := rfl
@[simp] theorem State.modCore_monRegs (s : State) (id : Nat) (f : Core → Core) : (s.modCore id f).monRegs = s.monRegs := rfl
@[simp] theorem State.modCore_l2Tlb (s : State) (id : Nat) (f : Core → Core) : (s.modCore id f).l2Tlb = s.l2Tlb := rfl
@[simp] theorem State.modCore_gen (s : State) (id : Nat) (f : Core → Core) : (s.modCore id f).gen = s.gen := rfl
@[simp] theorem State.modCore_invs (s : State) (id : Nat) (f : Core → Core) : (s.modCore id f).invs = s.invs := rfl
@[simp] theorem State.modCore_cleans (s : State) (id : Nat) (f : Core → Core) : (s.modCore id f).cleans = s.cleans := rfl
@[simp] theorem State.modCore_staged (s : State) (id : Nat) (f : Core → Core) : (s.modCore id f).staged = s.staged := rfl
@[simp] theorem State.modCore_yards (s : State) (id : Nat) (f : Core → Core) : (s.modCore id f).yards = s.yards := rfl
@[simp] theorem State.modCore_ctxs (s : State) (id : Nat) (f : Core → Core) : (s.modCore id f).ctxs = s.ctxs := rfl
@[simp] theorem State.modCore_nodes (s : State) (id : Nat) (f : Core → Core) : (s.modCore id f).nodes = s.nodes := rfl
@[simp] theorem State.modCore_entryGens (s : State) (id : Nat) (f : Core → Core) : (s.modCore id f).entryGens = s.entryGens := rfl
@[simp] theorem State.modCore_jcAdds (s : State) (id : Nat) (f : Core → Core) : (s.modCore id f).jcAdds = s.jcAdds := rfl
@[simp] theorem State.modCore_groups (s : State) (id : Nat) (f : Core → Core) : (s.modCore id f).groups = s.groups := rfl
@[simp] theorem State.modCore_teams (s : State) (id : Nat) (f : Core → Core) : (s.modCore id f).teams = s.teams := rfl
@[simp] theorem State.modCore_flights (s : State) (id : Nat) (f : Core → Core) : (s.modCore id f).flights = s.flights := rfl
@[simp] theorem State.modCore_gov (s : State) (id : Nat) (f : Core → Core) : (s.modCore id f).gov = s.gov := rfl
@[simp] theorem State.modCore_drpthr (s : State) (id : Nat) (f : Core → Core) : (s.modCore id f).drpthr = s.drpthr := rfl
@[simp] theorem State.modCore_tickets (s : State) (id : Nat) (f : Core → Core) : (s.modCore id f).tickets = s.tickets := rfl
@[simp] theorem State.modCore_faultQ (s : State) (id : Nat) (f : Core → Core) : (s.modCore id f).faultQ = s.faultQ := rfl
@[simp] theorem State.modCore_rpcQ (s : State) (id : Nat) (f : Core → Core) : (s.modCore id f).rpcQ = s.rpcQ := rfl
@[simp] theorem State.modCore_outbox (s : State) (id : Nat) (f : Core → Core) : (s.modCore id f).outbox = s.outbox := rfl
@[simp] theorem State.modCore_time (s : State) (id : Nat) (f : Core → Core) : (s.modCore id f).time = s.time := rfl
@[simp] theorem State.modCore_boot (s : State) (id : Nat) (f : Core → Core) : (s.modCore id f).boot = s.boot := rfl
@[simp] theorem State.modCore_tdis (s : State) (id : Nat) (f : Core → Core) : (s.modCore id f).tdis = s.tdis := rfl
@[simp] theorem State.modCore_frameOwner (s : State) (id : Nat) (f : Core → Core) : (s.modCore id f).frameOwner = s.frameOwner := rfl
@[simp] theorem State.modCore_dbg (s : State) (id : Nat) (f : Core → Core) : (s.modCore id f).dbg = s.dbg := rfl
@[simp] theorem State.modCore_agenda (s : State) (id : Nat) (f : Core → Core) : (s.modCore id f).agenda = s.agenda := rfl
@[simp] theorem State.modCore_cur (s : State) (id : Nat) (f : Core → Core) : (s.modCore id f).cur = s.cur := rfl
@[simp] theorem State.modCore_nonce (s : State) (id : Nat) (f : Core → Core) : (s.modCore id f).nonce = s.nonce := rfl
@[simp] theorem State.modCore_nextId (s : State) (id : Nat) (f : Core → Core) : (s.modCore id f).nextId = s.nextId := rfl

/-! ### State.modCtx -/

@[simp] theorem State.modCtx_mem (s : State) (asid : Nat) (f : Ctxt → Ctxt) : (s.modCtx asid f).mem = s.mem := rfl
@[simp] theorem State.modCtx_loft (s : State) (asid : Nat) (f : Ctxt → Ctxt) : (s.modCtx asid f).loft = s.loft := rfl
@[simp] theorem State.modCtx_poisoned (s : State) (asid : Nat) (f : Ctxt → Ctxt) : (s.modCtx asid f).poisoned = s.poisoned := rfl
@[simp] theorem State.modCtx_chErrors (s : State) (asid : Nat) (f : Ctxt → Ctxt) : (s.modCtx asid f).chErrors = s.chErrors := rfl
@[simp] theorem State.modCtx_rows (s : State) (asid : Nat) (f : Ctxt → Ctxt) : (s.modCtx asid f).rows = s.rows := rfl
@[simp] theorem State.modCtx_slotsS (s : State) (asid : Nat) (f : Ctxt → Ctxt) : (s.modCtx asid f).slotsS = s.slotsS := rfl
@[simp] theorem State.modCtx_slotsFixed (s : State) (asid : Nat) (f : Ctxt → Ctxt) : (s.modCtx asid f).slotsFixed = s.slotsFixed := rfl
@[simp] theorem State.modCtx_selfRefresh (s : State) (asid : Nat) (f : Ctxt → Ctxt) : (s.modCtx asid f).selfRefresh = s.selfRefresh := rfl
@[simp] theorem State.modCtx_banks (s : State) (asid : Nat) (f : Ctxt → Ctxt) : (s.modCtx asid f).banks = s.banks := rfl
@[simp] theorem State.modCtx_l2 (s : State) (asid : Nat) (f : Ctxt → Ctxt) : (s.modCtx asid f).l2 = s.l2 := rfl
@[simp] theorem State.modCtx_slc (s : State) (asid : Nat) (f : Ctxt → Ctxt) : (s.modCtx asid f).slc = s.slc := rfl
@[simp] theorem State.modCtx_slcQ (s : State) (asid : Nat) (f : Ctxt → Ctxt) : (s.modCtx asid f).slcQ = s.slcQ := rfl
@[simp] theorem State.modCtx_hostQ (s : State) (asid : Nat) (f : Ctxt → Ctxt) : (s.modCtx asid f).hostQ = s.hostQ := rfl
@[simp] theorem State.modCtx_dir (s : State) (asid : Nat) (f : Ctxt → Ctxt) : (s.modCtx asid f).dir = s.dir := rfl
@[simp] theorem State.modCtx_recalls (s : State) (asid : Nat) (f : Ctxt → Ctxt) : (s.modCtx asid f).recalls = s.recalls := rfl
@[simp] theorem State.modCtx_l1Invs (s : State) (asid : Nat) (f : Ctxt → Ctxt) : (s.modCtx asid f).l1Invs = s.l1Invs := rfl
@[simp] theorem State.modCtx_monRegs (s : State) (asid : Nat) (f : Ctxt → Ctxt) : (s.modCtx asid f).monRegs = s.monRegs := rfl
@[simp] theorem State.modCtx_l2Tlb (s : State) (asid : Nat) (f : Ctxt → Ctxt) : (s.modCtx asid f).l2Tlb = s.l2Tlb := rfl
@[simp] theorem State.modCtx_gen (s : State) (asid : Nat) (f : Ctxt → Ctxt) : (s.modCtx asid f).gen = s.gen := rfl
@[simp] theorem State.modCtx_invs (s : State) (asid : Nat) (f : Ctxt → Ctxt) : (s.modCtx asid f).invs = s.invs := rfl
@[simp] theorem State.modCtx_cleans (s : State) (asid : Nat) (f : Ctxt → Ctxt) : (s.modCtx asid f).cleans = s.cleans := rfl
@[simp] theorem State.modCtx_staged (s : State) (asid : Nat) (f : Ctxt → Ctxt) : (s.modCtx asid f).staged = s.staged := rfl
@[simp] theorem State.modCtx_yards (s : State) (asid : Nat) (f : Ctxt → Ctxt) : (s.modCtx asid f).yards = s.yards := rfl
@[simp] theorem State.modCtx_nodes (s : State) (asid : Nat) (f : Ctxt → Ctxt) : (s.modCtx asid f).nodes = s.nodes := rfl
@[simp] theorem State.modCtx_entryGens (s : State) (asid : Nat) (f : Ctxt → Ctxt) : (s.modCtx asid f).entryGens = s.entryGens := rfl
@[simp] theorem State.modCtx_jcAdds (s : State) (asid : Nat) (f : Ctxt → Ctxt) : (s.modCtx asid f).jcAdds = s.jcAdds := rfl
@[simp] theorem State.modCtx_groups (s : State) (asid : Nat) (f : Ctxt → Ctxt) : (s.modCtx asid f).groups = s.groups := rfl
@[simp] theorem State.modCtx_teams (s : State) (asid : Nat) (f : Ctxt → Ctxt) : (s.modCtx asid f).teams = s.teams := rfl
@[simp] theorem State.modCtx_cores (s : State) (asid : Nat) (f : Ctxt → Ctxt) : (s.modCtx asid f).cores = s.cores := rfl
@[simp] theorem State.modCtx_flights (s : State) (asid : Nat) (f : Ctxt → Ctxt) : (s.modCtx asid f).flights = s.flights := rfl
@[simp] theorem State.modCtx_gov (s : State) (asid : Nat) (f : Ctxt → Ctxt) : (s.modCtx asid f).gov = s.gov := rfl
@[simp] theorem State.modCtx_drpthr (s : State) (asid : Nat) (f : Ctxt → Ctxt) : (s.modCtx asid f).drpthr = s.drpthr := rfl
@[simp] theorem State.modCtx_tickets (s : State) (asid : Nat) (f : Ctxt → Ctxt) : (s.modCtx asid f).tickets = s.tickets := rfl
@[simp] theorem State.modCtx_faultQ (s : State) (asid : Nat) (f : Ctxt → Ctxt) : (s.modCtx asid f).faultQ = s.faultQ := rfl
@[simp] theorem State.modCtx_rpcQ (s : State) (asid : Nat) (f : Ctxt → Ctxt) : (s.modCtx asid f).rpcQ = s.rpcQ := rfl
@[simp] theorem State.modCtx_outbox (s : State) (asid : Nat) (f : Ctxt → Ctxt) : (s.modCtx asid f).outbox = s.outbox := rfl
@[simp] theorem State.modCtx_time (s : State) (asid : Nat) (f : Ctxt → Ctxt) : (s.modCtx asid f).time = s.time := rfl
@[simp] theorem State.modCtx_boot (s : State) (asid : Nat) (f : Ctxt → Ctxt) : (s.modCtx asid f).boot = s.boot := rfl
@[simp] theorem State.modCtx_tdis (s : State) (asid : Nat) (f : Ctxt → Ctxt) : (s.modCtx asid f).tdis = s.tdis := rfl
@[simp] theorem State.modCtx_frameOwner (s : State) (asid : Nat) (f : Ctxt → Ctxt) : (s.modCtx asid f).frameOwner = s.frameOwner := rfl
@[simp] theorem State.modCtx_dbg (s : State) (asid : Nat) (f : Ctxt → Ctxt) : (s.modCtx asid f).dbg = s.dbg := rfl
@[simp] theorem State.modCtx_agenda (s : State) (asid : Nat) (f : Ctxt → Ctxt) : (s.modCtx asid f).agenda = s.agenda := rfl
@[simp] theorem State.modCtx_cur (s : State) (asid : Nat) (f : Ctxt → Ctxt) : (s.modCtx asid f).cur = s.cur := rfl
@[simp] theorem State.modCtx_nonce (s : State) (asid : Nat) (f : Ctxt → Ctxt) : (s.modCtx asid f).nonce = s.nonce := rfl
@[simp] theorem State.modCtx_nextId (s : State) (asid : Nat) (f : Ctxt → Ctxt) : (s.modCtx asid f).nextId = s.nextId := rfl

/-! ### State.modNode -/

@[simp] theorem State.modNode_mem (s : State) (id : Nat) (f : Node → Node) : (s.modNode id f).mem = s.mem := rfl
@[simp] theorem State.modNode_loft (s : State) (id : Nat) (f : Node → Node) : (s.modNode id f).loft = s.loft := rfl
@[simp] theorem State.modNode_poisoned (s : State) (id : Nat) (f : Node → Node) : (s.modNode id f).poisoned = s.poisoned := rfl
@[simp] theorem State.modNode_chErrors (s : State) (id : Nat) (f : Node → Node) : (s.modNode id f).chErrors = s.chErrors := rfl
@[simp] theorem State.modNode_rows (s : State) (id : Nat) (f : Node → Node) : (s.modNode id f).rows = s.rows := rfl
@[simp] theorem State.modNode_slotsS (s : State) (id : Nat) (f : Node → Node) : (s.modNode id f).slotsS = s.slotsS := rfl
@[simp] theorem State.modNode_slotsFixed (s : State) (id : Nat) (f : Node → Node) : (s.modNode id f).slotsFixed = s.slotsFixed := rfl
@[simp] theorem State.modNode_selfRefresh (s : State) (id : Nat) (f : Node → Node) : (s.modNode id f).selfRefresh = s.selfRefresh := rfl
@[simp] theorem State.modNode_banks (s : State) (id : Nat) (f : Node → Node) : (s.modNode id f).banks = s.banks := rfl
@[simp] theorem State.modNode_l2 (s : State) (id : Nat) (f : Node → Node) : (s.modNode id f).l2 = s.l2 := rfl
@[simp] theorem State.modNode_slc (s : State) (id : Nat) (f : Node → Node) : (s.modNode id f).slc = s.slc := rfl
@[simp] theorem State.modNode_slcQ (s : State) (id : Nat) (f : Node → Node) : (s.modNode id f).slcQ = s.slcQ := rfl
@[simp] theorem State.modNode_hostQ (s : State) (id : Nat) (f : Node → Node) : (s.modNode id f).hostQ = s.hostQ := rfl
@[simp] theorem State.modNode_dir (s : State) (id : Nat) (f : Node → Node) : (s.modNode id f).dir = s.dir := rfl
@[simp] theorem State.modNode_recalls (s : State) (id : Nat) (f : Node → Node) : (s.modNode id f).recalls = s.recalls := rfl
@[simp] theorem State.modNode_l1Invs (s : State) (id : Nat) (f : Node → Node) : (s.modNode id f).l1Invs = s.l1Invs := rfl
@[simp] theorem State.modNode_monRegs (s : State) (id : Nat) (f : Node → Node) : (s.modNode id f).monRegs = s.monRegs := rfl
@[simp] theorem State.modNode_l2Tlb (s : State) (id : Nat) (f : Node → Node) : (s.modNode id f).l2Tlb = s.l2Tlb := rfl
@[simp] theorem State.modNode_gen (s : State) (id : Nat) (f : Node → Node) : (s.modNode id f).gen = s.gen := rfl
@[simp] theorem State.modNode_invs (s : State) (id : Nat) (f : Node → Node) : (s.modNode id f).invs = s.invs := rfl
@[simp] theorem State.modNode_cleans (s : State) (id : Nat) (f : Node → Node) : (s.modNode id f).cleans = s.cleans := rfl
@[simp] theorem State.modNode_staged (s : State) (id : Nat) (f : Node → Node) : (s.modNode id f).staged = s.staged := rfl
@[simp] theorem State.modNode_yards (s : State) (id : Nat) (f : Node → Node) : (s.modNode id f).yards = s.yards := rfl
@[simp] theorem State.modNode_ctxs (s : State) (id : Nat) (f : Node → Node) : (s.modNode id f).ctxs = s.ctxs := rfl
@[simp] theorem State.modNode_entryGens (s : State) (id : Nat) (f : Node → Node) : (s.modNode id f).entryGens = s.entryGens := rfl
@[simp] theorem State.modNode_jcAdds (s : State) (id : Nat) (f : Node → Node) : (s.modNode id f).jcAdds = s.jcAdds := rfl
@[simp] theorem State.modNode_groups (s : State) (id : Nat) (f : Node → Node) : (s.modNode id f).groups = s.groups := rfl
@[simp] theorem State.modNode_teams (s : State) (id : Nat) (f : Node → Node) : (s.modNode id f).teams = s.teams := rfl
@[simp] theorem State.modNode_cores (s : State) (id : Nat) (f : Node → Node) : (s.modNode id f).cores = s.cores := rfl
@[simp] theorem State.modNode_flights (s : State) (id : Nat) (f : Node → Node) : (s.modNode id f).flights = s.flights := rfl
@[simp] theorem State.modNode_gov (s : State) (id : Nat) (f : Node → Node) : (s.modNode id f).gov = s.gov := rfl
@[simp] theorem State.modNode_drpthr (s : State) (id : Nat) (f : Node → Node) : (s.modNode id f).drpthr = s.drpthr := rfl
@[simp] theorem State.modNode_tickets (s : State) (id : Nat) (f : Node → Node) : (s.modNode id f).tickets = s.tickets := rfl
@[simp] theorem State.modNode_faultQ (s : State) (id : Nat) (f : Node → Node) : (s.modNode id f).faultQ = s.faultQ := rfl
@[simp] theorem State.modNode_rpcQ (s : State) (id : Nat) (f : Node → Node) : (s.modNode id f).rpcQ = s.rpcQ := rfl
@[simp] theorem State.modNode_outbox (s : State) (id : Nat) (f : Node → Node) : (s.modNode id f).outbox = s.outbox := rfl
@[simp] theorem State.modNode_time (s : State) (id : Nat) (f : Node → Node) : (s.modNode id f).time = s.time := rfl
@[simp] theorem State.modNode_boot (s : State) (id : Nat) (f : Node → Node) : (s.modNode id f).boot = s.boot := rfl
@[simp] theorem State.modNode_tdis (s : State) (id : Nat) (f : Node → Node) : (s.modNode id f).tdis = s.tdis := rfl
@[simp] theorem State.modNode_frameOwner (s : State) (id : Nat) (f : Node → Node) : (s.modNode id f).frameOwner = s.frameOwner := rfl
@[simp] theorem State.modNode_dbg (s : State) (id : Nat) (f : Node → Node) : (s.modNode id f).dbg = s.dbg := rfl
@[simp] theorem State.modNode_agenda (s : State) (id : Nat) (f : Node → Node) : (s.modNode id f).agenda = s.agenda := rfl
@[simp] theorem State.modNode_cur (s : State) (id : Nat) (f : Node → Node) : (s.modNode id f).cur = s.cur := rfl
@[simp] theorem State.modNode_nonce (s : State) (id : Nat) (f : Node → Node) : (s.modNode id f).nonce = s.nonce := rfl
@[simp] theorem State.modNode_nextId (s : State) (id : Nat) (f : Node → Node) : (s.modNode id f).nextId = s.nextId := rfl

/-! ### State.modFlight -/

@[simp] theorem State.modFlight_mem (s : State) (id : Nat) (f : Flight → Flight) : (s.modFlight id f).mem = s.mem := rfl
@[simp] theorem State.modFlight_loft (s : State) (id : Nat) (f : Flight → Flight) : (s.modFlight id f).loft = s.loft := rfl
@[simp] theorem State.modFlight_poisoned (s : State) (id : Nat) (f : Flight → Flight) : (s.modFlight id f).poisoned = s.poisoned := rfl
@[simp] theorem State.modFlight_chErrors (s : State) (id : Nat) (f : Flight → Flight) : (s.modFlight id f).chErrors = s.chErrors := rfl
@[simp] theorem State.modFlight_rows (s : State) (id : Nat) (f : Flight → Flight) : (s.modFlight id f).rows = s.rows := rfl
@[simp] theorem State.modFlight_slotsS (s : State) (id : Nat) (f : Flight → Flight) : (s.modFlight id f).slotsS = s.slotsS := rfl
@[simp] theorem State.modFlight_slotsFixed (s : State) (id : Nat) (f : Flight → Flight) : (s.modFlight id f).slotsFixed = s.slotsFixed := rfl
@[simp] theorem State.modFlight_selfRefresh (s : State) (id : Nat) (f : Flight → Flight) : (s.modFlight id f).selfRefresh = s.selfRefresh := rfl
@[simp] theorem State.modFlight_banks (s : State) (id : Nat) (f : Flight → Flight) : (s.modFlight id f).banks = s.banks := rfl
@[simp] theorem State.modFlight_l2 (s : State) (id : Nat) (f : Flight → Flight) : (s.modFlight id f).l2 = s.l2 := rfl
@[simp] theorem State.modFlight_slc (s : State) (id : Nat) (f : Flight → Flight) : (s.modFlight id f).slc = s.slc := rfl
@[simp] theorem State.modFlight_slcQ (s : State) (id : Nat) (f : Flight → Flight) : (s.modFlight id f).slcQ = s.slcQ := rfl
@[simp] theorem State.modFlight_hostQ (s : State) (id : Nat) (f : Flight → Flight) : (s.modFlight id f).hostQ = s.hostQ := rfl
@[simp] theorem State.modFlight_dir (s : State) (id : Nat) (f : Flight → Flight) : (s.modFlight id f).dir = s.dir := rfl
@[simp] theorem State.modFlight_recalls (s : State) (id : Nat) (f : Flight → Flight) : (s.modFlight id f).recalls = s.recalls := rfl
@[simp] theorem State.modFlight_l1Invs (s : State) (id : Nat) (f : Flight → Flight) : (s.modFlight id f).l1Invs = s.l1Invs := rfl
@[simp] theorem State.modFlight_monRegs (s : State) (id : Nat) (f : Flight → Flight) : (s.modFlight id f).monRegs = s.monRegs := rfl
@[simp] theorem State.modFlight_l2Tlb (s : State) (id : Nat) (f : Flight → Flight) : (s.modFlight id f).l2Tlb = s.l2Tlb := rfl
@[simp] theorem State.modFlight_gen (s : State) (id : Nat) (f : Flight → Flight) : (s.modFlight id f).gen = s.gen := rfl
@[simp] theorem State.modFlight_invs (s : State) (id : Nat) (f : Flight → Flight) : (s.modFlight id f).invs = s.invs := rfl
@[simp] theorem State.modFlight_cleans (s : State) (id : Nat) (f : Flight → Flight) : (s.modFlight id f).cleans = s.cleans := rfl
@[simp] theorem State.modFlight_staged (s : State) (id : Nat) (f : Flight → Flight) : (s.modFlight id f).staged = s.staged := rfl
@[simp] theorem State.modFlight_yards (s : State) (id : Nat) (f : Flight → Flight) : (s.modFlight id f).yards = s.yards := rfl
@[simp] theorem State.modFlight_ctxs (s : State) (id : Nat) (f : Flight → Flight) : (s.modFlight id f).ctxs = s.ctxs := rfl
@[simp] theorem State.modFlight_nodes (s : State) (id : Nat) (f : Flight → Flight) : (s.modFlight id f).nodes = s.nodes := rfl
@[simp] theorem State.modFlight_entryGens (s : State) (id : Nat) (f : Flight → Flight) : (s.modFlight id f).entryGens = s.entryGens := rfl
@[simp] theorem State.modFlight_jcAdds (s : State) (id : Nat) (f : Flight → Flight) : (s.modFlight id f).jcAdds = s.jcAdds := rfl
@[simp] theorem State.modFlight_groups (s : State) (id : Nat) (f : Flight → Flight) : (s.modFlight id f).groups = s.groups := rfl
@[simp] theorem State.modFlight_teams (s : State) (id : Nat) (f : Flight → Flight) : (s.modFlight id f).teams = s.teams := rfl
@[simp] theorem State.modFlight_cores (s : State) (id : Nat) (f : Flight → Flight) : (s.modFlight id f).cores = s.cores := rfl
@[simp] theorem State.modFlight_gov (s : State) (id : Nat) (f : Flight → Flight) : (s.modFlight id f).gov = s.gov := rfl
@[simp] theorem State.modFlight_drpthr (s : State) (id : Nat) (f : Flight → Flight) : (s.modFlight id f).drpthr = s.drpthr := rfl
@[simp] theorem State.modFlight_tickets (s : State) (id : Nat) (f : Flight → Flight) : (s.modFlight id f).tickets = s.tickets := rfl
@[simp] theorem State.modFlight_faultQ (s : State) (id : Nat) (f : Flight → Flight) : (s.modFlight id f).faultQ = s.faultQ := rfl
@[simp] theorem State.modFlight_rpcQ (s : State) (id : Nat) (f : Flight → Flight) : (s.modFlight id f).rpcQ = s.rpcQ := rfl
@[simp] theorem State.modFlight_outbox (s : State) (id : Nat) (f : Flight → Flight) : (s.modFlight id f).outbox = s.outbox := rfl
@[simp] theorem State.modFlight_time (s : State) (id : Nat) (f : Flight → Flight) : (s.modFlight id f).time = s.time := rfl
@[simp] theorem State.modFlight_boot (s : State) (id : Nat) (f : Flight → Flight) : (s.modFlight id f).boot = s.boot := rfl
@[simp] theorem State.modFlight_tdis (s : State) (id : Nat) (f : Flight → Flight) : (s.modFlight id f).tdis = s.tdis := rfl
@[simp] theorem State.modFlight_frameOwner (s : State) (id : Nat) (f : Flight → Flight) : (s.modFlight id f).frameOwner = s.frameOwner := rfl
@[simp] theorem State.modFlight_dbg (s : State) (id : Nat) (f : Flight → Flight) : (s.modFlight id f).dbg = s.dbg := rfl
@[simp] theorem State.modFlight_agenda (s : State) (id : Nat) (f : Flight → Flight) : (s.modFlight id f).agenda = s.agenda := rfl
@[simp] theorem State.modFlight_cur (s : State) (id : Nat) (f : Flight → Flight) : (s.modFlight id f).cur = s.cur := rfl
@[simp] theorem State.modFlight_nonce (s : State) (id : Nat) (f : Flight → Flight) : (s.modFlight id f).nonce = s.nonce := rfl
@[simp] theorem State.modFlight_nextId (s : State) (id : Nat) (f : Flight → Flight) : (s.modFlight id f).nextId = s.nextId := rfl

/-! ### State.modSplit -/

@[simp] theorem State.modSplit_mem (s : State) (tid uid : Nat) (f : Split → Split) : (s.modSplit tid uid f).mem = s.mem := rfl
@[simp] theorem State.modSplit_loft (s : State) (tid uid : Nat) (f : Split → Split) : (s.modSplit tid uid f).loft = s.loft := rfl
@[simp] theorem State.modSplit_poisoned (s : State) (tid uid : Nat) (f : Split → Split) : (s.modSplit tid uid f).poisoned = s.poisoned := rfl
@[simp] theorem State.modSplit_chErrors (s : State) (tid uid : Nat) (f : Split → Split) : (s.modSplit tid uid f).chErrors = s.chErrors := rfl
@[simp] theorem State.modSplit_rows (s : State) (tid uid : Nat) (f : Split → Split) : (s.modSplit tid uid f).rows = s.rows := rfl
@[simp] theorem State.modSplit_slotsS (s : State) (tid uid : Nat) (f : Split → Split) : (s.modSplit tid uid f).slotsS = s.slotsS := rfl
@[simp] theorem State.modSplit_slotsFixed (s : State) (tid uid : Nat) (f : Split → Split) : (s.modSplit tid uid f).slotsFixed = s.slotsFixed := rfl
@[simp] theorem State.modSplit_selfRefresh (s : State) (tid uid : Nat) (f : Split → Split) : (s.modSplit tid uid f).selfRefresh = s.selfRefresh := rfl
@[simp] theorem State.modSplit_banks (s : State) (tid uid : Nat) (f : Split → Split) : (s.modSplit tid uid f).banks = s.banks := rfl
@[simp] theorem State.modSplit_l2 (s : State) (tid uid : Nat) (f : Split → Split) : (s.modSplit tid uid f).l2 = s.l2 := rfl
@[simp] theorem State.modSplit_slc (s : State) (tid uid : Nat) (f : Split → Split) : (s.modSplit tid uid f).slc = s.slc := rfl
@[simp] theorem State.modSplit_slcQ (s : State) (tid uid : Nat) (f : Split → Split) : (s.modSplit tid uid f).slcQ = s.slcQ := rfl
@[simp] theorem State.modSplit_hostQ (s : State) (tid uid : Nat) (f : Split → Split) : (s.modSplit tid uid f).hostQ = s.hostQ := rfl
@[simp] theorem State.modSplit_dir (s : State) (tid uid : Nat) (f : Split → Split) : (s.modSplit tid uid f).dir = s.dir := rfl
@[simp] theorem State.modSplit_recalls (s : State) (tid uid : Nat) (f : Split → Split) : (s.modSplit tid uid f).recalls = s.recalls := rfl
@[simp] theorem State.modSplit_l1Invs (s : State) (tid uid : Nat) (f : Split → Split) : (s.modSplit tid uid f).l1Invs = s.l1Invs := rfl
@[simp] theorem State.modSplit_monRegs (s : State) (tid uid : Nat) (f : Split → Split) : (s.modSplit tid uid f).monRegs = s.monRegs := rfl
@[simp] theorem State.modSplit_l2Tlb (s : State) (tid uid : Nat) (f : Split → Split) : (s.modSplit tid uid f).l2Tlb = s.l2Tlb := rfl
@[simp] theorem State.modSplit_gen (s : State) (tid uid : Nat) (f : Split → Split) : (s.modSplit tid uid f).gen = s.gen := rfl
@[simp] theorem State.modSplit_invs (s : State) (tid uid : Nat) (f : Split → Split) : (s.modSplit tid uid f).invs = s.invs := rfl
@[simp] theorem State.modSplit_cleans (s : State) (tid uid : Nat) (f : Split → Split) : (s.modSplit tid uid f).cleans = s.cleans := rfl
@[simp] theorem State.modSplit_staged (s : State) (tid uid : Nat) (f : Split → Split) : (s.modSplit tid uid f).staged = s.staged := rfl
@[simp] theorem State.modSplit_yards (s : State) (tid uid : Nat) (f : Split → Split) : (s.modSplit tid uid f).yards = s.yards := rfl
@[simp] theorem State.modSplit_ctxs (s : State) (tid uid : Nat) (f : Split → Split) : (s.modSplit tid uid f).ctxs = s.ctxs := rfl
@[simp] theorem State.modSplit_nodes (s : State) (tid uid : Nat) (f : Split → Split) : (s.modSplit tid uid f).nodes = s.nodes := rfl
@[simp] theorem State.modSplit_entryGens (s : State) (tid uid : Nat) (f : Split → Split) : (s.modSplit tid uid f).entryGens = s.entryGens := rfl
@[simp] theorem State.modSplit_jcAdds (s : State) (tid uid : Nat) (f : Split → Split) : (s.modSplit tid uid f).jcAdds = s.jcAdds := rfl
@[simp] theorem State.modSplit_groups (s : State) (tid uid : Nat) (f : Split → Split) : (s.modSplit tid uid f).groups = s.groups := rfl
@[simp] theorem State.modSplit_cores (s : State) (tid uid : Nat) (f : Split → Split) : (s.modSplit tid uid f).cores = s.cores := rfl
@[simp] theorem State.modSplit_flights (s : State) (tid uid : Nat) (f : Split → Split) : (s.modSplit tid uid f).flights = s.flights := rfl
@[simp] theorem State.modSplit_gov (s : State) (tid uid : Nat) (f : Split → Split) : (s.modSplit tid uid f).gov = s.gov := rfl
@[simp] theorem State.modSplit_drpthr (s : State) (tid uid : Nat) (f : Split → Split) : (s.modSplit tid uid f).drpthr = s.drpthr := rfl
@[simp] theorem State.modSplit_tickets (s : State) (tid uid : Nat) (f : Split → Split) : (s.modSplit tid uid f).tickets = s.tickets := rfl
@[simp] theorem State.modSplit_faultQ (s : State) (tid uid : Nat) (f : Split → Split) : (s.modSplit tid uid f).faultQ = s.faultQ := rfl
@[simp] theorem State.modSplit_rpcQ (s : State) (tid uid : Nat) (f : Split → Split) : (s.modSplit tid uid f).rpcQ = s.rpcQ := rfl
@[simp] theorem State.modSplit_outbox (s : State) (tid uid : Nat) (f : Split → Split) : (s.modSplit tid uid f).outbox = s.outbox := rfl
@[simp] theorem State.modSplit_time (s : State) (tid uid : Nat) (f : Split → Split) : (s.modSplit tid uid f).time = s.time := rfl
@[simp] theorem State.modSplit_boot (s : State) (tid uid : Nat) (f : Split → Split) : (s.modSplit tid uid f).boot = s.boot := rfl
@[simp] theorem State.modSplit_tdis (s : State) (tid uid : Nat) (f : Split → Split) : (s.modSplit tid uid f).tdis = s.tdis := rfl
@[simp] theorem State.modSplit_frameOwner (s : State) (tid uid : Nat) (f : Split → Split) : (s.modSplit tid uid f).frameOwner = s.frameOwner := rfl
@[simp] theorem State.modSplit_dbg (s : State) (tid uid : Nat) (f : Split → Split) : (s.modSplit tid uid f).dbg = s.dbg := rfl
@[simp] theorem State.modSplit_agenda (s : State) (tid uid : Nat) (f : Split → Split) : (s.modSplit tid uid f).agenda = s.agenda := rfl
@[simp] theorem State.modSplit_cur (s : State) (tid uid : Nat) (f : Split → Split) : (s.modSplit tid uid f).cur = s.cur := rfl
@[simp] theorem State.modSplit_nonce (s : State) (tid uid : Nat) (f : Split → Split) : (s.modSplit tid uid f).nonce = s.nonce := rfl
@[simp] theorem State.modSplit_nextId (s : State) (tid uid : Nat) (f : Split → Split) : (s.modSplit tid uid f).nextId = s.nextId := rfl

/-! ### State.send -/

@[simp] theorem State.send_mem (s : State) (m : Msg) : (s.send m).mem = s.mem := rfl
@[simp] theorem State.send_loft (s : State) (m : Msg) : (s.send m).loft = s.loft := rfl
@[simp] theorem State.send_poisoned (s : State) (m : Msg) : (s.send m).poisoned = s.poisoned := rfl
@[simp] theorem State.send_chErrors (s : State) (m : Msg) : (s.send m).chErrors = s.chErrors := rfl
@[simp] theorem State.send_rows (s : State) (m : Msg) : (s.send m).rows = s.rows := rfl
@[simp] theorem State.send_slotsS (s : State) (m : Msg) : (s.send m).slotsS = s.slotsS := rfl
@[simp] theorem State.send_slotsFixed (s : State) (m : Msg) : (s.send m).slotsFixed = s.slotsFixed := rfl
@[simp] theorem State.send_selfRefresh (s : State) (m : Msg) : (s.send m).selfRefresh = s.selfRefresh := rfl
@[simp] theorem State.send_banks (s : State) (m : Msg) : (s.send m).banks = s.banks := rfl
@[simp] theorem State.send_l2 (s : State) (m : Msg) : (s.send m).l2 = s.l2 := rfl
@[simp] theorem State.send_slc (s : State) (m : Msg) : (s.send m).slc = s.slc := rfl
@[simp] theorem State.send_slcQ (s : State) (m : Msg) : (s.send m).slcQ = s.slcQ := rfl
@[simp] theorem State.send_hostQ (s : State) (m : Msg) : (s.send m).hostQ = s.hostQ := rfl
@[simp] theorem State.send_dir (s : State) (m : Msg) : (s.send m).dir = s.dir := rfl
@[simp] theorem State.send_recalls (s : State) (m : Msg) : (s.send m).recalls = s.recalls := rfl
@[simp] theorem State.send_l1Invs (s : State) (m : Msg) : (s.send m).l1Invs = s.l1Invs := rfl
@[simp] theorem State.send_monRegs (s : State) (m : Msg) : (s.send m).monRegs = s.monRegs := rfl
@[simp] theorem State.send_l2Tlb (s : State) (m : Msg) : (s.send m).l2Tlb = s.l2Tlb := rfl
@[simp] theorem State.send_gen (s : State) (m : Msg) : (s.send m).gen = s.gen := rfl
@[simp] theorem State.send_invs (s : State) (m : Msg) : (s.send m).invs = s.invs := rfl
@[simp] theorem State.send_cleans (s : State) (m : Msg) : (s.send m).cleans = s.cleans := rfl
@[simp] theorem State.send_staged (s : State) (m : Msg) : (s.send m).staged = s.staged := rfl
@[simp] theorem State.send_yards (s : State) (m : Msg) : (s.send m).yards = s.yards := rfl
@[simp] theorem State.send_ctxs (s : State) (m : Msg) : (s.send m).ctxs = s.ctxs := rfl
@[simp] theorem State.send_nodes (s : State) (m : Msg) : (s.send m).nodes = s.nodes := rfl
@[simp] theorem State.send_entryGens (s : State) (m : Msg) : (s.send m).entryGens = s.entryGens := rfl
@[simp] theorem State.send_jcAdds (s : State) (m : Msg) : (s.send m).jcAdds = s.jcAdds := rfl
@[simp] theorem State.send_groups (s : State) (m : Msg) : (s.send m).groups = s.groups := rfl
@[simp] theorem State.send_teams (s : State) (m : Msg) : (s.send m).teams = s.teams := rfl
@[simp] theorem State.send_cores (s : State) (m : Msg) : (s.send m).cores = s.cores := rfl
@[simp] theorem State.send_flights (s : State) (m : Msg) : (s.send m).flights = s.flights := rfl
@[simp] theorem State.send_gov (s : State) (m : Msg) : (s.send m).gov = s.gov := rfl
@[simp] theorem State.send_drpthr (s : State) (m : Msg) : (s.send m).drpthr = s.drpthr := rfl
@[simp] theorem State.send_tickets (s : State) (m : Msg) : (s.send m).tickets = s.tickets := rfl
@[simp] theorem State.send_faultQ (s : State) (m : Msg) : (s.send m).faultQ = s.faultQ := rfl
@[simp] theorem State.send_rpcQ (s : State) (m : Msg) : (s.send m).rpcQ = s.rpcQ := rfl
@[simp] theorem State.send_time (s : State) (m : Msg) : (s.send m).time = s.time := rfl
@[simp] theorem State.send_boot (s : State) (m : Msg) : (s.send m).boot = s.boot := rfl
@[simp] theorem State.send_tdis (s : State) (m : Msg) : (s.send m).tdis = s.tdis := rfl
@[simp] theorem State.send_frameOwner (s : State) (m : Msg) : (s.send m).frameOwner = s.frameOwner := rfl
@[simp] theorem State.send_dbg (s : State) (m : Msg) : (s.send m).dbg = s.dbg := rfl
@[simp] theorem State.send_agenda (s : State) (m : Msg) : (s.send m).agenda = s.agenda := rfl
@[simp] theorem State.send_cur (s : State) (m : Msg) : (s.send m).cur = s.cur := rfl
@[simp] theorem State.send_nonce (s : State) (m : Msg) : (s.send m).nonce = s.nonce := rfl
@[simp] theorem State.send_nextId (s : State) (m : Msg) : (s.send m).nextId = s.nextId := rfl

/-! ### The field that an update changes -/

@[simp] theorem State.modTeam_teams (s : State) (id : Nat) (f : Team → Team) :
    (s.modTeam id f).teams = s.teams.map fun t => if t.id = id then f t else t := rfl
@[simp] theorem State.modGroup_groups (s : State) (id : Nat) (f : Group → Group) :
    (s.modGroup id f).groups = s.groups.map fun g => if g.id = id then f g else g := rfl
@[simp] theorem State.modCore_cores (s : State) (id : Nat) (f : Core → Core) :
    (s.modCore id f).cores = s.cores.map fun c => if c.id = id then f c else c := rfl
@[simp] theorem State.modCtx_ctxs (s : State) (asid : Nat) (f : Ctxt → Ctxt) :
    (s.modCtx asid f).ctxs = s.ctxs.map fun c => if c.asid = asid then f c else c := rfl
@[simp] theorem State.modNode_nodes (s : State) (id : Nat) (f : Node → Node) :
    (s.modNode id f).nodes = s.nodes.map fun n => if n.id = id then f n else n := rfl
@[simp] theorem State.modFlight_flights (s : State) (id : Nat) (f : Flight → Flight) :
    (s.modFlight id f).flights = s.flights.map fun x => if x.id = id then f x else x := rfl
@[simp] theorem State.modSplit_teams (s : State) (tid uid : Nat) (f : Split → Split) :
    (s.modSplit tid uid f).teams = s.teams.map fun t => if t.id = tid then t.modSplit uid f else t := rfl
@[simp] theorem State.send_outbox (s : State) (m : Msg) : (s.send m).outbox = s.outbox ++ [m] := rfl
@[simp] theorem State.fresh_fst (s : State) : s.fresh.1 = s.nextId := rfl
@[simp] theorem State.fresh_snd (s : State) : s.fresh.2 = { s with nextId := s.nextId + 1 } := rfl

/-! ### Looking up what was updated -/

theorem find_map_id {α : Type} (p : α → Nat) (k : Nat) (f : α → α) (hf : ∀ x, p (f x) = p x) (l : List α) :
    (l.map fun x => if p x = k then f x else x).find? (fun x => decide (p x = k)) =
      (l.find? fun x => decide (p x = k)).map f := by
  induction l with
  | nil => rfl
  | cons a l ih =>
    by_cases h : p a = k
    · simp [h, hf]
    · simpa [h] using ih

theorem find_map_other {α : Type} (p : α → Nat) (k j : Nat) (f : α → α) (hf : ∀ x, p (f x) = p x) (hj : j ≠ k) (l : List α) :
    (l.map fun x => if p x = k then f x else x).find? (fun x => decide (p x = j)) = l.find? fun x => decide (p x = j) := by
  induction l with
  | nil => rfl
  | cons a l ih =>
    by_cases h : p a = k
    · have ha : p a ≠ j := fun e => hj (e.symm.trans h)
      simpa [h, hf, hj.symm] using ih
    · by_cases ha : p a = j
      · simp [ha, hj]
      · simpa [h, ha] using ih

/-- An update that keeps names changes what its name finds … -/
theorem State.modTeam_find (s : State) (k : Nat) (f : Team → Team) (hf : ∀ x, (f x).id = x.id) :
    (s.modTeam k f).team? k = (s.team? k).map f := find_map_id Team.id k f hf _
/-- … and nothing that another name finds. -/
theorem State.modTeam_find_other (s : State) (k j : Nat) (f : Team → Team) (hf : ∀ x, (f x).id = x.id) (hj : j ≠ k) :
    (s.modTeam k f).team? j = s.team? j := find_map_other Team.id k j f hf hj _
/-- An update that keeps names changes what its name finds … -/
theorem State.modGroup_find (s : State) (k : Nat) (f : Group → Group) (hf : ∀ x, (f x).id = x.id) :
    (s.modGroup k f).group? k = (s.group? k).map f := find_map_id Group.id k f hf _
/-- … and nothing that another name finds. -/
theorem State.modGroup_find_other (s : State) (k j : Nat) (f : Group → Group) (hf : ∀ x, (f x).id = x.id) (hj : j ≠ k) :
    (s.modGroup k f).group? j = s.group? j := find_map_other Group.id k j f hf hj _
/-- An update that keeps names changes what its name finds … -/
theorem State.modCore_find (s : State) (k : Nat) (f : Core → Core) (hf : ∀ x, (f x).id = x.id) :
    (s.modCore k f).core? k = (s.core? k).map f := find_map_id Core.id k f hf _
/-- … and nothing that another name finds. -/
theorem State.modCore_find_other (s : State) (k j : Nat) (f : Core → Core) (hf : ∀ x, (f x).id = x.id) (hj : j ≠ k) :
    (s.modCore k f).core? j = s.core? j := find_map_other Core.id k j f hf hj _
/-- An update that keeps names changes what its name finds … -/
theorem State.modCtx_find (s : State) (k : Nat) (f : Ctxt → Ctxt) (hf : ∀ x, (f x).asid = x.asid) :
    (s.modCtx k f).ctx? k = (s.ctx? k).map f := find_map_id Ctxt.asid k f hf _
/-- … and nothing that another name finds. -/
theorem State.modCtx_find_other (s : State) (k j : Nat) (f : Ctxt → Ctxt) (hf : ∀ x, (f x).asid = x.asid) (hj : j ≠ k) :
    (s.modCtx k f).ctx? j = s.ctx? j := find_map_other Ctxt.asid k j f hf hj _
/-- An update that keeps names changes what its name finds … -/
theorem State.modNode_find (s : State) (k : Nat) (f : Node → Node) (hf : ∀ x, (f x).id = x.id) :
    (s.modNode k f).node? k = (s.node? k).map f := find_map_id Node.id k f hf _
/-- … and nothing that another name finds. -/
theorem State.modNode_find_other (s : State) (k j : Nat) (f : Node → Node) (hf : ∀ x, (f x).id = x.id) (hj : j ≠ k) :
    (s.modNode k f).node? j = s.node? j := find_map_other Node.id k j f hf hj _
/-- An update that keeps names changes what its name finds … -/
theorem State.modFlight_find (s : State) (k : Nat) (f : Flight → Flight) (hf : ∀ x, (f x).id = x.id) :
    (s.modFlight k f).flight? k = (s.flight? k).map f := find_map_id Flight.id k f hf _
/-- … and nothing that another name finds. -/
theorem State.modFlight_find_other (s : State) (k j : Nat) (f : Flight → Flight) (hf : ∀ x, (f x).id = x.id) (hj : j ≠ k) :
    (s.modFlight k f).flight? j = s.flight? j := find_map_other Flight.id k j f hf hj _
@[simp] theorem State.modTeam_group_find (s : State) (id j : Nat) (f : Team → Team) : (s.modTeam id f).group? j = s.group? j := rfl
@[simp] theorem State.modTeam_core_find (s : State) (id j : Nat) (f : Team → Team) : (s.modTeam id f).core? j = s.core? j := rfl
@[simp] theorem State.modTeam_ctx_find (s : State) (id j : Nat) (f : Team → Team) : (s.modTeam id f).ctx? j = s.ctx? j := rfl
@[simp] theorem State.modTeam_node_find (s : State) (id j : Nat) (f : Team → Team) : (s.modTeam id f).node? j = s.node? j := rfl
@[simp] theorem State.modTeam_flight_find (s : State) (id j : Nat) (f : Team → Team) : (s.modTeam id f).flight? j = s.flight? j := rfl
@[simp] theorem State.modGroup_team_find (s : State) (id j : Nat) (f : Group → Group) : (s.modGroup id f).team? j = s.team? j := rfl
@[simp] theorem State.modGroup_core_find (s : State) (id j : Nat) (f : Group → Group) : (s.modGroup id f).core? j = s.core? j := rfl
@[simp] theorem State.modGroup_ctx_find (s : State) (id j : Nat) (f : Group → Group) : (s.modGroup id f).ctx? j = s.ctx? j := rfl
@[simp] theorem State.modGroup_node_find (s : State) (id j : Nat) (f : Group → Group) : (s.modGroup id f).node? j = s.node? j := rfl
@[simp] theorem State.modGroup_flight_find (s : State) (id j : Nat) (f : Group → Group) : (s.modGroup id f).flight? j = s.flight? j := rfl
@[simp] theorem State.modCore_team_find (s : State) (id j : Nat) (f : Core → Core) : (s.modCore id f).team? j = s.team? j := rfl
@[simp] theorem State.modCore_group_find (s : State) (id j : Nat) (f : Core → Core) : (s.modCore id f).group? j = s.group? j := rfl
@[simp] theorem State.modCore_ctx_find (s : State) (id j : Nat) (f : Core → Core) : (s.modCore id f).ctx? j = s.ctx? j := rfl
@[simp] theorem State.modCore_node_find (s : State) (id j : Nat) (f : Core → Core) : (s.modCore id f).node? j = s.node? j := rfl
@[simp] theorem State.modCore_flight_find (s : State) (id j : Nat) (f : Core → Core) : (s.modCore id f).flight? j = s.flight? j := rfl

/-! ### Splits of a team -/

@[simp] theorem Team.modSplit_id (t : Team) (uid : Nat) (f : Split → Split) : (t.modSplit uid f).id = t.id := rfl
@[simp] theorem Team.modSplit_group (t : Team) (uid : Nat) (f : Split → Split) : (t.modSplit uid f).group = t.group := rfl
@[simp] theorem Team.modSplit_v (t : Team) (uid : Nat) (f : Split → Split) : (t.modSplit uid f).v = t.v := rfl
@[simp] theorem Team.modSplit_g (t : Team) (uid : Nat) (f : Split → Split) : (t.modSplit uid f).g = t.g := rfl
@[simp] theorem Team.modSplit_m (t : Team) (uid : Nat) (f : Split → Split) : (t.modSplit uid f).m = t.m := rfl
@[simp] theorem Team.modSplit_b (t : Team) (uid : Nat) (f : Split → Split) : (t.modSplit uid f).b = t.b := rfl
@[simp] theorem Team.modSplit_priv (t : Team) (uid : Nat) (f : Split → Split) : (t.modSplit uid f).priv = t.priv := rfl
@[simp] theorem Team.modSplit_present (t : Team) (uid : Nat) (f : Split → Split) : (t.modSplit uid f).present = t.present := rfl

/-- An update of a split that keeps its name changes what its name finds. -/
theorem Team.modSplit_find (t : Team) (uid : Nat) (f : Split → Split) (hf : ∀ p, (f p).uid = p.uid) :
    (t.modSplit uid f).split? uid = (t.split? uid).map f := by
  have h := find_map_id Split.uid uid f hf (t.handler.toList ++ t.splits ++ t.deferred)
  unfold Team.split? Team.modSplit
  rw [← h]
  cases t.handler <;> simp

end Sys2Proof.Machine
end

