-- ==== Sys2Proof/Laws/Memory.lean ====
section
/-!
SUPPORT. Laws of bytes: what a write leaves to be read in every address space, and that every operation that writes main
memory keeps its canonical form (Memory.wf).
-/
namespace Sys2Proof.Machine

/-- What a fold keeps, when each of its steps does. -/
theorem foldl_keeps {α β γ : Type} (f : α → β → α) (g : α → γ) (h : ∀ a b, g (f a b) = g a) (l : List β) (a : α) :
    g (l.foldl f a) = g a := by
  induction l generalizing a with
  | nil => rfl
  | cons b l ih => rw [List.foldl_cons, ih, h]

/-- What holds after a fold, when each of its steps keeps it. -/
theorem foldl_holds {α β : Type} (f : α → β → α) (P : α → Prop) (h : ∀ a b, P a → P (f a b)) (l : List β) (a : α) (ha : P a) :
    P (l.foldl f a) := by
  induction l generalizing a with
  | nil => exact ha
  | cons b l ih => exact ih _ (h a b ha)

/-! ### Bytes -/

/-- R71: writing touches the poison marks and nothing else before the bytes. -/
theorem State.clearPoison_eq (s : State) (sp : Space) (cs : List (Nat × Byte)) :
    ∃ q, s.clearPoison sp cs = { s with poisoned := q } := by
  unfold State.clearPoison
  split
  · exact ⟨s.poisoned, rfl⟩
  · exact ⟨_, rfl⟩

theorem State.wrCells_glob (s : State) (cs : List (Nat × Byte)) :
    ∃ q, s.wrCells .glob cs = { s with poisoned := q, mem := ssets 0 s.mem cs } := by
  obtain ⟨q, h⟩ := s.clearPoison_eq .glob cs
  exact ⟨q, by simp [State.wrCells, h]⟩
theorem State.wrCells_loft (s : State) (cs : List (Nat × Byte)) :
    ∃ q, s.wrCells .loft cs = { s with poisoned := q, loft := ssets 0 s.loft cs } := by
  obtain ⟨q, h⟩ := s.clearPoison_eq .loft cs
  exact ⟨q, by simp [State.wrCells, h]⟩
theorem State.wrCells_win (s : State) (g : Nat) (cs : List (Nat × Byte)) :
    ∃ q, s.wrCells (.win g) cs = { s with poisoned := q }.modGroup g fun x => { x with win := ssets 0 x.win cs } := by
  obtain ⟨q, h⟩ := s.clearPoison_eq (.win g) cs
  exact ⟨q, by simp [State.wrCells, h]⟩
theorem State.wrCells_priv (s : State) (t : Nat) (cs : List (Nat × Byte)) :
    ∃ q, s.wrCells (.priv t) cs = { s with poisoned := q }.modTeam t fun x => { x with priv := ssets 0 x.priv cs } := by
  obtain ⟨q, h⟩ := s.clearPoison_eq (.priv t) cs
  exact ⟨q, by simp [State.wrCells, h]⟩

theorem State.rdByte_poisoned (s : State) (q : List (Space × Nat)) (sp : Space) (a : Nat) :
    { s with poisoned := q }.rdByte sp a = s.rdByte sp a := by cases sp <;> rfl

/-- The bytes an update of groups leaves, when it keeps names and windows. -/
theorem State.rdByte_modGroup (s : State) (g : Nat) (f : Group → Group) (hi : ∀ x, (f x).id = x.id) (hw : ∀ x, (f x).win = x.win)
    (sp : Space) (a : Nat) : (s.modGroup g f).rdByte sp a = s.rdByte sp a := by
  cases sp with
  | win k =>
    simp only [State.rdByte]
    by_cases h : k = g
    · subst h; rw [State.modGroup_find s k f hi]; cases s.group? k <;> simp [hw]
    · rw [State.modGroup_find_other s g k f hi h]
  | _ => rfl

/-- The bytes an update of teams leaves, when it keeps names and private areas. -/
theorem State.rdByte_modTeam (s : State) (t : Nat) (f : Team → Team) (hi : ∀ x, (f x).id = x.id) (hw : ∀ x, (f x).priv = x.priv)
    (sp : Space) (a : Nat) : (s.modTeam t f).rdByte sp a = s.rdByte sp a := by
  cases sp with
  | priv k =>
    simp only [State.rdByte]
    by_cases h : k = t
    · subst h; rw [State.modTeam_find s k f hi]; cases s.team? k <;> simp [hw]
    · rw [State.modTeam_find_other s t k f hi h]
  | _ => rfl

/-- The bytes of a group's window, and of a team's private area, after an update that keeps names. -/
theorem State.rdByte_modGroup_win (s : State) (g : Nat) (f : Group → Group) (hi : ∀ x, (f x).id = x.id) (a : Nat) :
    (s.modGroup g f).rdByte (.win g) a = match s.group? g with
      | some x => sget 0 (f x).win a
      | none => 0 := by
  simp only [State.rdByte]; rw [State.modGroup_find s g f hi]; cases s.group? g <;> rfl
theorem State.rdByte_modTeam_priv (s : State) (t : Nat) (f : Team → Team) (hi : ∀ x, (f x).id = x.id) (a : Nat) :
    (s.modTeam t f).rdByte (.priv t) a = match s.team? t with
      | some x => sget 0 (f x).priv a
      | none => 0 := by
  simp only [State.rdByte]; rw [State.modTeam_find s t f hi]; cases s.team? t <;> rfl
theorem State.rdByte_modGroup_other (s : State) (g : Nat) (f : Group → Group) (hi : ∀ x, (f x).id = x.id) (sp : Space) (a : Nat)
    (h : sp ≠ .win g) : (s.modGroup g f).rdByte sp a = s.rdByte sp a := by
  cases sp with
  | win k => simp only [State.rdByte]; rw [State.modGroup_find_other s g k f hi (fun e => h (e ▸ rfl))]
  | _ => rfl
theorem State.rdByte_modTeam_other (s : State) (t : Nat) (f : Team → Team) (hi : ∀ x, (f x).id = x.id) (sp : Space) (a : Nat)
    (h : sp ≠ .priv t) : (s.modTeam t f).rdByte sp a = s.rdByte sp a := by
  cases sp with
  | priv k => simp only [State.rdByte]; rw [State.modTeam_find_other s t k f hi (fun e => h (e ▸ rfl))]
  | _ => rfl

/-- A write leaves every other byte of every address space alone. -/
theorem State.rdByte_wrCells_other (s : State) (sp : Space) (cs : List (Nat × Byte)) (sp' : Space) (a : Nat)
    (h : sp' ≠ sp ∨ ∀ c ∈ cs, c.1 ≠ a) : (s.wrCells sp cs).rdByte sp' a = s.rdByte sp' a := by
  have out : ∀ m, (∀ c ∈ cs, c.1 ≠ a) → sget (0 : Byte) (ssets 0 m cs) a = sget 0 m a :=
    fun m hc => sget_ssets_other 0 cs m a hc
  cases sp with
  | glob =>
    obtain ⟨q, e⟩ := s.wrCells_glob cs
    rw [e]
    cases sp' with
    | glob => exact out _ (by simpa using h)
    | _ => rfl
  | loft =>
    obtain ⟨q, e⟩ := s.wrCells_loft cs
    rw [e]
    cases sp' with
    | loft => exact out _ (by simpa using h)
    | _ => rfl
  | win g =>
    obtain ⟨q, e⟩ := s.wrCells_win g cs
    rw [e, ← State.rdByte_poisoned s q sp' a]
    by_cases hk : sp' = .win g
    · subst hk
      refine (State.rdByte_modGroup_win _ g _ ?_ a).trans ?_
      · intro; rfl
      · simp only [State.rdByte]
        cases ({ s with poisoned := q } : State).group? g with
        | none => rfl
        | some x => exact out _ (by simpa using h)
    · refine State.rdByte_modGroup_other _ g _ ?_ sp' a hk
      intro; rfl
  | priv t =>
    obtain ⟨q, e⟩ := s.wrCells_priv t cs
    rw [e, ← State.rdByte_poisoned s q sp' a]
    by_cases hk : sp' = .priv t
    · subst hk
      refine (State.rdByte_modTeam_priv _ t _ ?_ a).trans ?_
      · intro; rfl
      · simp only [State.rdByte]
        cases ({ s with poisoned := q } : State).team? t with
        | none => rfl
        | some x => exact out _ (by simpa using h)
    · refine State.rdByte_modTeam_other _ t _ ?_ sp' a hk
      intro; rfl

/-- A byte of main memory that a write names once reads as written. -/
theorem State.rdByte_wrCells_glob (s : State) (cs : List (Nat × Byte)) (c : Nat × Byte) (hc : c ∈ cs)
    (hn : (cs.map (·.1)).Nodup) : (s.wrCells .glob cs).rdByte .glob c.1 = c.2 := by
  obtain ⟨q, e⟩ := s.wrCells_glob cs
  rw [e]; exact sget_ssets_mem 0 cs s.mem c hc hn

/-- R4: the addresses of an n-byte value are different, and are [a, a + n). -/
theorem cellsOf_nodup (a n x : Nat) : ((cellsOf a n x).map (·.1)).Nodup := by
  have : (cellsOf a n x).map (·.1) = (List.range n).map (a + ·) := by simp [cellsOf, List.map_map]
  rw [this]
  exact List.Nodup.map (fun _ _ h => Nat.add_left_cancel h) List.nodup_range
theorem cellsOf_mem (a n x : Nat) (c : Nat × Byte) (h : c ∈ cellsOf a n x) : a ≤ c.1 ∧ c.1 < a + n := by
  simp only [cellsOf, List.mem_map, List.mem_range] at h
  obtain ⟨i, hi, rfl⟩ := h
  exact ⟨Nat.le_add_right _ _, Nat.add_lt_add_left hi _⟩

/-! ### The canonical form of main memory -/

theorem Memory.wf_reset : Memory.wf State.reset.mem = true := rfl

theorem State.wrCells_wf (s : State) (sp : Space) (cs : List (Nat × Byte)) (h : Memory.wf s.mem = true) :
    Memory.wf (s.wrCells sp cs).mem = true := by
  cases sp with
  | glob => obtain ⟨q, e⟩ := s.wrCells_glob cs; rw [e]; exact swf_ssets 0 cs s.mem h
  | loft => obtain ⟨q, e⟩ := s.wrCells_loft cs; rw [e]; exact h
  | win g => obtain ⟨q, e⟩ := s.wrCells_win g cs; rw [e]; exact h
  | priv t => obtain ⟨q, e⟩ := s.wrCells_priv t cs; rw [e]; exact h

@[simp] theorem State.fireLine_mem (s : State) (line : Nat) : (s.fireLine line).mem = s.mem := by
  unfold State.fireLine
  split
  · dsimp only
    refine (foldl_keeps _ State.mem ?_ _ _).trans rfl
    intros; rfl
  · rfl

@[simp] theorem State.fireLocal_mem (s : State) (core : Option Nat) (line : Nat) : (s.fireLocal core line).mem = s.mem := by
  unfold State.fireLocal
  dsimp only
  generalize (s.monRegs.filter _) = hit
  by_cases h : hit = []
  · rw [if_pos h]
  · rw [if_neg h]
    refine (foldl_keeps _ State.mem ?_ _ _).trans rfl
    intros; rfl

@[simp] theorem State.endFlight_mem (s : State) (f : Flight) : (s.endFlight f).mem = s.mem := by
  unfold State.endFlight
  cases f.dst <;> rfl

@[simp] theorem State.abandonFlight_mem (s : State) (fid : Nat) : (s.abandonFlight fid).mem = s.mem := by
  unfold State.abandonFlight
  split
  · rfl
  · dsimp only
    split
    · rw [State.endFlight_mem]; rfl
    · rfl

@[simp] theorem State.discardFence_mem (s : State) (tid uid : Nat) : (s.discardFence tid uid).mem = s.mem := by
  unfold State.discardFence
  split
  · rfl
  · split
    · rfl
    · dsimp only
      split
      · rfl
      · rw [State.modSplit_mem]
        split
        · rw [State.abandonFlight_mem]
        · rfl

@[simp] theorem State.conflict_mem (s : State) (sp : Space) (line : Nat) (w : Agent) (core : Option Nat) :
    (s.conflict sp line w core).mem = s.mem := by
  unfold State.conflict
  exact foldl_keeps _ State.mem (fun _ _ => State.discardFence_mem ..) _ _

@[simp] theorem State.bankAsk_mem (s : State) (line : Nat) (ks : List Nat) (w : Bool) : (s.bankAsk line ks w).1.mem = s.mem := by
  unfold State.bankAsk
  split
  · rfl
  · simp only
    split
    · rfl
    · split <;> rfl
@[simp] theorem State.slcPut_mem (s : State) (x : SlcLine) : (s.slcPut x).mem = s.mem := rfl
@[simp] theorem State.slcMark_mem (s : State) (line : Nat) (ks : List Nat) : (s.slcMark line ks).mem = s.mem := by
  unfold State.slcMark
  split
  · rfl
  · exact s.bankAsk_mem ..

theorem State.slcWrite_wf (s : State) (cs : List (Nat × Byte)) (h : Memory.wf s.mem = true) :
    Memory.wf (s.slcWrite cs).mem = true := by
  unfold State.slcWrite
  simp only
  rw [foldl_keeps _ State.mem fun _ _ => State.fireLine_mem ..]
  simp only
  rw [foldl_keeps _ State.mem fun _ _ => State.slcMark_mem ..]
  exact s.wrCells_wf .glob cs h

theorem State.localWrite_wf (s : State) (sp : Space) (cs : List (Nat × Byte)) (w : Agent) (h : Memory.wf s.mem = true) :
    Memory.wf (s.localWrite sp cs w).mem = true := by
  unfold State.localWrite
  simp only
  rw [foldl_keeps _ State.mem fun _ _ => State.conflict_mem ..]
  exact s.wrCells_wf sp cs h

theorem State.slcSectorWrite_wf (s : State) (line k data : Nat) (poison : Bool) (h : Memory.wf s.mem = true) :
    Memory.wf (s.slcSectorWrite line k data poison).mem = true := by
  unfold State.slcSectorWrite
  simp only
  split
  · exact s.slcWrite_wf _ h
  · exact s.slcWrite_wf _ h

@[simp] theorem State.traceRecord_mem (s : State) (tid uid : Nat) (ws : List Nat) : (s.traceRecord tid uid ws).mem = s.mem := by
  unfold State.traceRecord; split <;> rfl
theorem State.ringWrite_wf (s : State) (ws : List Nat) (h : Memory.wf s.mem = true) : Memory.wf (s.ringWrite ws).mem = true := by
  unfold State.ringWrite
  simp only
  split
  · exact h
  · split
    · exact h
    · exact s.slcWrite_wf _ h

@[simp] theorem State.putL1_mem (s : State) (core : Nat) (x : CacheLine) : (s.putL1 core x).mem = s.mem := rfl

@[simp] theorem State.missed_mem (s : State) (sp : Space) (line : Nat) (w : Agent) : (s.missed sp line w).mem = s.mem := by
  unfold State.missed; split <;> rfl
@[simp] theorem State.redo_mem (s : State) (q : Flight) : (s.redo q).mem = s.mem := by
  unfold State.redo; split <;> rfl
@[simp] theorem State.acquired_mem (s : State) (core group team scope : Nat) (me : Agent) : (s.acquired core group team scope me).mem = s.mem := by
  unfold State.acquired; split <;> rfl
@[simp] theorem State.noticeWrite_mem (s : State) (p : Place) (line : Nat) (w : Agent) : (s.noticeWrite p line w).mem = s.mem := by
  unfold State.noticeWrite
  cases p with
  | slc core => cases core <;> simp
  | l1 c => simp
  | l2 => simp
  | space sp => simp

theorem State.placeWr_wf (s : State) (p : Place) (line off n x : Nat) (w : Agent) (h : Memory.wf s.mem = true) :
    Memory.wf (s.placeWr p line off n x w).mem = true := by
  unfold State.placeWr
  have h' : Memory.wf (s.noticeWrite p line w).mem = true := by rw [State.noticeWrite_mem]; exact h
  generalize s.noticeWrite p line w = s at h'
  cases p with
  | slc core =>
    dsimp only
    have hs := s.slcWrite_wf (cellsOf (line * 64 + off) n x) h'
    cases core with
    | none => exact hs
    | some c =>
      dsimp only
      split
      · split
        · rw [State.putL1_mem]; exact hs
        · exact hs
      · exact hs
  | l1 c => dsimp only; split <;> simp [h']
  | l2 => dsimp only; split <;> simp [h']
  | space sp => exact s.localWrite_wf sp _ w h'

theorem State.zeroFrame_wf (s : State) (f : Nat) (h : Memory.wf s.mem = true) : Memory.wf (s.zeroFrame f).mem = true := by
  have e : ((List.range 64).foldl (fun s i => (s.bankAsk (f * 64 + i) [0, 1, 2, 3] true).1) s).mem = s.mem :=
    foldl_keeps _ State.mem (fun s i => State.bankAsk_mem ..) _ _
  exact swf_sdrop 0 _ _ _ (e ▸ h)

end Sys2Proof.Machine
end

