-- ==== Sys2Proof/Laws/Issue.lean ====
section
/-!
SUPPORT. Laws of issuing: what a ready instruction's gate answers, how an instruction's effect ends a step, and what
passing cycles and charging leave alone.
-/
namespace Sys2Proof.Machine

/-- A ready instruction issues, in the state and with the context that Safety names. -/
theorem gate_ready (i : Instr) (s : State) (t : Team) (p : Split) (g : Group) (h : Ready i s t p g) :
    gate i s = .go (issueState i s t p) (issueCtx i s t p g) := by
  obtain ⟨⟨hcur, ht, hp, hg, hi, hz, hl, hb⟩, he, hh, ho, hw, hf, hr, hx, hq⟩ := h
  have hl' : (p.landCheck && !landsHere i) = false := by rcases hl with hl | hl <;> simp [hl]
  have hh' : (t.handler.isSome && forbiddenInHandler i) = false := by rcases hh with hh | hh <;> simp [hh]
  have ho' : (isMarked i && t.owes p.uid) = false := by rcases ho with ho | ho <;> simp [ho]
  have hf' : (p.fence.isSome && parksAtFence i) = false := by rcases hf with hf | hf <;> simp [hf]
  have hr' : (heldByGrid i && (s.gridder t.core t.quad).isSome) = false := by rcases hr with hr | hr <;> simp [hr]
  have hx' : (if (p.modeHchk && !isMarked i) = true then (issueCtx i s t p g).hazard s t else none) = none := by
    rcases hx with hx | hx | hx <;> simp [hx]
  unfold gate
  rw [hcur]
  simp only [ht, hp, hg]
  unfold gateOf
  have e : mkCtx i (issueTeam i s t p) p g s.nonce = issueCtx i s t p g := rfl
  simp only [e, hi, hz, hb, he, hq, hl', hh', ho', hw, hf', hr', hx', Bool.not_true, Bool.false_eq_true, if_false]
  rfl

/-- A ready instruction ends as its own effect says. -/
theorem issue_ready (i : Instr) (s : State) (t : Team) (p : Split) (g : Group) (body : State → Ctx → Res) (h : Ready i s t p g) :
    issue i s body = .next (finish s (issueCtx i s t p g) (body (issueState i s t p) (issueCtx i s t p g))) := by
  unfold issue; rw [gate_ready i s t p g h]

/-- What an issued instruction can answer: a next state, or the one fault, where no split issues. -/
theorem issue_cases (i : Instr) (s : State) (body : State → Ctx → Res) :
    (gate i s = .noIssuer ∧ issue i s body = .fault .noIssuer) ∨ ∃ u, issue i s body = .next u := by
  unfold issue
  split
  · exact .inl ⟨‹_›, rfl⟩
  · exact .inr ⟨_, rfl⟩
  · exact .inr ⟨_, rfl⟩
  · exact .inr ⟨_, rfl⟩

theorem issue_ne_refused (i : Instr) (s : State) (body : State → Ctx → Res) (r : Refusal) : issue i s body ≠ .refused r := by
  rcases issue_cases i s body with ⟨_, h⟩ | ⟨u, h⟩ <;> rw [h] <;> simp

/-- The gate finds no issuer only where the issuing split, its team or its group is missing. -/
theorem gate_issuer (i : Instr) (s : State) (t : Team) (p : Split) (g : Group) (hc : s.cur = some (t.id, p.uid))
    (ht : s.team? t.id = some t) (hp : t.split? p.uid = some p) (hg : s.group? t.group = some g) : gate i s ≠ .noIssuer := by
  unfold gate
  rw [hc]
  simp only [ht, hp, hg]
  unfold gateOf
  simp only
  repeat' split
  all_goals simp

theorem finish_done (s : State) (c : Ctx) (t : State) : finish s c (.done t) = (t.advance c).account c := rfl
theorem finish_jump (s : State) (c : Ctx) (t : State) : finish s c (.jump t) = t.account c := rfl
theorem finish_hold (s : State) (c : Ctx) (t : State) :
    finish s c (.hold t) = t.modSplit c.tid c.uid fun p => { p with exempt := c.sp.exempt } := rfl

/-! ### Passing cycles -/

@[simp] theorem Team.tick_id (t : Team) (b : Bool) : (t.tick b).id = t.id := by unfold Team.tick; split <;> rfl
@[simp] theorem Team.tick_raw (t : Team) (b : Bool) (f : RFile) (r l : Nat) : (t.tick b).raw f r l = t.raw f r l := by
  unfold Team.tick; split
  · cases f <;> rfl
  · rfl
@[simp] theorem Team.tick_priv (t : Team) (b : Bool) : (t.tick b).priv = t.priv := by unfold Team.tick; split <;> rfl
@[simp] theorem Team.unlost_id (t : Team) (l : List Nat) : (t.unlost l).id = t.id := by unfold Team.unlost; simp only; split <;> rfl
@[simp] theorem Team.unlost_raw (t : Team) (l : List Nat) (f : RFile) (r k : Nat) : (t.unlost l).raw f r k = t.raw f r k := by
  unfold Team.unlost; simp only; split
  · rfl
  · cases f <;> rfl
@[simp] theorem Team.unlost_priv (t : Team) (l : List Nat) : (t.unlost l).priv = t.priv := by unfold Team.unlost; simp only; split <;> rfl

/-- Looking a team up after an update of every team that keeps names. -/
theorem find_map_team (l : List Team) (f : Team → Team) (hf : ∀ x, (f x).id = x.id) (k : Nat) :
    (l.map f).find? (fun t => decide (t.id = k)) = (l.find? fun t => decide (t.id = k)).map f := by
  rw [List.find?_map]
  congr 1
  congr 1
  funext x
  simp [hf]

/-- A cycle of a core changes no name, no register and no private byte of a team. -/
theorem State.cycleOn_team (s : State) (core k : Nat) :
    ∃ f : Team → Team, (∀ t, (f t).id = t.id ∧ (f t).priv = t.priv ∧ ∀ x r l, (f t).raw x r l = t.raw x r l) ∧
      (s.cycleOn core).team? k = (s.team? k).map f := by
  unfold State.cycleOn State.team?
  refine ⟨_, ?_, find_map_team _ _ ?_ k⟩
  · intro t
    split <;> simp
  · intro t
    split <;> simp

theorem State.cycleOn_reg (s : State) (core k : Nat) (f : RFile) (r l : Nat) : (s.cycleOn core).reg k f r l = s.reg k f r l := by
  obtain ⟨h, hh, e⟩ := s.cycleOn_team core k
  unfold State.reg
  rw [e]
  cases s.team? k with
  | none => rfl
  | some t => exact (hh t).2.2 f r l

theorem State.cycleOn_rdByte (s : State) (core : Nat) (sp : Space) (a : Nat) : (s.cycleOn core).rdByte sp a = s.rdByte sp a := by
  cases sp with
  | priv k =>
    obtain ⟨h, hh, e⟩ := s.cycleOn_team core k
    simp only [State.rdByte]
    rw [e]
    cases s.team? k with
    | none => rfl
    | some t => simp only [Option.map, (hh t).2.1]
  | _ => rfl

theorem State.passCycles_reg (s : State) (core n k : Nat) (f : RFile) (r l : Nat) :
    (s.passCycles core n).reg k f r l = s.reg k f r l := by
  induction n generalizing s with
  | zero => rfl
  | succ n ih => rw [State.passCycles, ih, State.cycleOn_reg]

theorem State.passCycles_rdByte (s : State) (core n : Nat) (sp : Space) (a : Nat) :
    (s.passCycles core n).rdByte sp a = s.rdByte sp a := by
  induction n generalizing s with
  | zero => rfl
  | succ n ih => rw [State.passCycles, ih, State.cycleOn_rdByte]

/-! ### Booking passes -/

/-- An instruction's passes change of the teams only which slot has issued last in the cycle, and no byte. -/
theorem State.account_team (s : State) (c : Ctx) (k : Nat) :
    (s.account c).team? k = (s.team? k).map fun t =>
      if k = c.tid ∧ c.sp.st ≠ .blocked then { t with lastSlot := some c.sp.slot } else t := by
  unfold State.account State.book
  by_cases hb : c.sp.st = .blocked
  · simp [hb]
  · simp only [hb, if_false, ne_eq, not_false_eq_true, and_true]
    by_cases hk : k = c.tid
    · subst hk
      rw [State.modTeam_find _ _ (fun t : Team => { t with lastSlot := some c.sp.slot }) fun _ => rfl]
      simp only [if_true]; rfl
    · rw [State.modTeam_find_other _ _ k (fun t : Team => { t with lastSlot := some c.sp.slot }) (fun _ => rfl) hk]
      simp only [hk, if_false, Option.map_id']; rfl
@[simp] theorem State.account_mem (s : State) (c : Ctx) : (s.account c).mem = s.mem := by
  unfold State.account State.book; split <;> rfl
@[simp] theorem State.account_flights (s : State) (c : Ctx) : (s.account c).flights = s.flights := by
  unfold State.account State.book; split <;> rfl
@[simp] theorem State.account_groups (s : State) (c : Ctx) : (s.account c).groups = s.groups := by
  unfold State.account State.book; split <;> rfl
@[simp] theorem State.account_nextId (s : State) (c : Ctx) : (s.account c).nextId = s.nextId := by
  unfold State.account State.book; split <;> rfl

theorem State.account_reg (s : State) (c : Ctx) (k : Nat) (f : RFile) (r l : Nat) : (s.account c).reg k f r l = s.reg k f r l := by
  unfold State.reg
  rw [State.account_team]
  cases s.team? k with
  | none => rfl
  | some t => simp only [Option.map]; split <;> rfl
theorem State.account_rdByte (s : State) (c : Ctx) (sp : Space) (a : Nat) : (s.account c).rdByte sp a = s.rdByte sp a := by
  unfold State.account State.book; split
  · rfl
  · rw [State.rdByte_modTeam _ _ (fun t : Team => { t with lastSlot := some c.sp.slot }) (fun _ => rfl) fun _ => rfl]
    cases sp <;> rfl

/-! ### Going on behind an instruction -/

@[simp] theorem State.modSplit_reg (s : State) (tid uid : Nat) (f : Split → Split) (k : Nat) (x : RFile) (r l : Nat) :
    (s.modSplit tid uid f).reg k x r l = s.reg k x r l := by
  unfold State.reg State.modSplit
  by_cases h : k = tid
  · subst h
    rw [State.modTeam_find s k (fun t => t.modSplit uid f) fun _ => rfl]
    cases s.team? k with
    | none => rfl
    | some t => cases x <;> rfl
  · rw [State.modTeam_find_other s tid k (fun t => t.modSplit uid f) (fun _ => rfl) h]

@[simp] theorem State.modSplit_rdByte (s : State) (tid uid : Nat) (f : Split → Split) (sp : Space) (a : Nat) :
    (s.modSplit tid uid f).rdByte sp a = s.rdByte sp a :=
  s.rdByte_modTeam tid (fun t => t.modSplit uid f) (fun _ => rfl) (fun _ => rfl) sp a

@[simp] theorem State.advance_reg (s : State) (c : Ctx) (k : Nat) (x : RFile) (r l : Nat) :
    (s.advance c).reg k x r l = s.reg k x r l := s.modSplit_reg ..
@[simp] theorem State.advance_rdByte (s : State) (c : Ctx) (sp : Space) (a : Nat) :
    (s.advance c).rdByte sp a = s.rdByte sp a := s.modSplit_rdByte ..

/-- An instruction that completes leaves the registers and bytes its own effect left. -/
theorem finish_done_reg (s : State) (c : Ctx) (t : State) (k : Nat) (f : RFile) (r l : Nat) :
    (finish s c (.done t)).reg k f r l = t.reg k f r l := by rw [finish_done, State.account_reg, State.advance_reg]
theorem finish_done_rdByte (s : State) (c : Ctx) (t : State) (sp : Space) (a : Nat) :
    (finish s c (.done t)).rdByte sp a = t.rdByte sp a := by rw [finish_done, State.account_rdByte, State.advance_rdByte]

end Sys2Proof.Machine
end

