-- ==== Sys2Proof/Laws/PerInstr.lean ====
section
/-!
SUPPORT. Statements made for every instruction, one lemma per constructor. R38, R39: the words of an instruction are at
most two, the second being the one that an EXT prefix extends; an event of the device has none.
-/
namespace Sys2Proof

/-- A word with or without its EXT prefix. -/
theorem withExt_length (e : Option ExtWord) (w : Word) : (withExt e w).length ≤ 2 := by cases e <;> simp [withExt]
/-- An instruction without an EXT form has a number of words that its constructor fixes. -/
theorem words_le_two {i : Instr} {n : Nat} (h : (encode i).length = n) (hn : n ≤ 2) : (encode i).length ≤ 2 := h ▸ hn

end Sys2Proof

namespace Sys2Proof.Laws.EncodedWords

/-- R39: an instruction has at most two words. -/
def Statement (i : Instr) : Prop := (encode i).length ≤ 2


theorem nop (o : FN) : Statement (.nop o) := words_le_two (n := 1) rfl (Nat.le_succ 1)
theorem add (o : FR) : Statement (.add o) := words_le_two (n := 1) rfl (Nat.le_succ 1)
theorem sub (o : FR) : Statement (.sub o) := words_le_two (n := 1) rfl (Nat.le_succ 1)
theorem mul (o : FR) : Statement (.mul o) := words_le_two (n := 1) rfl (Nat.le_succ 1)
theorem mulh (o : FR) : Statement (.mulh o) := words_le_two (n := 1) rfl (Nat.le_succ 1)
theorem mad (o : FR) : Statement (.mad o) := words_le_two (n := 1) rfl (Nat.le_succ 1)
theorem min (o : FR) : Statement (.min o) := words_le_two (n := 1) rfl (Nat.le_succ 1)
theorem max (o : FR) : Statement (.max o) := words_le_two (n := 1) rfl (Nat.le_succ 1)
theorem absd (o : FR) : Statement (.absd o) := words_le_two (n := 1) rfl (Nat.le_succ 1)
theorem and (o : FR) : Statement (.and o) := words_le_two (n := 1) rfl (Nat.le_succ 1)
theorem or (o : FR) : Statement (.or o) := words_le_two (n := 1) rfl (Nat.le_succ 1)
theorem xor (o : FR) : Statement (.xor o) := words_le_two (n := 1) rfl (Nat.le_succ 1)
theorem andn (o : FR) : Statement (.andn o) := words_le_two (n := 1) rfl (Nat.le_succ 1)
theorem shl (o : FR) : Statement (.shl o) := words_le_two (n := 1) rfl (Nat.le_succ 1)
theorem shr (o : FR) : Statement (.shr o) := words_le_two (n := 1) rfl (Nat.le_succ 1)
theorem sar (o : FR) : Statement (.sar o) := words_le_two (n := 1) rfl (Nat.le_succ 1)
theorem rot (o : FR) : Statement (.rot o) := words_le_two (n := 1) rfl (Nat.le_succ 1)
theorem bfx (o : FR) : Statement (.bfx o) := words_le_two (n := 1) rfl (Nat.le_succ 1)
theorem bfi (o : FR) : Statement (.bfi o) := words_le_two (n := 1) rfl (Nat.le_succ 1)
theorem popc (o : FF) : Statement (.popc o) := words_le_two (n := 1) rfl (Nat.le_succ 1)
theorem clz (o : FF) : Statement (.clz o) := words_le_two (n := 1) rfl (Nat.le_succ 1)
theorem ctz (o : FF) : Statement (.ctz o) := words_le_two (n := 1) rfl (Nat.le_succ 1)
theorem brev (o : FF) : Statement (.brev o) := words_le_two (n := 1) rfl (Nat.le_succ 1)
theorem not (o : FF) : Statement (.not o) := words_le_two (n := 1) rfl (Nat.le_succ 1)
theorem neg (o : FF) : Statement (.neg o) := words_le_two (n := 1) rfl (Nat.le_succ 1)
theorem iabs (o : FF) : Statement (.iabs o) := words_le_two (n := 1) rfl (Nat.le_succ 1)
theorem sext8 (o : FF) : Statement (.sext8 o) := words_le_two (n := 1) rfl (Nat.le_succ 1)
theorem sext16 (o : FF) : Statement (.sext16 o) := words_le_two (n := 1) rfl (Nat.le_succ 1)
theorem zext8 (o : FF) : Statement (.zext8 o) := words_le_two (n := 1) rfl (Nat.le_succ 1)
theorem zext16 (o : FF) : Statement (.zext16 o) := words_le_two (n := 1) rfl (Nat.le_succ 1)
theorem addi (o : FI) : Statement (.addi o) := withExt_length _ _
theorem muli (o : FI) : Statement (.muli o) := withExt_length _ _
theorem andi (o : FI) : Statement (.andi o) := withExt_length _ _
theorem ori (o : FI) : Statement (.ori o) := withExt_length _ _
theorem xori (o : FI) : Statement (.xori o) := withExt_length _ _
theorem shli (o : FI) : Statement (.shli o) := withExt_length _ _
theorem shri (o : FI) : Statement (.shri o) := withExt_length _ _
theorem sari (o : FI) : Statement (.sari o) := withExt_length _ _
theorem movk (o : FK) : Statement (.movk o) := withExt_length _ _
theorem movkh (o : FK) : Statement (.movkh o) := withExt_length _ _
theorem mov (o : FR) : Statement (.mov o) := words_le_two (n := 1) rfl (Nat.le_succ 1)
theorem movf (o : FR) : Statement (.movf o) := words_le_two (n := 1) rfl (Nat.le_succ 1)
theorem ceq (o : FR) : Statement (.ceq o) := words_le_two (n := 1) rfl (Nat.le_succ 1)
theorem cne (o : FR) : Statement (.cne o) := words_le_two (n := 1) rfl (Nat.le_succ 1)
theorem clt (o : FR) : Statement (.clt o) := words_le_two (n := 1) rfl (Nat.le_succ 1)
theorem cle (o : FR) : Statement (.cle o) := words_le_two (n := 1) rfl (Nat.le_succ 1)
theorem cun (o : FR) : Statement (.cun o) := words_le_two (n := 1) rfl (Nat.le_succ 1)
theorem ceqi (o : FI) : Statement (.ceqi o) := withExt_length _ _
theorem clti (o : FI) : Statement (.clti o) := withExt_length _ _
theorem clei (o : FI) : Statement (.clei o) := withExt_length _ _
theorem fadd (o : FR) : Statement (.fadd o) := words_le_two (n := 1) rfl (Nat.le_succ 1)
theorem fsub (o : FR) : Statement (.fsub o) := words_le_two (n := 1) rfl (Nat.le_succ 1)
theorem fmul (o : FR) : Statement (.fmul o) := words_le_two (n := 1) rfl (Nat.le_succ 1)
theorem fma (o : FR) : Statement (.fma o) := words_le_two (n := 1) rfl (Nat.le_succ 1)
theorem fnma (o : FR) : Statement (.fnma o) := words_le_two (n := 1) rfl (Nat.le_succ 1)
theorem fmin (o : FR) : Statement (.fmin o) := words_le_two (n := 1) rfl (Nat.le_succ 1)
theorem fmax (o : FR) : Statement (.fmax o) := words_le_two (n := 1) rfl (Nat.le_succ 1)
theorem frcp (o : FF) : Statement (.frcp o) := words_le_two (n := 1) rfl (Nat.le_succ 1)
theorem frsq (o : FF) : Statement (.frsq o) := words_le_two (n := 1) rfl (Nat.le_succ 1)
theorem fsqrt (o : FF) : Statement (.fsqrt o) := words_le_two (n := 1) rfl (Nat.le_succ 1)
theorem fexp2 (o : FF) : Statement (.fexp2 o) := words_le_two (n := 1) rfl (Nat.le_succ 1)
theorem flog2 (o : FF) : Statement (.flog2 o) := words_le_two (n := 1) rfl (Nat.le_succ 1)
theorem fsinpi (o : FF) : Statement (.fsinpi o) := words_le_two (n := 1) rfl (Nat.le_succ 1)
theorem fcospi (o : FF) : Statement (.fcospi o) := words_le_two (n := 1) rfl (Nat.le_succ 1)
theorem ftanh (o : FF) : Statement (.ftanh o) := words_le_two (n := 1) rfl (Nat.le_succ 1)
theorem ffloor (o : FF) : Statement (.ffloor o) := words_le_two (n := 1) rfl (Nat.le_succ 1)
theorem fceil (o : FF) : Statement (.fceil o) := words_le_two (n := 1) rfl (Nat.le_succ 1)
theorem ftrunc (o : FF) : Statement (.ftrunc o) := words_le_two (n := 1) rfl (Nat.le_succ 1)
theorem frint (o : FF) : Statement (.frint o) := words_le_two (n := 1) rfl (Nat.le_succ 1)
theorem fabs (o : FF) : Statement (.fabs o) := words_le_two (n := 1) rfl (Nat.le_succ 1)
theorem fneg (o : FF) : Statement (.fneg o) := words_le_two (n := 1) rfl (Nat.le_succ 1)
theorem fclass (o : FF) : Statement (.fclass o) := words_le_two (n := 1) rfl (Nat.le_succ 1)
theorem fdot2 (o : FR) : Statement (.fdot2 o) := words_le_two (n := 1) rfl (Nat.le_succ 1)
theorem idot4 (o : FR) : Statement (.idot4 o) := words_le_two (n := 1) rfl (Nat.le_succ 1)
theorem fscale (o : FR) : Statement (.fscale o) := words_le_two (n := 1) rfl (Nat.le_succ 1)
theorem cvt (o : FI) : Statement (.cvt o) := withExt_length _ _
theorem pack (o : FR) : Statement (.pack o) := words_le_two (n := 1) rfl (Nat.le_succ 1)
theorem unpk (o : FI) : Statement (.unpk o) := withExt_length _ _
theorem mxscl (o : FR) : Statement (.mxscl o) := words_le_two (n := 1) rfl (Nat.le_succ 1)
theorem shfl (o : FR) : Statement (.shfl o) := words_le_two (n := 1) rfl (Nat.le_succ 1)
theorem shflx (o : FR) : Statement (.shflx o) := words_le_two (n := 1) rfl (Nat.le_succ 1)
theorem perm (o : FR) : Statement (.perm o) := words_le_two (n := 1) rfl (Nat.le_succ 1)
theorem voteAny (o : FIF) : Statement (.voteAny o) := withExt_length _ _
theorem voteAll (o : FIF) : Statement (.voteAll o) := withExt_length _ _
theorem voteBallot (o : FIF) : Statement (.voteBallot o) := withExt_length _ _
theorem tred (o : FI) : Statement (.tred o) := withExt_length _ _
theorem tscan (o : FI) : Statement (.tscan o) := withExt_length _ _
theorem wid (o : FI) : Statement (.wid o) := withExt_length _ _
theorem setmode (o : FK) : Statement (.setmode o) := withExt_length _ _
theorem mand (o : FR) : Statement (.mand o) := words_le_two (n := 1) rfl (Nat.le_succ 1)
theorem mor (o : FR) : Statement (.mor o) := words_le_two (n := 1) rfl (Nat.le_succ 1)
theorem mxor (o : FR) : Statement (.mxor o) := words_le_two (n := 1) rfl (Nat.le_succ 1)
theorem mandn (o : FR) : Statement (.mandn o) := words_le_two (n := 1) rfl (Nat.le_succ 1)
theorem mcnt (o : FR) : Statement (.mcnt o) := words_le_two (n := 1) rfl (Nat.le_succ 1)
theorem mfind (o : FR) : Statement (.mfind o) := words_le_two (n := 1) rfl (Nat.le_succ 1)
theorem mget (o : FR) : Statement (.mget o) := words_le_two (n := 1) rfl (Nat.le_succ 1)
theorem mset (o : FR) : Statement (.mset o) := words_le_two (n := 1) rfl (Nat.le_succ 1)
theorem mexec (o : FR) : Statement (.mexec o) := words_le_two (n := 1) rfl (Nat.le_succ 1)
theorem msts (o : FL) : Statement (.msts o) := words_le_two (n := 1) rfl (Nat.le_succ 1)
theorem mlds (o : FL) : Statement (.mlds o) := words_le_two (n := 1) rfl (Nat.le_succ 1)
theorem setmodeh (o : FK) : Statement (.setmodeh o) := withExt_length _ _
theorem mloop (o : FR) : Statement (.mloop o) := words_le_two (n := 1) rfl (Nat.le_succ 1)
theorem mxv (o : FR) : Statement (.mxv o) := words_le_two (n := 1) rfl (Nat.le_succ 1)
theorem trace (o : FR) : Statement (.trace o) := words_le_two (n := 1) rfl (Nat.le_succ 1)
theorem rbox (o : FR) : Statement (.rbox o) := words_le_two (n := 1) rfl (Nat.le_succ 1)
theorem bra (o : FJ) : Statement (.bra o) := words_le_two (n := 1) rfl (Nat.le_succ 1)
theorem brnz (o : FJC) : Statement (.brnz o) := words_le_two (n := 1) rfl (Nat.le_succ 1)
theorem brz (o : FJC) : Statement (.brz o) := words_le_two (n := 1) rfl (Nat.le_succ 1)
theorem brany (o : FJM) : Statement (.brany o) := words_le_two (n := 1) rfl (Nat.le_succ 1)
theorem brnone (o : FJM) : Statement (.brnone o) := words_le_two (n := 1) rfl (Nat.le_succ 1)
theorem jset (o : FJ) : Statement (.jset o) := words_le_two (n := 1) rfl (Nat.le_succ 1)
theorem brm (o : FJM) : Statement (.brm o) := words_le_two (n := 1) rfl (Nat.le_succ 1)
theorem jmpi (o : FR) : Statement (.jmpi o) := words_le_two (n := 1) rfl (Nat.le_succ 1)
theorem join (o : FN) : Statement (.join o) := words_le_two (n := 1) rfl (Nat.le_succ 1)
theorem call (o : FJ) : Statement (.call o) := words_le_two (n := 1) rfl (Nat.le_succ 1)
theorem calli (o : FR) : Statement (.calli o) := words_le_two (n := 1) rfl (Nat.le_succ 1)
theorem ret (o : FN) : Statement (.ret o) := words_le_two (n := 1) rfl (Nat.le_succ 1)
theorem land (o : FN) : Statement (.land o) := words_le_two (n := 1) rfl (Nat.le_succ 1)
theorem exit (o : FN) : Statement (.exit o) := words_le_two (n := 1) rfl (Nat.le_succ 1)
theorem bar (o : FI) : Statement (.bar o) := withExt_length _ _
theorem yield (o : FN) : Statement (.yield o) := words_le_two (n := 1) rfl (Nat.le_succ 1)
theorem ld (o : FMem) : Statement (.ld o) := words_le_two (n := 1) rfl (Nat.le_succ 1)
theorem st (o : FMem) : Statement (.st o) := words_le_two (n := 1) rfl (Nat.le_succ 1)
theorem lda (o : FMem) : Statement (.lda o) := words_le_two (n := 1) rfl (Nat.le_succ 1)
theorem str (o : FMem) : Statement (.str o) := words_le_two (n := 1) rfl (Nat.le_succ 1)
theorem ldk (o : FMem) : Statement (.ldk o) := words_le_two (n := 1) rfl (Nat.le_succ 1)
theorem lds (o : FL) : Statement (.lds o) := words_le_two (n := 1) rfl (Nat.le_succ 1)
theorem sts (o : FL) : Statement (.sts o) := words_le_two (n := 1) rfl (Nat.le_succ 1)
theorem ldy (o : FL) : Statement (.ldy o) := words_le_two (n := 1) rfl (Nat.le_succ 1)
theorem sty (o : FL) : Statement (.sty o) := words_le_two (n := 1) rfl (Nat.le_succ 1)
theorem ldl (o : FL) : Statement (.ldl o) := words_le_two (n := 1) rfl (Nat.le_succ 1)
theorem stl (o : FL) : Statement (.stl o) := words_le_two (n := 1) rfl (Nat.le_succ 1)
theorem ldp (o : FL) : Statement (.ldp o) := words_le_two (n := 1) rfl (Nat.le_succ 1)
theorem stp (o : FL) : Statement (.stp o) := words_le_two (n := 1) rfl (Nat.le_succ 1)
theorem atom (o : FMem) : Statement (.atom o) := words_le_two (n := 1) rfl (Nat.le_succ 1)
theorem atagg (o : FMem) : Statement (.atagg o) := words_le_two (n := 1) rfl (Nat.le_succ 1)
theorem latom (o : FL) : Statement (.latom o) := words_le_two (n := 1) rfl (Nat.le_succ 1)
theorem arm (o : FMem) : Statement (.arm o) := words_le_two (n := 1) rfl (Nat.le_succ 1)
theorem waitmon (o : FI) : Statement (.waitmon o) := withExt_length _ _
theorem fenceFull (o : FFence) : Statement (.fenceFull o) := withExt_length _ _
theorem fenceAcq (o : FFence) : Statement (.fenceAcq o) := withExt_length _ _
theorem fenceRel (o : FFence) : Statement (.fenceRel o) := withExt_length _ _
theorem fenceStrict (o : FFence) : Statement (.fenceStrict o) := withExt_length _ _
theorem cmaint (o : FI) : Statement (.cmaint o) := withExt_length _ _
theorem icinv (o : FR) : Statement (.icinv o) := words_le_two (n := 1) rfl (Nat.le_succ 1)
theorem promote (o : FR) : Statement (.promote o) := words_le_two (n := 1) rfl (Nat.le_succ 1)
theorem demote (o : FR) : Statement (.demote o) := words_le_two (n := 1) rfl (Nat.le_succ 1)
theorem bset (o : FR) : Statement (.bset o) := words_le_two (n := 1) rfl (Nat.le_succ 1)
theorem bget (o : FR) : Statement (.bget o) := words_le_two (n := 1) rfl (Nat.le_succ 1)
theorem bnar (o : FR) : Statement (.bnar o) := words_le_two (n := 1) rfl (Nat.le_succ 1)
theorem bld (o : FMem) : Statement (.bld o) := words_le_two (n := 1) rfl (Nat.le_succ 1)
theorem tpload (o : FE) : Statement (.tpload o) := words_le_two (n := 1) rfl (Nat.le_succ 1)
theorem rres (o : FE) : Statement (.rres o) := words_le_two (n := 1) rfl (Nat.le_succ 1)
theorem rpoll (o : FE) : Statement (.rpoll o) := words_le_two (n := 1) rfl (Nat.le_succ 1)
theorem boxu (o : FE) : Statement (.boxu o) := words_le_two (n := 1) rfl (Nat.le_succ 1)
theorem sah (o : FE) : Statement (.sah o) := words_le_two (n := 1) rfl (Nat.le_succ 1)
theorem npack (o : FE) : Statement (.npack o) := words_le_two (n := 1) rfl (Nat.le_succ 1)
theorem rast (o : FE) : Statement (.rast o) := words_le_two (n := 1) rfl (Nat.le_succ 1)
theorem atlnext (o : FE) : Statement (.atlnext o) := words_le_two (n := 1) rfl (Nat.le_succ 1)
theorem atldone (o : FE) : Statement (.atldone o) := words_le_two (n := 1) rfl (Nat.le_succ 1)
theorem visrd (o : FE) : Statement (.visrd o) := words_le_two (n := 1) rfl (Nat.le_succ 1)
theorem vrsl (o : FE) : Statement (.vrsl o) := words_le_two (n := 1) rfl (Nat.le_succ 1)
theorem samp (o : FE) : Statement (.samp o) := words_le_two (n := 1) rfl (Nat.le_succ 1)
theorem grid (o : FE) : Statement (.grid o) := words_le_two (n := 1) rfl (Nat.le_succ 1)
theorem ungrid (o : FE) : Statement (.ungrid o) := words_le_two (n := 1) rfl (Nat.le_succ 1)
theorem mzero (o : FE) : Statement (.mzero o) := words_le_two (n := 1) rfl (Nat.le_succ 1)
theorem mlda (o : FE) : Statement (.mlda o) := words_le_two (n := 1) rfl (Nat.le_succ 1)
theorem msta (o : FE) : Statement (.msta o) := words_le_two (n := 1) rfl (Nat.le_succ 1)
theorem mrd (o : FE) : Statement (.mrd o) := words_le_two (n := 1) rfl (Nat.le_succ 1)
theorem mwr (o : FE) : Statement (.mwr o) := words_le_two (n := 1) rfl (Nat.le_succ 1)
theorem mstat (o : FE) : Statement (.mstat o) := words_le_two (n := 1) rfl (Nat.le_succ 1)
theorem mwait (o : FE) : Statement (.mwait o) := words_le_two (n := 1) rfl (Nat.le_succ 1)
theorem macc (o : FE) : Statement (.macc o) := words_le_two (n := 1) rfl (Nat.le_succ 1)
theorem copy (o : FE) : Statement (.copy o) := words_le_two (n := 1) rfl (Nat.le_succ 1)
theorem copy2d (o : FE) : Statement (.copy2d o) := words_le_two (n := 1) rfl (Nat.le_succ 1)
theorem gather (o : FE) : Statement (.gather o) := words_le_two (n := 1) rfl (Nat.le_succ 1)
theorem scatter (o : FE) : Statement (.scatter o) := words_le_two (n := 1) rfl (Nat.le_succ 1)
theorem coll (o : FE) : Statement (.coll o) := words_le_two (n := 1) rfl (Nat.le_succ 1)
theorem waitp (o : FE) : Statement (.waitp o) := words_le_two (n := 1) rfl (Nat.le_succ 1)
theorem waitt (o : FE) : Statement (.waitt o) := words_le_two (n := 1) rfl (Nat.le_succ 1)
theorem tlget (o : FE) : Statement (.tlget o) := words_le_two (n := 1) rfl (Nat.le_succ 1)
theorem gres (o : FE) : Statement (.gres o) := words_le_two (n := 1) rfl (Nat.le_succ 1)
theorem binit (o : FE) : Statement (.binit o) := words_le_two (n := 1) rfl (Nat.le_succ 1)
theorem barv (o : FE) : Statement (.barv o) := words_le_two (n := 1) rfl (Nat.le_succ 1)
theorem bwait (o : FE) : Statement (.bwait o) := words_le_two (n := 1) rfl (Nat.le_succ 1)
theorem bstat (o : FE) : Statement (.bstat o) := words_le_two (n := 1) rfl (Nat.le_succ 1)
theorem yjoin (o : FE) : Statement (.yjoin o) := words_le_two (n := 1) rfl (Nat.le_succ 1)
theorem yleave (o : FE) : Statement (.yleave o) := words_le_two (n := 1) rfl (Nat.le_succ 1)
theorem qres (o : FE) : Statement (.qres o) := words_le_two (n := 1) rfl (Nat.le_succ 1)
theorem sread (o : FE) : Statement (.sread o) := words_le_two (n := 1) rfl (Nat.le_succ 1)
theorem swrite (o : FE) : Statement (.swrite o) := words_le_two (n := 1) rfl (Nat.le_succ 1)
theorem trap (o : FE) : Statement (.trap o) := words_le_two (n := 1) rfl (Nat.le_succ 1)
theorem tret (o : FE) : Statement (.tret o) := words_le_two (n := 1) rfl (Nat.le_succ 1)
theorem region (o : FE) : Statement (.region o) := words_le_two (n := 1) rfl (Nat.le_succ 1)
theorem rpc (o : FE) : Statement (.rpc o) := words_le_two (n := 1) rfl (Nat.le_succ 1)
theorem rpcwait (o : FE) : Statement (.rpcwait o) := words_le_two (n := 1) rfl (Nat.le_succ 1)
theorem claim (o : FE) : Statement (.claim o) := words_le_two (n := 1) rfl (Nat.le_succ 1)
theorem release (o : FE) : Statement (.release o) := words_le_two (n := 1) rfl (Nat.le_succ 1)
theorem setperf (o : FE) : Statement (.setperf o) := words_le_two (n := 1) rfl (Nat.le_succ 1)
theorem node (o : FE) : Statement (.node o) := words_le_two (n := 1) rfl (Nat.le_succ 1)
theorem emit (o : FE) : Statement (.emit o) := words_le_two (n := 1) rfl (Nat.le_succ 1)
theorem bkpt (o : FE) : Statement (.bkpt o) := words_le_two (n := 1) rfl (Nat.le_succ 1)
theorem tmark (o : FE) : Statement (.tmark o) := words_le_two (n := 1) rfl (Nat.le_succ 1)
theorem jcadd (o : FE) : Statement (.jcadd o) := words_le_two (n := 1) rfl (Nat.le_succ 1)
theorem halt (o : FE) : Statement (.halt o) := words_le_two (n := 1) rfl (Nat.le_succ 1)
theorem ext (o : FExt) : Statement (.ext o) := words_le_two (n := 2) rfl (Nat.le_refl 2)
theorem loadDataReturn (e : EvFlight) : Statement (.loadDataReturn e) := words_le_two (n := 0) rfl (Nat.zero_le 2)
theorem storePerformed (e : EvFlight) : Statement (.storePerformed e) := words_le_two (n := 0) rfl (Nat.zero_le 2)
theorem slcRequest (e : EvFlightLine) : Statement (.slcRequest e) := words_le_two (n := 0) rfl (Nat.zero_le 2)
theorem monitorRegistration (e : EvFlight) : Statement (.monitorRegistration e) := words_le_two (n := 0) rfl (Nat.zero_le 2)
theorem l1Invalidation (e : EvCoreLine) : Statement (.l1Invalidation e) := words_le_two (n := 0) rfl (Nat.zero_le 2)
theorem fenceComplete (e : EvSplit) : Statement (.fenceComplete e) := words_le_two (n := 0) rfl (Nat.zero_le 2)
theorem waitmonTimeout (e : EvSplit) : Statement (.waitmonTimeout e) := words_le_two (n := 0) rfl (Nat.zero_le 2)
theorem pageWalkComplete (e : EvWalk) : Statement (.pageWalkComplete e) := words_le_two (n := 0) rfl (Nat.zero_le 2)
theorem faultReply (e : EvReply) : Statement (.faultReply e) := words_le_two (n := 0) rfl (Nat.zero_le 2)
theorem parkedReplay (e : EvSplit) : Statement (.parkedReplay e) := words_le_two (n := 0) rfl (Nat.zero_le 2)
theorem translationInvalidation (e : EvInv) : Statement (.translationInvalidation e) := words_le_two (n := 0) rfl (Nat.zero_le 2)
theorem invalidationAck : Statement .invalidationAck := words_le_two (n := 0) rfl (Nat.zero_le 2)
theorem hostReadShared (e : EvHostRead) : Statement (.hostReadShared e) := words_le_two (n := 0) rfl (Nat.zero_le 2)
theorem hostReadForOwnership (e : EvHostRead) : Statement (.hostReadForOwnership e) := words_le_two (n := 0) rfl (Nat.zero_le 2)
theorem hostWrite (e : EvHostWrite) : Statement (.hostWrite e) := words_le_two (n := 0) rfl (Nat.zero_le 2)
theorem hostAtomic (e : EvHostAtomic) : Statement (.hostAtomic e) := words_le_two (n := 0) rfl (Nat.zero_le 2)
theorem snoopResponse (e : EvSnoop) : Statement (.snoopResponse e) := words_le_two (n := 0) rfl (Nat.zero_le 2)
theorem frameClean (e : EvFrames) : Statement (.frameClean e) := words_le_two (n := 0) rfl (Nat.zero_le 2)
theorem frameCleanComplete : Statement .frameCleanComplete := words_le_two (n := 0) rfl (Nat.zero_le 2)
theorem cmaintComplete (e : EvFlight) : Statement (.cmaintComplete e) := words_le_two (n := 0) rfl (Nat.zero_le 2)
theorem icinvComplete (e : EvSplit) : Statement (.icinvComplete e) := words_le_two (n := 0) rfl (Nat.zero_le 2)
theorem bankAccess (e : EvBankAccess) : Statement (.bankAccess e) := words_le_two (n := 0) rfl (Nat.zero_le 2)
theorem perBankRefresh (e : EvBank) : Statement (.perBankRefresh e) := words_le_two (n := 0) rfl (Nat.zero_le 2)
theorem bankSegmentRequest (e : EvBank) : Statement (.bankSegmentRequest e) := words_le_two (n := 0) rfl (Nat.zero_le 2)
theorem segmentWritebackDone (e : EvBank) : Statement (.segmentWritebackDone e) := words_le_two (n := 0) rfl (Nat.zero_le 2)
theorem segmentCopyDone (e : EvBank) : Statement (.segmentCopyDone e) := words_le_two (n := 0) rfl (Nat.zero_le 2)
theorem engineCommandStart (e : EvEngine) : Statement (.engineCommandStart e) := words_le_two (n := 0) rfl (Nat.zero_le 2)
theorem engineTransfer (e : EvEngineCmd) : Statement (.engineTransfer e) := words_le_two (n := 0) rfl (Nat.zero_le 2)
theorem engineCommandComplete (e : EvEngineCmd) : Statement (.engineCommandComplete e) := words_le_two (n := 0) rfl (Nat.zero_le 2)
theorem yjoinComplete (e : EvYard) : Statement (.yjoinComplete e) := words_le_two (n := 0) rfl (Nat.zero_le 2)
theorem yleaveComplete (e : EvGroup) : Statement (.yleaveComplete e) := words_le_two (n := 0) rfl (Nat.zero_le 2)
theorem gridTake (e : EvTeam) : Statement (.gridTake e) := words_le_two (n := 0) rfl (Nat.zero_le 2)
theorem ungridComplete (e : EvTeam) : Statement (.ungridComplete e) := words_le_two (n := 0) rfl (Nat.zero_le 2)
theorem tokenGrant : Statement .tokenGrant := words_le_two (n := 0) rfl (Nat.zero_le 2)
theorem tokenIdleRelease (e : EvTeam) : Statement (.tokenIdleRelease e) := words_le_two (n := 0) rfl (Nat.zero_le 2)
theorem matrixCommandStart (e : EvEngine) : Statement (.matrixCommandStart e) := words_le_two (n := 0) rfl (Nat.zero_le 2)
theorem mloopStep (e : EvEngineCmd) : Statement (.mloopStep e) := words_le_two (n := 0) rfl (Nat.zero_le 2)
theorem matrixCommandFinish (e : EvEngineCmd) : Statement (.matrixCommandFinish e) := words_le_two (n := 0) rfl (Nat.zero_le 2)
theorem mxvFinish (e : EvSplit) : Statement (.mxvFinish e) := words_le_two (n := 0) rfl (Nat.zero_le 2)
theorem rboxFinish (e : EvSplit) : Statement (.rboxFinish e) := words_le_two (n := 0) rfl (Nat.zero_le 2)
theorem tploadSlotLoad (e : EvGroup) : Statement (.tploadSlotLoad e) := words_le_two (n := 0) rfl (Nat.zero_le 2)
theorem rayStart (e : EvGroup) : Statement (.rayStart e) := words_le_two (n := 0) rfl (Nat.zero_le 2)
theorem rayMicroOpStep (e : EvRay) : Statement (.rayMicroOpStep e) := words_le_two (n := 0) rfl (Nat.zero_le 2)
theorem rastCommandStart (e : EvGroup) : Statement (.rastCommandStart e) := words_le_two (n := 0) rfl (Nat.zero_le 2)
theorem rastTriangle (e : EvGroup) : Statement (.rastTriangle e) := words_le_two (n := 0) rfl (Nat.zero_le 2)
theorem requestPassStart (e : EvGroup) : Statement (.requestPassStart e) := words_le_two (n := 0) rfl (Nat.zero_le 2)
theorem requestPassSample (e : EvGroup) : Statement (.requestPassSample e) := words_le_two (n := 0) rfl (Nat.zero_le 2)
theorem vrslLatch (e : EvGroup) : Statement (.vrslLatch e) := words_le_two (n := 0) rfl (Nat.zero_le 2)
theorem claimGrant (e : EvQuad) : Statement (.claimGrant e) := words_le_two (n := 0) rfl (Nat.zero_le 2)
theorem splitRotation (e : EvTeam) : Statement (.splitRotation e) := words_le_two (n := 0) rfl (Nat.zero_le 2)
theorem splitReload (e : EvTeam) : Statement (.splitReload e) := words_le_two (n := 0) rfl (Nat.zero_le 2)
theorem teamGranuleReturn (e : EvTeam) : Statement (.teamGranuleReturn e) := words_le_two (n := 0) rfl (Nat.zero_le 2)
theorem groupEnd (e : EvGroup) : Statement (.groupEnd e) := words_le_two (n := 0) rfl (Nat.zero_le 2)
theorem spawnWrite (e : EvSpawn) : Statement (.spawnWrite e) := words_le_two (n := 0) rfl (Nat.zero_le 2)
theorem nodeDispatch (e : EvNode) : Statement (.nodeDispatch e) := words_le_two (n := 0) rfl (Nat.zero_le 2)
theorem tileStaging (e : EvNode) : Statement (.tileStaging e) := words_le_two (n := 0) rfl (Nat.zero_le 2)
theorem groupPlacement (e : EvNode) : Statement (.groupPlacement e) := words_le_two (n := 0) rfl (Nat.zero_le 2)
theorem nodeComplete (e : EvNode) : Statement (.nodeComplete e) := words_le_two (n := 0) rfl (Nat.zero_le 2)
theorem levelMove (e : EvCore) : Statement (.levelMove e) := words_le_two (n := 0) rfl (Nat.zero_le 2)
theorem levelMoveComplete (e : EvCore) : Statement (.levelMoveComplete e) := words_le_two (n := 0) rfl (Nat.zero_le 2)
theorem droopTrigger (e : EvDroop) : Statement (.droopTrigger e) := words_le_two (n := 0) rfl (Nat.zero_le 2)
theorem droopStretchEnd (e : EvCore) : Statement (.droopStretchEnd e) := words_le_two (n := 0) rfl (Nat.zero_le 2)
theorem droopHalvingEnd (e : EvCore) : Statement (.droopHalvingEnd e) := words_le_two (n := 0) rfl (Nat.zero_le 2)
theorem bayPowerGate (e : EvBay) : Statement (.bayPowerGate e) := words_le_two (n := 0) rfl (Nat.zero_le 2)
theorem bayWakeComplete (e : EvQuad) : Statement (.bayWakeComplete e) := words_le_two (n := 0) rfl (Nat.zero_le 2)
theorem corePowerGate (e : EvCore) : Statement (.corePowerGate e) := words_le_two (n := 0) rfl (Nat.zero_le 2)
theorem coreWakeComplete (e : EvCore) : Statement (.coreWakeComplete e) := words_le_two (n := 0) rfl (Nat.zero_le 2)
theorem skinTemperatureInterval (e : EvSkin) : Statement (.skinTemperatureInterval e) := words_le_two (n := 0) rfl (Nat.zero_le 2)
theorem governorEstimate (e : EvGovernor) : Statement (.governorEstimate e) := words_le_two (n := 0) rfl (Nat.zero_le 2)
theorem rtimerExpiry (e : EvTeam) : Statement (.rtimerExpiry e) := words_le_two (n := 0) rfl (Nat.zero_le 2)
theorem wallDeadlineExpiry (e : EvTeam) : Statement (.wallDeadlineExpiry e) := words_le_two (n := 0) rfl (Nat.zero_le 2)
theorem asyncTrapEntry (e : EvTeam) : Statement (.asyncTrapEntry e) := words_le_two (n := 0) rfl (Nat.zero_le 2)
theorem poisonedRegisterRead (e : EvPoison) : Statement (.poisonedRegisterRead e) := words_le_two (n := 0) rfl (Nat.zero_le 2)
theorem teamStop (e : EvStop) : Statement (.teamStop e) := words_le_two (n := 0) rfl (Nat.zero_le 2)
theorem teamRestore (e : EvTeam) : Statement (.teamRestore e) := words_le_two (n := 0) rfl (Nat.zero_le 2)
theorem groupEviction (e : EvGroup) : Statement (.groupEviction e) := words_le_two (n := 0) rfl (Nat.zero_le 2)
theorem groupRestore (e : EvGroupCore) : Statement (.groupRestore e) := words_le_two (n := 0) rfl (Nat.zero_le 2)
theorem partitionHalt (e : EvCtx) : Statement (.partitionHalt e) := words_le_two (n := 0) rfl (Nat.zero_le 2)
theorem partitionSwap (e : EvCtx) : Statement (.partitionSwap e) := words_le_two (n := 0) rfl (Nat.zero_le 2)
theorem ctxCreate (e : EvCtxCfg) : Statement (.ctxCreate e) := words_le_two (n := 0) rfl (Nat.zero_le 2)
theorem ctxSet (e : EvCtxCfg) : Statement (.ctxSet e) := words_le_two (n := 0) rfl (Nat.zero_le 2)
theorem ctxDestroy (e : EvCtx) : Statement (.ctxDestroy e) := words_le_two (n := 0) rfl (Nat.zero_le 2)
theorem rpcReply (e : EvReply) : Statement (.rpcReply e) := words_le_two (n := 0) rfl (Nat.zero_le 2)
theorem coreRetirement (e : EvCore) : Statement (.coreRetirement e) := words_le_two (n := 0) rfl (Nat.zero_le 2)
theorem powerOnReset (e : EvPower) : Statement (.powerOnReset e) := words_le_two (n := 0) rfl (Nat.zero_le 2)
theorem memoryTrainingComplete (e : EvTraining) : Statement (.memoryTrainingComplete e) := words_le_two (n := 0) rfl (Nat.zero_le 2)
theorem fwgo (e : EvRegValue) : Statement (.fwgo e) := words_le_two (n := 0) rfl (Nat.zero_le 2)
theorem firmwareVerification : Statement .firmwareVerification := words_le_two (n := 0) rfl (Nat.zero_le 2)
theorem corePowerUp (e : EvCore) : Statement (.corePowerUp e) := words_le_two (n := 0) rfl (Nat.zero_le 2)
theorem getMeasurements (e : EvIndex) : Statement (.getMeasurements e) := words_le_two (n := 0) rfl (Nat.zero_le 2)
theorem ideKmKeySet (e : EvIndex) : Statement (.ideKmKeySet e) := words_le_two (n := 0) rfl (Nat.zero_le 2)
theorem lockInterfaceRequest (e : EvIndex) : Statement (.lockInterfaceRequest e) := words_le_two (n := 0) rfl (Nat.zero_le 2)
theorem getDeviceInterfaceReport (e : EvIndex) : Statement (.getDeviceInterfaceReport e) := words_le_two (n := 0) rfl (Nat.zero_le 2)
theorem startInterfaceRequest (e : EvIndex) : Statement (.startInterfaceRequest e) := words_le_two (n := 0) rfl (Nat.zero_le 2)
theorem stopInterfaceRequest (e : EvIndex) : Statement (.stopInterfaceRequest e) := words_le_two (n := 0) rfl (Nat.zero_le 2)
theorem frozenConfigurationWrite (e : EvIndex) : Statement (.frozenConfigurationWrite e) := words_le_two (n := 0) rfl (Nat.zero_le 2)
theorem ideIntegrityFailure (e : EvIndex) : Statement (.ideIntegrityFailure e) := words_le_two (n := 0) rfl (Nat.zero_le 2)
theorem stopreqSet : Statement .stopreqSet := words_le_two (n := 0) rfl (Nat.zero_le 2)
theorem stopreqClear : Statement .stopreqClear := words_le_two (n := 0) rfl (Nat.zero_le 2)
theorem haltdbgClear : Statement .haltdbgClear := words_le_two (n := 0) rfl (Nat.zero_le 2)
theorem dropsClear (e : EvRegValue) : Statement (.dropsClear e) := words_le_two (n := 0) rfl (Nat.zero_le 2)
theorem registerWrite (e : EvRegWrite) : Statement (.registerWrite e) := words_le_two (n := 0) rfl (Nat.zero_le 2)
theorem chargeWindowAging (e : EvCore) : Statement (.chargeWindowAging e) := words_le_two (n := 0) rfl (Nat.zero_le 2)
theorem idleBayCycle (e : EvBay) : Statement (.idleBayCycle e) := words_le_two (n := 0) rfl (Nat.zero_le 2)

end Sys2Proof.Laws.EncodedWords
end

