-- ==== Sys2Proof/Laws/Registers.lean ====
section
/-!
SUPPORT. Laws of the register files: what a write leaves in the lanes it names and in every other register, and that what
only orders reads against writes changes no register.
-/
namespace Sys2Proof.Machine

theorem vKey_inj {r l r' l' : Nat} (h : l < 1024) (h' : l' < 1024) (e : vKey r l = vKey r' l') : r = r' ∧ l = l' := by
  unfold vKey at e; omega

/-- Putting lanes of a register leaves every other register, and every other lane of a v register, as it was. -/
theorem Team.raw_put_other (t : Team) (f : RFile) (r : Nat) (vals : List (Nat × Nat)) (f' : RFile) (r' l : Nat)
    (h : (f', r') ≠ (f, r) ∨ (f = .v ∧ ∀ p ∈ vals, p.1 ≠ l)) : (t.put f r vals).raw f' r' l = t.raw f' r' l := by
  cases f with
  | v =>
    cases f' with
    | v =>
      unfold Team.raw Team.put
      dsimp only
      split
      · next hl =>
        rw [sget_ssets_other]
        intro p hp e
        simp only [List.mem_map, List.mem_filter, decide_eq_true_eq] at hp
        obtain ⟨q, ⟨hq, hl'⟩, rfl⟩ := hp
        obtain ⟨rfl, rfl⟩ := vKey_inj hl' hl e
        rcases h with h | ⟨_, h⟩
        · exact h rfl
        · exact h q hq rfl
      · rfl
    | _ => rfl
  | g =>
    cases f' with
    | g =>
      unfold Team.raw Team.put
      dsimp only
      rw [sget_ssets_other]
      intro p hp e
      simp only [List.mem_map] at hp
      obtain ⟨q, _, rfl⟩ := hp
      rcases h with h | ⟨h, _⟩
      · exact h (by rw [← e])
      · cases h
    | _ => rfl
  | m =>
    cases f' with
    | m =>
      unfold Team.raw Team.put
      dsimp only
      rw [sget_ssets_other]
      intro p hp e
      simp only [List.mem_map] at hp
      obtain ⟨q, _, rfl⟩ := hp
      rcases h with h | ⟨h, _⟩
      · exact h (by rw [← e])
      · cases h
    | _ => rfl
  | b =>
    cases f' with
    | b =>
      unfold Team.raw Team.put
      dsimp only
      rw [sget_ssets_other]
      intro p hp e
      simp only [List.mem_map] at hp
      obtain ⟨q, _, rfl⟩ := hp
      rcases h with h | ⟨h, _⟩
      · exact h (by rw [← e])
      · cases h
    | _ => rfl

/-- A lane of a v register that is put once holds the low 32 bits of its value. -/
theorem Team.raw_put_v (t : Team) (r l x : Nat) (vals : List (Nat × Nat)) (hl : l < 1024) (hm : (l, x) ∈ vals)
    (hn : (vals.map (·.1)).Nodup) : (t.put .v r vals).raw .v r l = x % 2 ^ 32 := by
  unfold Team.raw Team.put
  dsimp only
  rw [if_pos hl]
  have hmem : (vKey r l, BitVec.ofNat 32 x) ∈
      (vals.filter fun p => decide (p.1 < 1024)).map fun p => (vKey r p.1, BitVec.ofNat 32 p.2) :=
    List.mem_map.2 ⟨(l, x), List.mem_filter.2 ⟨hm, by simpa using hl⟩, rfl⟩
  have hnd : ((((vals.filter fun p => decide (p.1 < 1024)).map fun p => (vKey r p.1, BitVec.ofNat 32 p.2))).map (·.1)).Nodup := by
    rw [List.map_map]
    have hf : ((vals.filter fun p => decide (p.1 < 1024)).map (·.1)).Nodup :=
      hn.sublist (List.filter_sublist.map _)
    have e : ((fun (p : Nat × BitVec 32) => p.1) ∘ fun (p : Nat × Nat) => (vKey r p.1, BitVec.ofNat 32 p.2)) =
        (fun k => vKey r k) ∘ (fun (p : Nat × Nat) => p.1) := rfl
    rw [e, ← List.map_map]
    refine hf.map ?_
    intro a b hab
    exact Nat.add_left_cancel hab
  have h := sget_ssets_mem (0 : Word) _ t.v _ hmem hnd
  rw [h]
  simp [BitVec.toNat_ofNat]

/-- A g register put with one value holds its low 32 bits; so does a mask, present lanes only, and a buffer record. -/
theorem Team.raw_put_g (t : Team) (r k x l : Nat) : (t.put .g r [(k, x)]).raw .g r l = x % 2 ^ 32 := by
  unfold Team.raw Team.put
  simp [ssets_cons, ssets_nil, BitVec.toNat_ofNat]
theorem Team.raw_put_m (t : Team) (r k x l : Nat) :
    (t.put .m r [(k, x)]).raw .m r l = (BitVec.ofNat 1024 x &&& t.present).toNat := by
  unfold Team.raw Team.put
  simp only [List.map_cons, List.map_nil, ssets_cons, ssets_nil, sget_sset_same, BitVec.and_assoc, BitVec.and_self]
theorem Team.raw_put_b (t : Team) (r k x l : Nat) : (t.put .b r [(k, x)]).raw .b r l = x % 2 ^ 128 := by
  unfold Team.raw Team.put
  simp [ssets_cons, ssets_nil, BitVec.toNat_ofNat]

/-- A write puts its lanes; what it records beside them changes no register. -/
theorem Team.raw_write (t : Team) (owner ew : Nat) (f : RFile) (r : Nat) (vals : List (Nat × Nat)) (f' : RFile) (r' l : Nat) :
    (t.write owner ew f r vals).raw f' r' l = if vals = [] then t.raw f' r' l else (t.put f r vals).raw f' r' l := by
  unfold Team.write Team.writeOn
  cases vals with
  | nil => simp
  | cons p ps =>
    simp only [reduceCtorEq, if_false]
    split <;> split <;> split <;> cases f' <;> rfl

/-- A write leaves every other register, and every other lane of a v register, as it was. -/
theorem Team.raw_write_other (t : Team) (owner ew : Nat) (f : RFile) (r : Nat) (vals : List (Nat × Nat)) (f' : RFile) (r' l : Nat)
    (h : (f', r') ≠ (f, r) ∨ (f = .v ∧ ∀ p ∈ vals, p.1 ≠ l)) : (t.write owner ew f r vals).raw f' r' l = t.raw f' r' l := by
  rw [Team.raw_write]
  split
  · rfl
  · exact t.raw_put_other f r vals f' r' l h

/-- A lane of a v register that is written once holds the low 32 bits of its value. -/
theorem Team.raw_write_v (t : Team) (owner ew r l x : Nat) (vals : List (Nat × Nat)) (hl : l < 1024) (hm : (l, x) ∈ vals)
    (hn : (vals.map (·.1)).Nodup) : (t.write owner ew .v r vals).raw .v r l = x % 2 ^ 32 := by
  rw [Team.raw_write, if_neg (List.ne_nil_of_mem hm), Team.raw_put_v t r l x vals hl hm hn]
theorem Team.raw_write_g (t : Team) (owner ew r k x l : Nat) : (t.write owner ew .g r [(k, x)]).raw .g r l = x % 2 ^ 32 := by
  rw [Team.raw_write, if_neg (List.cons_ne_nil _ _), Team.raw_put_g]
theorem Team.raw_write_m (t : Team) (owner ew r k x l : Nat) :
    (t.write owner ew .m r [(k, x)]).raw .m r l = (BitVec.ofNat 1024 x &&& t.present).toNat := by
  rw [Team.raw_write, if_neg (List.cons_ne_nil _ _), Team.raw_put_m]
theorem Team.raw_write_b (t : Team) (owner ew r k x l : Nat) : (t.write owner ew .b r [(k, x)]).raw .b r l = x % 2 ^ 128 := by
  rw [Team.raw_write, if_neg (List.cons_ne_nil _ _), Team.raw_put_b]

/-! ### What only orders reads against writes -/

@[simp] theorem Team.raw_settle (t : Team) (uid : Nat) (f : RFile) (r l : Nat) : (t.settle uid).raw f r l = t.raw f r l := by
  unfold Team.settle; split
  · rfl
  · split <;> cases f <;> rfl
@[simp] theorem Team.raw_settleAll (t : Team) (f : RFile) (r l : Nat) : t.settleAll.raw f r l = t.raw f r l := by cases f <;> rfl
@[simp] theorem Team.raw_markWritten (t : Team) (f : RFile) (r : Nat) (f' : RFile) (r' l : Nat) :
    (t.markWritten f r).raw f' r' l = t.raw f' r' l := by cases f' <;> rfl
@[simp] theorem Team.raw_modSplit (t : Team) (uid : Nat) (g : Split → Split) (f : RFile) (r l : Nat) :
    (t.modSplit uid g).raw f r l = t.raw f r l := by cases f <;> rfl
@[simp] theorem Team.raw_stick (t : Team) (fl : Nat) (f : RFile) (r l : Nat) : (t.stick fl).raw f r l = t.raw f r l := by
  cases f <;> rfl

/-- R40: with no outstanding write to a register, a read is the register. -/
theorem Team.read_quiet (t : Team) (nonce uid : Nat) (f : RFile) (r l : Nat) (h : t.hazards uid f r = []) :
    t.read nonce uid f r l = t.raw f r l := by unfold Team.read; rw [h]
/-- R40 rule 2: a team with nothing outstanding has no hazard in any register. -/
theorem Team.hazards_nil (t : Team) (uid : Nat) (f : RFile) (r : Nat) (h : t.unset = []) : t.hazards uid f r = [] := by
  unfold Team.hazards; rw [h]; rfl

end Sys2Proof.Machine
end

