-- ==== Sys2Proof/Tests/Slice0.lean ====
section
/-!
SUPPORT. Tests: the words that the spec writes out, the smoke test of well-formedness, single steps whose results the spec
works out, and for every obligation states that meet its hypotheses.
-/
set_option Elab.async false

namespace Sys2Proof.Tests
open Sys2Proof.Machine

/-! ### Words that the spec writes out (R36 to R39) -/

/-- The first word, with the second one behind it, decodes to the instruction. -/
def reads (l : List (Word × Word × Instr)) : Bool :=
  l.all fun x => decide (decode x.1 x.2.1 = .ok (x.2.2, (encode x.2.2).length)) && wellFormed x.2.2

/-- 02 "Worked encodings". -/
theorem test_words_02 : reads [
    (0xAB050102, 0, .fma ⟨true, 5, 1, 2⟩), (0x60040714, 0, .ld ⟨false, 4, 7, 2, 4⟩), (0x65030924, 0, .lds ⟨false, 3, 9, 4, 4⟩),
    (0x7F000003, 0x14C3C3E8, .addi ⟨false, some ⟨false, 3⟩, 195, 195, 0xE8⟩),
    (0x7F000015, 0x3F000602, .setmode ⟨false, some ⟨false, 0x15⟩, 0, 0x0602⟩),
    (0x7EC40600, 0, .sread ⟨false, 196, 6, 0⟩), (0x7E0CC501, 0, .swrite ⟨false, 12, 197, 0⟩)] = true := by decide +kernel
/-- 03 R67, 04 R80 to R82, 05 R106. -/
theorem test_words_03_05 : reads [
    (0x75C4CA01, 0, .promote ⟨false, 196, 202, 1⟩), (0x76C4CA00, 0, .demote ⟨false, 196, 202, 0⟩),
    (0x7702C800, 0, .bset ⟨false, 2, 200, 0⟩), (0x78CC0200, 0, .bget ⟨false, 204, 2, 0⟩), (0x790402CA, 0, .bnar ⟨false, 4, 2, 202⟩),
    (0x7A05C20E, 0, .bld ⟨false, 5, 194, 1, 6⟩), (0x7400CACC, 0, .icinv ⟨false, 0, 202, 204⟩)] = true := by decide +kernel
/-- 06, the table of ENG. -/
theorem test_words_06 : reads [
    (0x7DD4C800, 0, .copy ⟨false, 212, 200, 0⟩), (0x7DD6D020, 0, .copy ⟨false, 214, 208, 2⟩), (0x7D01C505, 0, .waitp ⟨false, 1, 197, 0⟩),
    (0x7D00D806, 0, .waitt ⟨false, 0, 216, 0⟩), (0x7DD00007, 0, .tlget ⟨false, 208, 0, 0⟩), (0x7D00C928, 0, .gres ⟨false, 0, 201, 2⟩),
    (0x7DC4CC0A, 0, .barv ⟨false, 196, 204, 0⟩), (0x7DC4C60D, 0, .yjoin ⟨false, 196, 198, 0⟩),
    (0x7D00C90F, 0, .qres ⟨false, 0, 201, 0⟩), (0xFDD4C800, 0, .copy ⟨true, 212, 200, 0⟩)] = true := by decide +kernel
/-- 07, the syntax of each entry. -/
theorem test_words_07 : reads [
    (0x6106080D, 0, .st ⟨false, 6, 8, 1, 5⟩), (0x62C8C61C, 0, .lda ⟨false, 200, 198, 3, 4⟩), (0x6306080D, 0, .str ⟨false, 6, 8, 1, 5⟩),
    (0x6408C22E, 0, .ldk ⟨false, 8, 194, 5, 6⟩), (0x6806C415, 0, .sty ⟨false, 6, 196, 2, 5⟩), (0x69C8C4FC, 0, .ldl ⟨false, 200, 196, 31, 4⟩),
    (0x6C080206, 0, .stp ⟨false, 8, 2, 0, 6⟩), (0x6D040710, 0, .atom ⟨false, 4, 7, 2, 0⟩), (0x6E04C610, 0, .atagg ⟨false, 4, 198, 2, 0⟩),
    (0x7000C61C, 0, .arm ⟨false, 0, 198, 3, 4⟩), (0x71C4C500, 0, .waitmon ⟨false, none, 196, 197, 0⟩),
    (0x72000016, 0, .fenceRel ⟨false, none, 0, 0, 0, 6⟩), (0x7200001F, 0, .fenceStrict ⟨false, none, 0, 0, 0, 7⟩)] = true := by
  decide +kernel
/-- 09, the syntax of each entry. -/
theorem test_words_09 : reads [
    (0x01030102, 0, .add ⟨false, 3, 1, 2⟩), (0x05050102, 0, .mad ⟨false, 5, 1, 2⟩), (0x13040600, 0, .popc ⟨false, 4, 6⟩),
    (0x140202FF, 0, .addi ⟨false, none, 2, 2, 0xFF⟩), (0x1CC90000, 0, .movk ⟨false, none, 201, 0⟩),
    (0x1D013F80, 0, .movkh ⟨false, none, 1, 0x3F80⟩), (0x22020102, 0, .clt ⟨false, 2, 1, 2⟩), (0x2F030100, 0, .frcp ⟨false, 3, 1⟩),
    (0x2F03010E, 0, .fclass ⟨false, 3, 1⟩), (0x33040002, 0, .cvt ⟨false, none, 4, 0, 2⟩), (0x36060207, 0, .mxscl ⟨false, 6, 2, 7⟩),
    (0x38050102, 0, .shfl ⟨false, 5, 1, 2⟩), (0x3CC50200, 0, .tred ⟨false, none, 197, 2, 0⟩), (0x3E070000, 0, .wid ⟨false, none, 7, 0, 0⟩),
    (0x44C40300, 0, .mcnt ⟨false, 196, 3, 0⟩), (0x4903C404, 0, .msts ⟨false, 3, 196, 0, 4⟩), (0x4AC40304, 0, .mlds ⟨false, 196, 3, 0, 4⟩)]
      = true := by decide +kernel
/-- 10, 11 and 12, the tables of MAT and RAY. -/
theorem test_words_10_12 : reads [
    (0x7C020000, 0, .grid ⟨false, 2, 0, 0⟩), (0x7C000001, 0, .ungrid ⟨false, 0, 0, 0⟩), (0xFC00D002, 0, .mzero ⟨true, 0, 208, 0⟩),
    (0x7CD0CC03, 0, .mlda ⟨false, 208, 204, 0⟩), (0x7C1ED005, 0, .mrd ⟨false, 30, 208, 0⟩), (0x7C00D008, 0, .mwait ⟨false, 0, 208, 0⟩),
    (0x7CD0D109, 0, .macc ⟨false, 208, 209, 0⟩), (0xCCD0C8D4, 0, .mloop ⟨true, 208, 200, 212⟩), (0x4D28D815, 0, .mxv ⟨false, 40, 216, 21⟩),
    (0x4ED4C818, 0, .trace ⟨false, 212, 200, 24⟩), (0x7BD4C831, 0, .rres ⟨false, 212, 200, 3⟩), (0x7BC40002, 0, .rpoll ⟨false, 196, 0, 0⟩),
    (0x4F28C818, 0, .rbox ⟨false, 40, 200, 24⟩), (0x7B402005, 0, .npack ⟨false, 64, 32, 0⟩), (0x7BC4CC0A, 0, .vrsl ⟨false, 196, 204, 0⟩),
    (0x7B0CC809, 0, .visrd ⟨false, 12, 200, 0⟩), (0x7B14C80B, 0, .samp ⟨false, 20, 200, 0⟩)] = true := by decide +kernel
/-- 14 to 19, the tables of control flow and SYS. -/
theorem test_words_14_19 : reads [
    (0x50000002, 0, .bra ⟨false, 2⟩), (0x51C8FFFD, 0, .brnz ⟨false, 200, 0xFFFD⟩), (0x53200005, 0, .brany ⟨false, 2, 5⟩),
    (0x55000006, 0, .jset ⟨false, 6⟩), (0x56100004, 0, .brm ⟨false, 1, 4⟩), (0x57000600, 0, .jmpi ⟨false, 0, 6, 0⟩),
    (0x58000000, 0, .join ⟨false⟩), (0x5A00C900, 0, .calli ⟨false, 0, 201, 0⟩), (0x5B000000, 0, .ret ⟨false⟩), (0x5D000000, 0, .exit ⟨false⟩),
    (0x5E000003, 0, .bar ⟨false, none, 0, 0, 3⟩), (0xFED1D007, 0, .claim ⟨true, 209, 208, 0⟩), (0x7EC4C80A, 0, .node ⟨false, 196, 200, 0⟩),
    (0x7E05C902, 0, .trap ⟨false, 5, 201, 0⟩), (0x7E000003, 0, .tret ⟨false, 0, 0, 0⟩), (0x7E07000C, 0, .bkpt ⟨false, 7, 0, 0⟩)] = true := by
  decide +kernel

/-! ### Well-formed and ill-formed terms -/

/-- R39: an EXT before a word of another format is a term of its own; before a word of I or K format it is not. -/
theorem test_wf_ext : wellFormed (.ext ⟨false, 0, 0x01030102⟩) = true ∧ wellFormed (.ext ⟨false, 0, 0x14C3C3E8⟩) = false := by
  decide +kernel
/-- An event has no words. -/
theorem test_wf_event : wellFormed .firmwareVerification = false ∧ wellFormed (.groupEnd ⟨1⟩) = false := by decide +kernel
/-- R36, R37: an opcode and a function that no table assigns are refused by name. -/
theorem test_reserved : (decode 0x37000000 0, decode 0x7C00000F 0, decode 0x58000001 0) =
    (.error .reservedOpcode, .error (.reservedFunction 0x7C 15), .error (.nonZeroOperands 0x58)) := by decide +kernel
/-- R45: the lowest code: 5 for a lane-form TSCAN into a g register, 12 for SETMODEH with IMM24[23:16] not 0, 4 for v100 named in a
field of g registers by a team of 64, 17 for an odd D of EMIT. -/
theorem test_lowest_code : ([Instr.tscan ⟨true, none, 197, 2, 0⟩, .setmodeh ⟨true, some ⟨false, 0x10000⟩, 0, 1⟩, .cmaint ⟨true, none, 0, 100, 6⟩,
    .emit ⟨true, 197, 200, 0⟩].map fun i => lowest (encodingFaults i 0 8)) = [some 5, some 12, some 4, some 17] := by decide +kernel

/-! ### States that meet the hypotheses -/

/-- Split `p` of team `t` of group `g`, on core 0, is the one that issues. -/
def issuing (t : Team) (g : Group) : State :=
  { State.reset.withFetchWord 32 0 with teams := [t], groups := [g], cur := some (2, 3), agenda := [] }
/-- The team of State.withFetchWord, with values in its first registers. -/
def team (p : Split) : Team :=
  { fetchTeam with
    splits := [p]
    g := [(4, 2), (8, 5)]
    v := [(1024, 7), (1025, 0x80000000), (2048, 3), (2049, 0xFFFFFFFF)]
    m := [(1, 0xF), (2, 0xFF00)] }
/-- A split in MODE x. -/
def inMode (x : Word) : Split := { fetchSplit with mode := x }
/-- The instruction is ready, and no exception that it could raise traps. -/
def ready (p : Split) (i : Instr) : Bool :=
  decide (Ready i (issuing (team p) fetchGroup) (team p) p fetchGroup) &&
    (List.range 64).all fun fl => decide (enabledException fl (team p).trapEn = none)

def r3 : FR := ⟨true, 4, 1, 2⟩
def r2 : FF := ⟨true, 4, 1⟩
def ri : FI := ⟨true, none, 4, 1, 3⟩
def rk : FK := ⟨true, none, 4, 9⟩

/-- IntegerTwoSource, ShiftsAndBitFields, IntegerOneSource, IntegerImmediates, ConstantsAndMoves, Compares: their hypotheses
hold for every instruction they name. -/
theorem witness_IntegerTwoSource : [Instr.add r3, .sub r3, .mul r3, .mulh r3, .mad r3, .min r3, .max r3, .absd r3, .and r3, .or r3,
    .xor r3, .andn r3].all (ready fetchSplit) = true := by decide +kernel
theorem witness_ShiftsAndBitFields : [Instr.shl r3, .shr r3, .sar r3, .rot r3, .bfx r3, .bfi r3].all (ready fetchSplit) = true := by
  decide +kernel
theorem witness_IntegerOneSource : [Instr.popc r2, .clz r2, .ctz r2, .brev r2, .not r2, .neg r2, .iabs r2, .sext8 r2, .sext16 r2,
    .zext8 r2, .zext16 r2].all (ready fetchSplit) = true := by decide +kernel
theorem witness_IntegerImmediates : [Instr.addi ri, .muli ri, .andi ri, .ori ri, .xori ri, .shli ri, .shri ri, .sari ri].all
    (ready fetchSplit) = true := by decide +kernel
theorem witness_ConstantsAndMoves : [Instr.movk rk, .movkh rk, .mov ⟨true, 4, 1, 0⟩, .movf ⟨true, 196, 1, 0⟩].all (ready fetchSplit) = true := by
  decide +kernel
theorem witness_Compares : [Instr.ceq ⟨true, 2, 1, 2⟩, .cne ⟨true, 2, 1, 2⟩, .clt ⟨true, 2, 1, 2⟩, .cle ⟨true, 2, 1, 2⟩, .ceqi ⟨true, none, 2, 1, 3⟩,
    .clti ⟨true, none, 2, 1, 3⟩, .clei ⟨true, none, 2, 1, 3⟩].all (ready fetchSplit) = true ∧ ready (inMode 2) (.cun ⟨true, 2, 1, 2⟩) = true := by
  decide +kernel
theorem witness_FloatingTwoAndThreeSource : [Instr.fadd r3, .fsub r3, .fmul r3, .fma r3, .fnma r3, .fmin r3, .fmax r3].all
    (ready (inMode 2)) = true := by decide +kernel
theorem witness_FloatingFunctions : [Instr.frcp r2, .frsq r2, .fsqrt r2, .fexp2 r2, .flog2 r2, .fsinpi r2, .fcospi r2, .ftanh r2,
    .ffloor r2, .fceil r2, .ftrunc r2, .frint r2, .fabs r2, .fneg r2, .fclass r2].all (ready (inMode 2)) = true := by decide +kernel
theorem witness_DotScaleConvert : ready (inMode 6) (.fdot2 r3) = true ∧ ready (inMode 9) (.idot4 r3) = true ∧
    [Instr.fscale r3, .mxscl ⟨true, 6, 2, 7⟩, .cvt ⟨true, none, 4, 0, 2⟩].all (ready (inMode 2)) = true ∧
    ready (inMode 6) (.pack r3) = true ∧ ready (inMode 6) (.unpk ⟨true, none, 4, 1, 1⟩) = true := by decide +kernel
theorem witness_ShufflesAndVotes : [Instr.shfl r3, .shflx r3, .perm r3, .voteAny ⟨true, none, 196, 1⟩, .voteAll ⟨true, none, 196, 1⟩,
    .voteBallot ⟨true, none, 3, 1⟩].all (ready fetchSplit) = true := by decide +kernel
theorem witness_ReductionsAndScans : [Instr.tred ⟨true, none, 197, 2, 0⟩, .tscan ⟨true, none, 6, 2, 0⟩, .tscan ⟨true, none, 6, 2, 1⟩,
    .wid ⟨true, none, 7, 0, 0⟩].all (ready fetchSplit) = true := by decide +kernel
theorem witness_MaskOperations : [Instr.mand ⟨true, 3, 1, 2⟩, .mor ⟨true, 3, 1, 2⟩, .mxor ⟨true, 3, 1, 2⟩, .mandn ⟨true, 3, 1, 2⟩, .mcnt ⟨true, 196, 1, 0⟩,
    .mfind ⟨true, 196, 1, 200⟩, .mget ⟨true, 4, 1, 0⟩, .mset ⟨true, 3, 1, 0⟩, .mset ⟨true, 3, 196, 200⟩, .mexec ⟨true, 3, 1, 0⟩].all
    (ready fetchSplit) = true := by decide +kernel

/-! ### Witnesses: MODE and control flow -/

/-- The instruction is ready in a state whose one team and group are these; the first split issues. -/
def readyIn (t : Team) (g : Group) (i : Instr) : Bool :=
  match t.split? 3 with
  | some p => decide (Ready i (issuing t g) t p g)
  | none => false
/-- The context of the issue. -/
def ctxIn (t : Team) (g : Group) (i : Instr) : Ctx := issueCtx i (issuing t g) t ((t.split? 3).getD fetchSplit) g
/-- The state in which the effect begins. -/
def startIn (t : Team) (g : Group) (i : Instr) : State := issueState i (issuing t g) t ((t.split? 3).getD fetchSplit)
def t0 : Team := team fetchSplit
/-- The state after the instruction. -/
def after (i : Instr) (s : State) : State := match exec i s with | .next u => u | _ => s

theorem witness_ModeNopLand :
    (ready fetchSplit (.setmode ⟨true, some ⟨false, 0x15⟩, 0, 0x602⟩) && !modeReserved 0x150602 &&
      ready fetchSplit (.setmode ⟨true, none, 0, 0x602⟩) && !modeReserved 0x602 && ready fetchSplit (.setmodeh ⟨true, none, 0, 0x15⟩) &&
      !modeReserved 0x150000 && ready fetchSplit (.nop ⟨true⟩) && ready { fetchSplit with landCheck := true } (.land ⟨false⟩)) = true := by
  decide +kernel
/-- Both outcomes of each branch: g4 is not 0 and g5 is, m1 holds active lanes and m3 none. -/
theorem witness_UniformBranches : [Instr.bra ⟨true, 2⟩, .brnz ⟨true, 196, 2⟩, .brnz ⟨true, 197, 2⟩, .brz ⟨true, 196, 2⟩, .brz ⟨true, 197, 2⟩,
    .brany ⟨true, 1, 2⟩, .brany ⟨true, 3, 2⟩, .brnone ⟨true, 1, 2⟩, .brnone ⟨true, 3, 2⟩, .jset ⟨true, 6⟩].all (ready fetchSplit) = true ∧
    (ctxIn t0 fetchGroup (.brnz ⟨true, 196, 2⟩)).g 196 = 2 ∧ (ctxIn t0 fetchGroup (.brnz ⟨true, 197, 2⟩)).g 197 = 0 ∧
    (ctxIn t0 fetchGroup (.brany ⟨true, 1, 2⟩)).m 1 &&& (ctxIn t0 fetchGroup (.brany ⟨true, 1, 2⟩)).act ≠ 0 ∧
    (ctxIn t0 fetchGroup (.brany ⟨true, 3, 2⟩)).m 3 = 0 := by decide +kernel

/-- A LAND stands at code offset 8 (fetched already), and g9 and every lane of v9 hold 8. -/
def landing : State × Team × Group :=
  let t := { t0 with g := [(4, 2), (8, 5), (9, 8), (62, 8)], v := (List.range 32).map fun l => (9 * 1024 + l, 8) }
  let s := { issuing t fetchGroup with mem := ssets 0 (State.reset.withFetchWord 32 0).mem (cellsOf 0x100008 4 0x5C000000) }
  ((s.fetch 0 0 0x100008).1, t, fetchGroup)
/-- What the landing check of a target answers where the effect begins. -/
def landsAt (i : Instr) (target : Word) : Bool :=
  let (s, t, g) := landing
  let s' := issueState i s t fetchSplit
  decide (Ready i s t fetchSplit g) && decide (s'.landing (issueCtx i s t fetchSplit g) target = (s', .land))
theorem witness_CallsAndReturns : ready fetchSplit (.call ⟨true, 4⟩) = true ∧ landsAt (.calli ⟨true, 0, 201, 0⟩) 8 = true ∧
    (ctxIn landing.2.1 fetchGroup (.calli ⟨true, 0, 201, 0⟩)).g 201 = 8 ∧
    readyIn landing.2.1 fetchGroup (.ret ⟨true⟩) = true ∧ (ctxIn landing.2.1 fetchGroup (.ret ⟨true⟩)).gAt 254 0 = 8 := by
  decide +kernel
/-- BRM with some, with all and with no active lane taking; JMPI with none and with all active. -/
theorem witness_Divergence : [Instr.brm ⟨true, 1, 4⟩, .brm ⟨true, 3, 4⟩, .jmpi ⟨true, 0, 9, 0⟩].all (ready fetchSplit) = true ∧
    t0.handler = none ∧ fetchSplit ∈ t0.splits ∧ t0.deferred.length ≤ fetchGroup.spill ∧ fetchSplit.pj = none ∧ 1 ≤ t0.freeSlots ∧
    (let c := ctxIn t0 fetchGroup (.brm ⟨true, 1, 4⟩); c.act &&& c.m 1 ≠ 0 ∧ c.act &&& ~~~(c.act &&& c.m 1) ≠ 0) ∧
    (let c := ctxIn { t0 with m := [(1, 0xFFFFFFFF)] } fetchGroup (.brm ⟨true, 1, 4⟩); c.act &&& ~~~(c.act &&& c.m 1) = 0) ∧
    readyIn { t0 with m := [(1, 0xFFFFFFFF)] } fetchGroup (.brm ⟨true, 1, 4⟩) = true ∧
    ready { fetchSplit with exec := 0 } (.jmpi ⟨true, 0, 9, 0⟩) = true ∧ landsAt (.jmpi ⟨true, 0, 9, 0⟩) 8 = true := by decide +kernel
/-- JMPI with two targets, at both of which a LAND stands. -/
theorem witness_jmpi_targets :
    let g := fetchGroup
    let t := { t0 with v := (List.range 32).map fun l => (9 * 1024 + l, if l % 2 = 0 then 8 else 12) }
    let s0 := { issuing t g with mem := ssets 0 (State.reset.withFetchWord 32 0).mem (cellsOf 0x100008 8 0x5C0000005C000000) }
    let s := (s0.fetch 0 0 0x100008).1
    let i : Instr := .jmpi ⟨true, 0, 9, 0⟩
    let c := issueCtx i s t fetchSplit g
    Ready i s t fetchSplit g ∧ (c.lanes.map fun l => BitVec.ofNat 32 (c.src 9 l)).eraseDups = [(8 : Word), 12] ∧
    [(8 : Word), 12].all (fun x => decide ((issueState i s t fetchSplit).landing c x = (issueState i s t fetchSplit, .land))) = true ∧
    2 - 1 ≤ t.freeSlots ∧ t.handler = none ∧ t.deferred = [] := by decide +kernel

/-- A split of a divergence, its join record at PC 0, and another split that still runs. -/
def joining (members : Nat) (pc : Word) : Team :=
  { t0 with
    splits := [{ fetchSplit with own := 0xF, exec := 0xF, jlink := some 9, pc := pc }, { uid := 4, slot := 1, own := 0xFFFFFFF0, exec := 0xFFFFFFF0 }]
    joins := [(9, { jpc := 0, smode := 2, members := members, host := none, parent := none })] }
theorem witness_JoinYieldExitBar :
    ready fetchSplit (.join ⟨true⟩) = true ∧ readyIn (joining 2 0) fetchGroup (.join ⟨true⟩) = true ∧
    readyIn (joining 1 0) fetchGroup (.join ⟨true⟩) = true ∧ readyIn (joining 2 4) fetchGroup (.join ⟨true⟩) = true ∧
    (issuing (joining 2 0) fetchGroup).arming 2 3 = false ∧ ready fetchSplit (.yield ⟨true⟩) = true ∧
    ready fetchSplit (.exit ⟨true⟩) = true ∧ readyIn (joining 2 0) fetchGroup (.exit ⟨true⟩) = true ∧ t0.depth = 0 := by decide +kernel
/-- A later arrival: split 5 waits at the JOIN, as the only other member, or beside split 4 that still runs. -/
def hosting (members : Nat) : Team :=
  let t := joining members 0
  { t with
    splits := t.splits ++ [{ uid := 5, slot := 2, own := 0xF0, exec := 0xF0, jlink := some 9, st := .joinWait }]
    joins := [(9, { jpc := 0, smode := 2, members := members, host := some 5, parent := none })] }
theorem witness_join_host : [1, 2].all (fun m => readyIn (hosting m) fetchGroup (.join ⟨true⟩) &&
      decide ((hosting m).live.map (·.uid)).Nodup && !((issuing (hosting m) fetchGroup).arming 2 3)) = true ∧
    ((hosting 2).joinRec? 9).bind JoinRec.host = some 5 ∧ (hosting 2).live.any (fun q => decide (q.uid = 4 ∧ q.st = .ready)) = true := by decide +kernel
/-- A group of two teams, the other not at the barrier. -/
theorem witness_bar : let s := { issuing t0 fetchGroup with teams := [t0, { t0 with id := 5, slot := 1 }] }
    Ready (.bar ⟨true, none, 0, 0, 3⟩) s t0 fetchSplit fetchGroup ∧ s.performedFor 2 3 2 = true ∧ t0.arrived = none ∧
    (sget (0, 0) fetchGroup.bars 3).2 + 1 < (s.livingTeams 1).length := by decide +kernel
/-- The other team has arrived, so that the phase flips. -/
theorem witness_bar_flip :
    let g : Group := { fetchGroup with bars := [(3, 0, 1)] }
    let there : Team := { t0 with id := 5, slot := 1, arrived := some 3, splits := [{ fetchSplit with uid := 6, st := .barWait, barid := 3 }] }
    let s := { issuing t0 g with teams := [t0, there] }
    Ready (.bar ⟨true, none, 0, 0, 3⟩) s t0 fetchSplit g ∧
    (issueState (.bar ⟨true, none, 0, 0, 3⟩) s t0 fetchSplit).performedFor 2 3 2 = true ∧ t0.arrived = none ∧
    (sget (0, 0) g.bars 3).2 + 1 = (s.livingTeams 1).length := by decide +kernel

/-! ### Witnesses: memory instructions -/

/-- A group with a window, private areas and an accumulator; b2 names 4-byte elements at 0x100800, read, written and executed
by the page that State.withFetchWord maps; v7 holds the lane numbers times 4. -/
def grp : Group := { fetchGroup with privBytes := 64, ws := 4096, xb := 2048, widths := [32] }
def recAt (base extent w3 : Nat) : BufRec := BitVec.ofNat 128 (base + extent * 2 ^ 64 + w3 * 2 ^ 96)
def mt : Team := { t0 with b := [(2, recAt 0x100800 100 0x30002)], g := [(4, 256), (8, 5)], v := [] }
/-- An access is formed, has a request, none parked, and finds room. -/
def launches (t : Team) (g : Group) (i : Instr) (path : Nat) (store : Bool) (formed : State → Ctx → Formed) : Bool :=
  readyIn t g i && decide ((startIn t g i).counter 2 path < 63) &&
    match formed (startIn t g i) (ctxIn t g i) with
    | .ok s1 _ reqs => decide (reqs ≠ []) && reqs.all (fun r => decide (r.st ≠ .parked)) && (store || !s1.readSetFull (ctxIn t g i) reqs)
    | _ => false
def fm : FMem := ⟨true, 4, 7, 2, 4⟩
def lanesAt (c : Ctx) (x : Nat) : List (Nat × LaneAcc) := c.lanes.map fun l => (c.src x l, { lane := l, off := 0 })
def rec2 (c : Ctx) : BufRec := BitVec.ofNat 128 (c.rd .b 2 0)
theorem witness_GlobalAccessesIssue :
    launches mt grp (.ld fm) 0 false (fun s c => s.formGlobal c { path := 0, n := 4, recNo := 2 } (rec2 c) false (lanesAt c 7)) = true ∧
    launches mt grp (.lda fm) 0 false (fun s c => s.formGlobal c { path := 0, n := 4, recNo := 2 } (rec2 c) false (lanesAt c 7)) = true ∧
    launches { mt with b := [(2, recAt 0x100800 100 0x90002)] } grp (.ldk fm) 6 false (fun s c => s.formGlobal c { path := 6, n := 4, recNo := 2 } (rec2 c) true (lanesAt c 7)) = true ∧
    [Instr.st fm, .str fm].all (fun i => launches mt grp i 1 true fun s c =>
      s.formGlobal c { path := 1, n := 4, store := true, need := { w := true }, recNo := 2 } (rec2 c) false (lanesAt c 7)) = true := by
  decide +kernel

def fl : FL := ⟨true, 4, 7, 0, 4⟩
/-- A yard of the group, and a context with Loft storage. -/
def inYard (s : State) : State :=
  { s with yards := [{ asid := 0, key := 1, members := [{ group := 1, idx := 0 }] }]
           ctxs := s.ctxs.map fun x => { x with loftSize := 65536 } }
/-- The same where the state is made more of. -/
def launchesOn (f : State → State) (t : Team) (g : Group) (i : Instr) (path : Nat) (store : Bool) (formed : State → Ctx → Formed) : Bool :=
  let s := f (issuing t g)
  let p := (t.split? 3).getD fetchSplit
  let s1 := issueState i s t p
  let c := issueCtx i s t p g
  decide (Ready i s t p g) && decide (s1.counter 2 path < 63) &&
    match formed s1 c with
    | .ok s2 _ reqs => decide (reqs ≠ []) && reqs.all (fun r => decide (r.st ≠ .parked)) && (store || !s2.readSetFull c reqs)
    | _ => false
theorem witness_LocalAccessesIssue :
    [(Instr.lds fl, Level.win), (.ldy fl, .yard), (.ldl fl, .loft)].all (fun x => launchesOn inYard
      { mt with v := (List.range 32).map fun l => (7 * 1024 + l, 256) } grp x.1 x.2.path false fun s c =>
        s.formLocal c x.2 0 4 4 false false (lanesAt c 7)) = true ∧
    [(Instr.sts fl, Level.win), (.sty fl, .yard), (.stl fl, .loft)].all (fun x => launchesOn inYard
      { mt with v := (List.range 32).map fun l => (7 * 1024 + l, 256) } grp x.1 x.2.path true fun s c =>
        s.formLocal c x.2 0 4 4 true false (lanesAt c 7)) = true ∧
    launchesOn inYard mt grp (.ldp fl) Level.priv.path false (fun s c => s.formLocal c .priv 0 4 4 false false (lanesAt c 7)) = true ∧
    launchesOn inYard mt grp (.stp fl) Level.priv.path true (fun s c => s.formLocal c .priv 0 4 4 true false (lanesAt c 7)) = true := by
  decide +kernel
theorem witness_AtomicsIssue :
    launches mt grp (.atom ⟨true, 4, 7, 2, 0⟩) 1 true (fun s c =>
      s.formGlobal c { path := 1, n := 4, store := true, need := { r := true, w := true }, recNo := 2 } (rec2 c) false (lanesAt c 7)) = true ∧
    [0xFFFFFFFF, 0].all (fun x => launches { mt with splits := [{ fetchSplit with exec := x }], g := [] } grp (.atagg ⟨true, 4, 198, 2, 0⟩) 1 true
      fun s c => s.formGlobal c { path := 1, n := 4, store := true, need := { r := true, w := true }, recNo := 2, uniform := true } (rec2 c)
        false [(0, { lane := 0, off := 0 })]) = true ∧
    launches { mt with v := (List.range 32).map fun l => (7 * 1024 + l, 256) } grp (.latom ⟨true, 4, 7, 0, 0⟩) 2 true (fun s c =>
      s.formLocal c .win 0 4 4 true false (lanesAt c 7)) = true ∧
    launches mt grp (.msts ⟨true, 3, 196, 0, 4⟩) 2 true (fun s c => s.formLocal c .win 0 4 4 true true [(256, { lane := 0, off := 0 })]) = true ∧
    launches mt grp (.mlds ⟨true, 196, 3, 0, 4⟩) 2 false (fun s c => s.formLocal c .win 0 4 4 false true [(256, { lane := 0, off := 0 })]) = true := by
  decide +kernel

def fe : FE := ⟨true, 0, 0, 0⟩
theorem witness_MonitorsFencesMaintenance :
    launchesOn (fun s => s.disarm 2 3) { mt with g := [] } grp (.arm ⟨true, 0, 198, 2, 4⟩) 0 false (fun s c =>
      ((s.disarm 2 3).dropArms 2 3).formGlobal c { path := 0, n := 4, uniform := true, recNo := 2 } (rec2 c) false [(0, { lane := 0, off := 0 })]) = true ∧
    [fetchSplit, { fetchSplit with mon := .fired }, { fetchSplit with mon := .armed }].all (fun p => ready p (.waitmon ⟨true, none, 196, 197, 0⟩)) = true ∧
    [Instr.fenceFull ⟨true, none, 0, 0, 0, 0⟩, .fenceAcq ⟨true, none, 0, 0, 0, 5⟩, .fenceRel ⟨true, none, 0, 0, 0, 6⟩,
      .fenceStrict ⟨true, none, 0, 0, 0, 7⟩, .cmaint ⟨true, none, 0, 202, 3⟩, .icinv ⟨true, 0, 202, 204⟩].all (ready fetchSplit) = true ∧
    readyIn mt grp (.cmaint ⟨true, none, 0, 202, 0x46⟩) = true ∧
    (let t := { mt with g := [(10, 0x100000)] }
     readyIn t grp (.cmaint ⟨true, none, 0, 202, 6⟩) = true ∧
     (match ((startIn t grp (.cmaint ⟨true, none, 0, 202, 6⟩)).lineOf (some 0) 0 0x100000 { r := true }).2 with
       | .ok _ line _ => line | _ => 0) = 0x100000 / 64) := by decide +kernel

/-- The page at VA 0x101000 is mapped to the near aperture, the page at 0x100000 to far memory. -/
def farAndNear (s : State) : State := { s with slotsFixed := true, mem := ssets 0 s.mem (cellsOf (0x13000 + 8 * 0x101) 8 0x400000001F) }
theorem witness_RecordsAndPromotion :
    readyIn { mt with g := [(8, 0x100800), (10, 100), (11, 0x30002)] } grp (.bset ⟨true, 3, 200, 0⟩) = true ∧
    readyIn mt grp (.bget ⟨true, 204, 2, 0⟩) = true ∧
    readyIn { mt with g := [(10, 10), (11, 5)] } grp (.bnar ⟨true, 4, 2, 202⟩) = true ∧
    (bufNarrow (recAt 0x100800 100 0x30002) 10 5).isSome = true ∧
    launches { mt with g := [] } grp (.bld ⟨true, 5, 194, 2, 6⟩) 0 false (fun s c =>
      s.formGlobal c { path := 0, n := 16, uniform := true, recNo := 2 } (rec2 c) false [(0, { lane := 0, off := 0 })]) = true := by
  decide +kernel
/-- PROMOTE and DEMOTE of a far and of a near page. -/
def backedBy (i : Instr) (va : Nat) : Option (Bool × Bool) :=
  let t := { mt with g := [(10, va)] }
  let s := farAndNear (issuing t grp)
  if decide (Ready i s t fetchSplit grp) then
    match (issueState i s t fetchSplit).lineOf (some 0) 0 va { r := true, anyOwner := true, anyKey := true } with
    | (s1, .ok _ line _) => match s1.backing (line * 64) with
      | .far _ => some (true, (s1.locate (line * 64)).isSome && (match s1.locate (line * 64) with | some (ch, _) => decide (s1.channelQueue ch < 16) | none => false))
      | .near _ => some (false, true)
      | _ => none
    | _ => none
  else none
theorem witness_promotion : backedBy (.promote ⟨true, 196, 202, 1⟩) 0x100000 = some (true, true) ∧
    backedBy (.demote ⟨true, 196, 202, 0⟩) 0x100000 = some (true, true) ∧
    backedBy (.promote ⟨true, 196, 202, 1⟩) 0x101000 = some (false, true) ∧
    backedBy (.demote ⟨true, 196, 202, 0⟩) 0x101000 = some (false, true) := by decide +kernel

/-! ### Witnesses: system instructions and traps -/

def canTrap (t : Team) (g : Group) (i : Instr) (code : Nat) : Bool :=
  decide (Starts i (issuing t g) t ((t.split? 3).getD fetchSplit) g) &&
    decide (CanTrap (issuing t g) t ((t.split? 3).getD fetchSplit) g code)
/-- What SWRITE of g4 to a register would change of its read-only bits. -/
def changes (t : Team) (idx : Byte) : Word :=
  let i : Instr := .swrite ⟨true, idx, 196, 0⟩
  ((BitVec.ofNat 32 ((ctxIn t grp i).g 196)) ^^^ BitVec.ofNat 32 ((startIn t grp i).special (ctxIn t grp i) idx.toNat)) &&&
    ~~~(BitVec.ofNat 32 (writable idx.toNat))
/-- SREAD of every kind of register; SWRITE of each writable one, of a read-only bit, and of a MODE that R30 rules out. -/
theorem witness_SpecialRegisters :
    [0, 1, 6, 7, 8, 9, 15, 22, 23, 24, 30].all (fun x => ready fetchSplit (.sread ⟨true, 196, x, 0⟩)) = true ∧
    [0, 12, 13, 14, 15, 16, 17, 24].all (fun x => readyIn { mt with g := [(4, 4)] } grp (.swrite ⟨true, x, 196, 0⟩) &&
      decide (changes { mt with g := [(4, 4)] } x = 0)) = true ∧
    (readyIn mt grp (.swrite ⟨true, 1, 196, 0⟩) && decide (changes mt 1 ≠ 0) && canTrap mt grp (.swrite ⟨true, 1, 196, 0⟩) 19) = true ∧
    (let t := { mt with g := [(4, 0x60)] }
     readyIn t grp (.swrite ⟨true, 0, 196, 0⟩) && decide (changes t 0 = 0) && modeReserved 0x60 && canTrap t grp (.swrite ⟨true, 0, 196, 0⟩) 19)
      = true := by decide +kernel
/-- Encoding faults of a lane-form result in a g register (5) and of an odd pair (17 or lower), and a handler. -/
theorem witness_ChecksBeforeIssue :
    lowest (encodingFaults (.add ⟨true, 196, 1, 2⟩) 0 8) = some 5 ∧ canTrap t0 fetchGroup (.add ⟨true, 196, 1, 2⟩) 5 = true ∧
    hasWords (.add ⟨true, 196, 1, 2⟩) = true ∧
    (let t := { t0 with handler := some fetchSplit, sstatHi := 16 }
     [Instr.jset ⟨true, 1⟩, .join ⟨true⟩, .yield ⟨true⟩, .bar ⟨true, none, 0, 0, 0⟩, .claim ⟨true, 196, 197, 0⟩, .release ⟨true, 196, 197, 0⟩,
       .region ⟨true, 0, 0, 0⟩, .node ⟨true, 196, 200, 0⟩].all (fun i => canTrap t fetchGroup i 151 &&
         decide (lowest (encodingFaults i 0 8) = none))) = true := by decide +kernel
theorem witness_TrapInstructions :
    (ready fetchSplit (.trap ⟨true, 5, 196, 0⟩) && canTrap t0 fetchGroup (.trap ⟨true, 5, 196, 0⟩) 293 &&
      ready fetchSplit (.trap ⟨true, 31, 0, 0⟩) && canTrap t0 fetchGroup (.trap ⟨true, 31, 0, 0⟩) 319 &&
      ready fetchSplit (.bkpt ⟨true, 7, 0, 0⟩) && canTrap t0 fetchGroup (.bkpt ⟨true, 7, 0, 0⟩) 161 &&
      canTrap t0 fetchGroup (.halt ⟨true, 0, 0, 0⟩) 20 && canTrap t0 fetchGroup (.halt ⟨true, 0, 0, 3⟩) 20 &&
      canTrap t0 fetchGroup (.ext ⟨true, 0, 0x01030102⟩) 11 && canTrap t0 fetchGroup (.ext ⟨false, 0, 0x01030102⟩) 11) = true := by
  decide +kernel

/-- Under TRAPEN = 0x1F and SAT, v1 = 1 in every lane: an instruction raises an exception that is enabled. -/
def trapping (mode v1 v2 : Nat) : Team :=
  { t0 with splits := [inMode (BitVec.ofNat 32 mode)], sticky := 0x1F0000
            v := (List.range 32).map (fun l => (1024 + l, BitVec.ofNat 32 v1)) ++ (List.range 32).map (fun l => (2048 + l, BitVec.ofNat 32 v2)) }
def raises (t : Team) (i : Instr) (f : Ctx → Nat → Nat → Nat × Nat) : Bool :=
  readyIn t fetchGroup i && match enabledException ((Dest.typed 4).flags (ctxIn t fetchGroup i) f) t.trapEn with
    | some x => canTrap t fetchGroup i (96 + 9 * x + typeGroup (ctxIn t fetchGroup i).et)
    | none => false
def on1 (f : Fmt → RMode → FV → Nat × Nat) (c : Ctx) (l k : Nat) : Nat × Nat := f (etFmt c.et) (c.round false l k) (c.flt 1 l k)
/-- A signalling NaN, and 1 / 0, and 1 + 2^-24: each of the floating instructions traps on some operands. -/
theorem witness_ArithmeticTraps :
    raises (trapping 2 0x7F800001 0) (.fadd r3) (fun c l k =>
      addFV (etFmt c.et) (c.round false l k) (c.flt 1 l k) (c.flt 2 l k) [c.flt 1 l k, c.flt 2 l k]) = true ∧
    raises (trapping 2 0x7F800001 0) (.fmul r3) (fun c l k => mulFV (etFmt c.et) (c.round false l k) (c.flt 1 l k) (c.flt 2 l k)) = true ∧
    raises (trapping 2 0x7F800001 0) (.fma r3) (fun c l k => fmaFV (etFmt c.et) (c.round false l k) (c.flt 1 l k) (c.flt 2 l k) (c.flt 4 l k)
      [c.flt 1 l k, c.flt 2 l k, c.flt 4 l k]) = true ∧
    raises (trapping 2 0 0) (.frcp r2) (on1 rcpFV) = true ∧ raises (trapping 2 0xBF800000 0) (.fsqrt r2) (on1 sqrtFV) = true ∧
    raises (trapping 2 0x7F800001 0) (.fexp2 r2) (on1 exp2FV) = true := by decide +kernel

def inHandler (depth lo : Nat) : Team :=
  { t0 with handler := some { fetchSplit with uid := 3 }, splits := [{ fetchSplit with uid := 4 }], sstatHi := BitVec.ofNat 32 (16 * depth),
            sstatLo := BitVec.ofNat 32 lo, epc := 0x140, saved1 := if depth = 2 then some ⟨1, 2, 3, 4, 5⟩ else none }
theorem witness_TrapReturn :
    readyIn (inHandler 1 2) fetchGroup (.tret ⟨true, 0, 0, 0⟩) = true ∧ readyIn (inHandler 2 2) fetchGroup (.tret ⟨true, 0, 0, 0⟩) = true ∧
    (inHandler 1 2).depth = 1 ∧ (inHandler 2 2).depth = 2 ∧ modeReserved (inHandler 1 2).sstatLo = false ∧
    ready fetchSplit (.tret ⟨true, 0, 0, 0⟩) = true ∧ t0.depth = 0 ∧ canTrap t0 fetchGroup (.tret ⟨true, 0, 0, 0⟩) 152 = true := by
  decide +kernel
/-- SKIP = 1, with a word of 4 bytes at EPC and with EXT there, which has been fetched. -/
def skips (depth : Nat) (w : Word) : Bool :=
  let t := { inHandler depth 2 with sstatHi := BitVec.ofNat 32 (16 * depth + 8) }
  let s0 := { issuing t fetchGroup with mem := ssets 0 (State.reset.withFetchWord 32 0).mem (cellsOf 0x100140 4 w.toNat) }
  let s := (s0.fetch 0 0 0x100140).1
  let i : Instr := .tret ⟨true, 0, 0, 0⟩
  t.handler.any fun p => decide (Ready i s t p fetchGroup) && decide ((issueState i s t p).fetch 0 0 0x100140 = (issueState i s t p, .ok w)) &&
    t.sstatHi.getLsbD 3 && decide (t.depth = depth)
theorem witness_skip : ([1, 2].all fun d => skips d 0x01030102 && skips d 0x7F000003) = true := by decide +kernel
/-- CLAIM and RELEASE of 0 and of 2 granules, and the largest request of SETPERF. -/
theorem witness_RegionsAndRequests :
    [Instr.region ⟨true, 0, 0, 0⟩, .claim ⟨true, 198, 196, 0⟩, .claim ⟨true, 198, 197, 0⟩, .release ⟨true, 198, 196, 0⟩, .release ⟨true, 198, 197, 0⟩,
      .setperf ⟨true, 0, 196, 0⟩].all (ready fetchSplit) = true ∧
    (ctxIn t0 fetchGroup (.claim ⟨true, 198, 196, 0⟩)).g 196 = 2 ∧ (ctxIn t0 fetchGroup (.claim ⟨true, 198, 197, 0⟩)).g 197 = 0 ∧
    ((issuing t0 fetchGroup).quadOf 0 0).claims = [] ∧ 2 ≤ (issuing t0 fetchGroup).freeUnits 0 0 ∧
    (issuing t0 fetchGroup).outstanding t0 = false ∧ (t0.gran + 2) * 32 * t0.size ≤ 524288 := by decide +kernel

/-- A node of KIND 1 with handle 2 (that g4 names), the node of the group, with a join counter, and a reply to ticket 5. -/
def hdr : Header :=
  { urgent := false, yard := false, region := false, trapDepth := false, idem := false, widths := [1, 1, 1], exts := [1, 1, 1], ws := 256, xb := 0,
    privBytes := 0, accSlots := 0, spill := 0, pwr := 0, prio := 0, retry := 0, loftReq := 0, jca := 0x100900, roles := [], records := [],
    param := none, tiles := [], kind := 1, maxd := 0, codeBase := 0 }
def withNode (s : State) : State :=
  { s with nodes := [{ id := 0, handle := 2, asid := 0, hdrAddr := 0, spawned := true, header := some hdr }]
           tickets := [(5, .team 2 (some ⟨5, 0, 1, 2, true⟩))] }
theorem witness_NodesAndCalls :
    let s := withNode (issuing t0 fetchGroup)
    (∀ i ∈ [Instr.node ⟨true, 198, 200, 0⟩, .emit ⟨true, 196, 200, 0⟩, .rpc ⟨true, 198, 200, 0⟩, .rpcwait ⟨true, 198, 200, 0⟩, .tmark ⟨true, 0, 196, 0⟩,
      .jcadd ⟨true, 0, 200, 0⟩], Ready i s t0 fetchSplit fetchGroup) ∧
    s.teamPerformed 2 = true ∧ 64 < s.poolFree ∧ s.allPerformed 2 3 = true ∧ s.unanswered 2 < 4 ∧ s.rpcQ = [] ∧
    (issueCtx (.rpcwait ⟨true, 198, 200, 0⟩) s t0 fetchSplit fetchGroup).g 200 % 256 = 5 ∧
    s.tickets.find? (fun x => decide (x.1 = 5)) = some (5, .team 2 (some ⟨5, 0, 1, 2, true⟩)) ∧
    (s.node? 0).map Node.jca = some 0x100900 ∧ (issueState (.jcadd ⟨true, 0, 200, 0⟩) s t0 fetchSplit).counter 2 1 < 63 := by
  decide +kernel
/-- A ticket is free where not all are in use. -/
theorem freeTicket_some (s : State) (lo hi j : Nat) (h1 : lo ≤ j) (h2 : j < hi) (h3 : ∀ q ∈ s.tickets, q.1 ≠ j) :
    ∃ k, s.freeTicket lo hi = some k := by
  unfold State.freeTicket
  dsimp only
  generalize hl : ((List.range (hi - lo)).map (lo + ·)).filter (fun k => !(s.tickets.any fun q => decide (q.1 = k))) = l
  have hm : j ∈ l := by
    rw [← hl, List.mem_filter]
    refine ⟨List.mem_map.2 ⟨j - lo, List.mem_range.2 (by omega), by omega⟩, ?_⟩
    simp only [Bool.not_eq_true', List.any_eq_false, decide_eq_true_eq]
    exact h3
  have hp : 0 < l.length := List.length_pos_of_mem hm
  exact ⟨_, List.getElem?_eq_getElem (Nat.mod_lt _ hp)⟩
theorem witness_rpc : ∃ k, (withNode (issuing t0 fetchGroup)).freeTicket 32 256 = some k :=
  freeTicket_some _ 32 256 40 (by decide) (by decide) (by decide +kernel)
/-- A full pool, a node that g4 does not name, a ring of the watched context. -/
def fullPool : State :=
  { issuing t0 fetchGroup with nodes := [{ id := 0, handle := 7, asid := 0, hdrAddr := 0, spawned := true, records := List.replicate 4031 ⟨[], 0⟩ }] }
def tracing : State := { fullPool with dbg := { fullPool.dbg with ringSize := 4096, ringBase := 0x4000 } }
theorem witness_NodesAndCalls_edges :
    fullPool.poolFree = 64 ∧ Ready (.node ⟨true, 198, 200, 0⟩) fullPool t0 fetchSplit fetchGroup ∧
    Ready (.emit ⟨true, 196, 200, 0⟩) fullPool t0 fetchSplit fetchGroup ∧ (∀ m ∈ fullPool.nodes, m.handle ≠ 2) ∧
    (issueCtx (.emit ⟨true, 196, 200, 0⟩) fullPool t0 fetchSplit fetchGroup).g 196 = 2 := by decide +kernel
theorem witness_tracing : Ready (.tmark ⟨true, 0, 196, 0⟩) tracing t0 fetchSplit fetchGroup ∧ fetchGroup.asid = tracing.dbg.asid ∧
    tracing.dbg.ringRp = tracing.dbg.ringWp ∧ 16 < tracing.dbg.ringSize := by decide +kernel

/-! ### Witnesses: engines -/

/-- Every listed instruction is ready in a state of this team and group. -/
def readyAll (t : Team) (g : Group) (l : List Instr) : Bool := l.all (readyIn t g)
/-- A group with a window, an accumulator and a queue that is full or halted. -/
def eg : Group := { grp with accSlots := 4 }
def full (sel : Nat) : Group := { eg with engs := [(sel, { accepted := 32 })] }
theorem witness_CopyCommandsAccepted :
    readyAll mt eg [.copy ⟨true, 212, 200, 0⟩, .copy2d ⟨true, 212, 200, 0⟩, .gather ⟨true, 212, 200, 0⟩, .scatter ⟨true, 212, 200, 0⟩,
      .coll ⟨true, 212, 200, 0⟩, .rast ⟨true, 212, 200, 0⟩] = true ∧
    readyAll mt (full 0) [.copy ⟨true, 212, 200, 0⟩] = true ∧ 32 ≤ ((full 0).eng 0).accepted - ((full 0).eng 0).c := by decide +kernel
theorem witness_RayCommandsAccepted :
    readyAll mt eg [.trace ⟨true, 212, 200, 24⟩, .rres ⟨true, 212, 200, 0⟩, .tpload ⟨true, 212, 204, 0⟩] = true ∧
    (ctxIn mt eg (.trace ⟨true, 212, 200, 24⟩)).lanes.length = 32 ∧ (issuing mt eg).coreRays 0 = 0 ∧
    readyAll { mt with splits := [{ fetchSplit with exec := 0 }] } eg [.trace ⟨true, 212, 200, 24⟩, .rres ⟨true, 212, 200, 0⟩] = true := by
  decide +kernel
/-- A team that holds a 32 by 32 grid with its token; g16 is a descriptor of slot 0, g17 one of slot 1. -/
def gt : Team := { t0 with g := [(17, 1)], grid := some { shape := 0, quads := [0], tokens := 1 } }
theorem witness_MatrixCommandsAccepted :
    readyAll gt eg [.mloop ⟨true, 208, 200, 212⟩, .mlda ⟨true, 208, 204, 0⟩, .msta ⟨true, 208, 204, 0⟩, .macc ⟨true, 208, 209, 0⟩] = true ∧
    readyAll { gt with splits := [{ fetchSplit with exec := 0 }] } eg [.mloop ⟨true, 208, 200, 212⟩] = true ∧
    (ctxIn gt eg (.mloop ⟨true, 208, 200, 212⟩)).lanes ≠ [] ∧ dShape ((ctxIn gt eg (.mloop ⟨true, 208, 200, 212⟩)).g 208) = 0 ∧
    eg.anyInv (tileSlots 0 ++ tileSlots 1) = false ∧ eg.pendingIn (tileSlots 0 ++ tileSlots 1) (fun e => decide (e ≠ 2)) = false := by
  decide +kernel
theorem witness_GridAndTiles :
    readyAll t0 eg [.grid ⟨true, 0, 0, 0⟩, .grid ⟨true, 2, 0, 0⟩] = true ∧ (issuing t0 eg).gridFits 0 (gridQuads 0 0) = true ∧
    (issuing t0 eg).gridFits 0 (gridQuads 2 0) = true ∧
    readyAll gt eg [.ungrid ⟨true, 0, 0, 0⟩, .mzero ⟨true, 0, 208, 0⟩, .mrd ⟨true, 30, 208, 0⟩, .mwr ⟨true, 208, 30, 0⟩, .mstat ⟨true, 210, 208, 0⟩,
      .mwait ⟨true, 0, 208, 0⟩] = true ∧
    (issuing gt eg).gridHalt gt = none ∧ (issuing gt eg).gridWork gt = false ∧ (ctxIn gt eg (.mzero ⟨true, 0, 208, 0⟩)).descBad 0 = false ∧
    eg.pending (tileSlots 0) = false ∧ eg.tileHalt (tileSlots 0) = none ∧
    readyAll { gt with splits := [{ fetchSplit with exec := 0 }] } eg [.mxv ⟨true, 40, 216, 21⟩, .rbox ⟨true, 40, 200, 24⟩] = true := by
  decide +kernel
/-- MXV over 32 rows of one column from the window, x in v2; RBOX over boxes in the window. -/
def vt : Team := { gt with g := [(24, 0x20000100), (26, 32), (27, 2), (28, 32), (8, 0x20000100)], v := [] }
theorem witness_mxv_rbox :
    readyAll vt eg [.mxv ⟨true, 40, 216, 21⟩, .rbox ⟨true, 40, 200, 24⟩] = true ∧ weightOk 0 = true ∧
    (let c := ctxIn vt eg (.mxv ⟨true, 40, 216, 21⟩)
     mxvBlockBad 0 (c.block 216 8) = false ∧ c.gAt 216 0 = 0x20000100 ∧ c.gAt 216 2 % 65536 = 32 ∧ c.gAt 216 4 = 32 ∧ c.gAt 216 3 % 256 = 2 ∧
       2 + (32 + vt.size - 1) / vt.size ≤ 8 * vt.gran ∧ ∀ l ∈ c.lanes, c.src 21 l = 0) ∧
    (let c := ctxIn vt eg (.rbox ⟨true, 40, 200, 24⟩)
     (∀ k < 7, c.gAt 200 (k + 1) = 0) ∧ operandBad (c.gAt 200 0) = false) := by decide +kernel
/-- WAITT of a reached, an awaited, an unaccepted number, and of a halted context; GRES; QRES of both kinds of context. -/
def halted : Group := { eg with engs := [(0, { accepted := 3, c := 1, halted := some 193 })] }
def running : Group := { eg with engs := [(0, { accepted := 3, c := 2 })] }
theorem witness_WaitsAndGuards :
    [1, 2, 3, 4].all (fun x => readyIn { t0 with g := [(24, x)] } running (.waitt ⟨true, 0, 216, 0⟩)) = true ∧
    [3, 4].all (fun x => canTrap { t0 with g := [(24, x)] } halted (.waitt ⟨true, 0, 216, 0⟩) 193) = true ∧
    readyIn { t0 with g := [(24, 3)] } halted (.waitt ⟨true, 0, 216, 0⟩) = true ∧
    canTrap { t0 with g := [(24, 4)] } running (.waitt ⟨true, 0, 216, 0⟩) 199 = true ∧
    readyAll t0 eg [.waitp ⟨true, 1, 197, 0⟩, .tlget ⟨true, 208, 0, 0⟩, .rpoll ⟨true, 196, 0, 0⟩, .gres ⟨true, 0, 201, 2⟩, .qres ⟨true, 0, 201, 0⟩] = true ∧
    readyIn t0 halted (.qres ⟨true, 0, 201, 0⟩) = true := by decide +kernel
/-- g12 names a barrier object at window offset 256, g6 a key of a yard. -/
def bt : Team := { t0 with g := [(12, 0x20000100), (6, 1)] }
def located (i : Instr) (write : Bool) : Bool :=
  match (startIn bt eg i).formLocal (ctxIn bt eg i) .win 0 16 16 write true [(256, { lane := 0, off := 0 })] with
  | .ok s1 _ [r] => s1.lineClear (ctxIn bt eg i) r.space r.line && s1.releasedAt 2 .win
  | _ => false
theorem witness_BarrierObjectsAndYards :
    readyAll bt eg [.binit ⟨true, 204, 204, 0⟩, .barv ⟨true, 196, 204, 0⟩, .bwait ⟨true, 196, 204, 0⟩, .bstat ⟨true, 196, 204, 0⟩,
      .yjoin ⟨true, 196, 198, 0⟩, .yleave ⟨true, 196, 0, 0⟩] = true ∧
    barLevel 0x20000100 = some .win ∧ located (.binit ⟨true, 204, 204, 0⟩) true = true ∧ located (.barv ⟨true, 196, 204, 0⟩) true = true ∧
    located (.bwait ⟨true, 196, 204, 0⟩) false = true ∧ located (.bstat ⟨true, 196, 204, 0⟩) false = true ∧
    readyAll bt { eg with yardOk := true } [.yjoin ⟨true, 196, 198, 0⟩] = true ∧ (issuing bt eg).yardOf 1 = none ∧
    (let s := inYard (issuing bt eg); Ready (.yleave ⟨true, 196, 0, 0⟩) s bt fetchSplit eg ∧ s.yardOf 1 ≠ none) := by decide +kernel
theorem witness_BuildHelpers : readyAll t0 eg [.boxu ⟨true, 8, 16, 0⟩, .sah ⟨true, 30, 16, 0⟩, .npack ⟨true, 16, 32, 0⟩] = true := by decide +kernel

/-- A team of 64 lanes; the request list starts at window offset 0x400. -/
def wide : Team :=
  { bt with size := 64, present := 0xFFFFFFFFFFFFFFFF, splits := [{ fetchSplit with own := 0xFFFFFFFFFFFFFFFF, exec := 0xFFFFFFFFFFFFFFFF }]
            g := [(8, 0x20000400), (9, 0x10001), (11, 0x20000800), (12, 0x20000100), (13, 0x10001)] }
def shading : Group := { eg with atlas := { list := some (0x20000400, []), count := 3, next := 1 } }
def wp : Split := (wide.split? 3).getD fetchSplit
theorem witness_ShadingAtlas :
    readyAll wide eg [.atlnext ⟨true, 208, 8, 0⟩, .vrsl ⟨true, 196, 204, 0⟩] = true ∧
    readyAll wide shading [.atlnext ⟨true, 208, 8, 0⟩, .atldone ⟨true, 0, 210, 0⟩] = true ∧
    (let i : Instr := .atlnext ⟨true, 208, 8, 0⟩
     let cmd : EngCmd := { n := 0, op := .rast, team := 0, tword := 0, block := [0, 0, 0, 0x20000400], recs := [] }
     match ((startIn wide shading i).modGroup 1 fun h => { h with atlas := { h.atlas with next := 2 } }).wholeLines (ctxIn wide shading i) cmd true
        [(0, ⟨3, 0x410, 16⟩)] with
      | .ok s0 _ reqs => reqs.all (fun r => decide (r.st ≠ .parked)) &&
        (match s0.opRead (s0.myGroup (ctxIn wide shading i)) cmd ⟨3, 0x410, 16⟩ with | .ok _ => true | .error _ => false)
      | _ => false) = true ∧
    (ctxIn wide shading (.atldone ⟨true, 0, 210, 0⟩)).g 210 = 0 ∧ (issuing wide shading).teamPerformed 2 = true ∧ (issuing wide eg).allPerformed 2 3 = true ∧
    (let s := startIn wide eg (.vrsl ⟨true, 196, 204, 0⟩)
     let cmd : EngCmd := { n := 0, op := .rast, team := 0, tword := 0, block := (ctxIn wide eg (.vrsl ⟨true, 196, 204, 0⟩)).block 204 4, recs := [(0, 0)] }
     let c := ctxIn wide eg (.vrsl ⟨true, 196, 204, 0⟩)
     cmd.block = [0x20000100, 0x10001, 0, 0] ∧ operandBad 0x20000100 = false ∧ firstFail (s.opFails eg cmd false ⟨0, 256, 1⟩) = none ∧
       (match s.wholeLines c cmd true [(0, ⟨0, 256, 1⟩)] with | .ok _ _ reqs => reqs.isEmpty | _ => false) = true ∧
       (match s.opRead (s.myGroup c) cmd ⟨0, 256, 1⟩ with | .ok (s1, x) => decide (x = 0) && (s1.group? 1).any (fun (h : Group) => !h.rasterising) | .error _ => false) = true) := by
  decide +kernel
/-- VISRD of a sample in the window; SAMP of a valid one whose shading block lies there too. -/
def sampled : Group := { eg with win := cellsOf 0x400 16 (2 ^ 103) }
def pixel (s : State) (c : Ctx) : Formed := s.formOperand c 0x20000400 16 (c.lanes.map fun l => (some 0x400, { lane := l, off := 0 }))
theorem witness_visrd : launches { wide with splits := [{ wp with exec := 1 }] } sampled (.visrd ⟨true, 12, 200, 0⟩) 7 false pixel = true ∧
    launches { wide with splits := [{ wp with exec := 1 }] } sampled (.samp ⟨true, 20, 200, 0⟩) 7 false (fun s c => match pixel s c with
      | .ok s _ reqs => (match s.readNow c 16 reqs with
        | (s, some vs) => if vs.all fun v => visValid v.2.1 && !v.2.2 then s.formOperand c 0x20000800 8 ((texelTaps 0 0 1).2.map fun k =>
            (some (0x800 + k.2), { lane := 0, off := 0, cmp := k.1 })) else .hold s
        | (s, none) => .hold s)
      | f => f) = true := by decide +kernel

/-! ### Witnesses: memory traffic -/

/-- An access of one request of lane 1 in flight. -/
def flying (kind : AccKind) (dst : Option (RFile × Nat)) (space : Space) (line : Nat) : Flight :=
  { id := 9, team := 2, split := 3, path := 2, kind := kind, n := 4, dst := dst
    reqs := [{ space := space, line := line, lanes := [{ lane := 1, off := 12, data := 77 }] }] }
def inFlight (f : Flight) : State := { issuing t0 eg with flights := [f], nextId := 10 }
/-- Two lines of main memory are in the SLC. -/
def cached (s : State) : State := { s with slc := [512, 16384].map fun l => { line := l, valid := 15 } }
theorem witness_AccessesPerform :
    [flying (.load 4) (some (.v, 4)) (.win 1) 5, flying .store none (.win 1) 5, flying .store none (.priv 2) 0, flying .store none .glob 16384,
      flying .arm none .glob 16384].all (fun f =>
        decide ((inFlight f).flight? 9 = some f) && f.reqs.all ((inFlight f).mayPerform f) && decide ((inFlight f).dirOf 16384 = {}) &&
          f.reqs.all (fun r => !((inFlight f).yardGone f r)) && ((inFlight f).earlier f).isEmpty) = true ∧
    t0.unset = [] ∧ (let s := cached (inFlight (flying .store none .glob 16384))
      s.slcQ = [] ∧ (s.slcFind 16384).map (·.valid) = some 15 ∧ (s.seenOn 0 16384).isEmpty = true) ∧
    (inFlight (flying .arm none .glob 16384)).team? 2 = some t0 ∧ (inFlight (flying .arm none .glob 16384)).group? 1 = some eg ∧
    t0.split? 3 = some fetchSplit := by decide +kernel
/-- Atomics of the window and of a line in the SLC, and a load of a line that the L1 holds. -/
def fetchAdd : Flight := flying (.atomic 0 0) (some (.v, 4)) (.win 1) 5
def aggregated : Flight := { flying (.atagg 0) (some (.v, 4)) .glob 16384 with path := 1, contrib := [(1, 7), (2, 70)], uniform := true }
def hitting : State :=
  let s := inFlight { flying (.load 4) (some (.v, 4)) .glob 16384 with path := 0 }
  { s with cores := s.cores.map fun c => { c with l1 := [{ line := 16384, cc := 0, valid := 15 }] } }
theorem witness_atomics :
    [fetchAdd, aggregated].all (fun f => let s := cached (inFlight f)
      decide (s.flight? 9 = some f) && f.reqs.all (fun r => s.mayPerform f r && !(s.yardGone f r) && r.pte.isNone) && decide (f.n = atomWidth 0) &&
        (s.earlier f).isEmpty && decide (s.dirOf 16384 = {}) && decide (s.slcQ = []) && (s.seenOn 0 16384).isEmpty) = true ∧
    (hitting.l1Line 0 16384).any (fun y => y.has 0) = true ∧
    (hitting.flights.all fun f => f.reqs.all fun r => hitting.mayPerform f r && decide (r.sectors = [0])) = true := by decide +kernel
/-- ATAGG adds the sum; the second lane receives the old value and the first lane's contribution. -/
theorem test_atagg : (let u := after (.storePerformed ⟨9⟩) { cached (inFlight aggregated) with mem := [(16384 * 64 + 12, 5)] }
    (u.reg 2 .v 4 1, u.reg 2 .v 4 2, u.rd .glob (16384 * 64 + 12) 4)) = (5, 12, 82) := by decide +kernel
/-- The events act: the register of lane 1 and the byte written. -/
theorem test_load_returns : (after (.loadDataReturn ⟨9⟩) { inFlight (flying (.load 4) (some (.v, 4)) (.win 1) 5) with
    groups := [{ eg with win := [(332, 0x34), (333, 0x12)] }] }).reg 2 .v 4 1 = 0x1234 := by decide +kernel
theorem test_store_performs : (after (.storePerformed ⟨9⟩) (inFlight (flying .store none (.win 1) 5))).rdByte (.win 1) 332 = 77 := by
  decide +kernel

/-- A split with a fence, a wait with a deadline, an ICINV to do; a line of a core's L1. -/
def maintaining : State :=
  let p : Split := { fetchSplit with fence := some { kind := 0, scope := 5, pc := 0, before := 4 } }
  { issuing { t0 with splits := [p] } eg with
    l1Invs := [(0, 16384)]
    cores := State.reset.cores.map fun c => { c with power := .on, l1 := [{ line := 16384, cc := 0, valid := 1 }] } }
def cleaning : Flight := { flying (.cmaint 1 0 5) none .glob 16384 with zero := [16384] }
theorem witness_FencesMonitorsMaintenanceComplete :
    (0, 16384) ∈ maintaining.l1Invs ∧ (1, 16384) ∉ maintaining.l1Invs ∧
    (maintaining.splitOf 2 3).bind Split.fence = some { kind := 0, scope := 5, pc := 0, before := 4 } ∧ maintaining.fenceReady 2 3 0 5 4 = true ∧
    (cleaning.reqs.all ((inFlight cleaning).mayPerform cleaning) && ((inFlight cleaning).core? 0).isSome) = true ∧
    (let t := { t0 with splits := [{ fetchSplit with st := .monWait, monWait := some ⟨4, some 0, none⟩, icinv := some (0, 64) }] }
     (issuing t eg).team? 2 = some t ∧ t.residence = .resident ∧ t.handler = none ∧ 0 ≤ (issuing t eg).time) := by decide +kernel

/-- A ticket of a page fault of the split, which is parked. -/
def parked (resumed refused : Bool) : State :=
  let p : Split := { fetchSplit with st := .parked, park := some { kind := .fetch, va := 0x200000, path := 0, write := false, resumed := resumed, refused := refused } }
  { issuing { t0 with splits := [p] } eg with tickets := [(6, .fault { src := .split 2 3, asid := 0, va := 0x200000, path := 0, write := false, word := 0 })] }
theorem witness_TranslationEvents :
    (match (issuing t0 eg).translate (some 0) 0 0x100000 with | (_, some (some _)) => true | _ => false) = true ∧
    ((issuing t0 eg).core? 0).isSome = true ∧ ((issuing t0 eg).ctx? 0).isSome = true ∧
    ((parked false false).tickets.find? fun q => decide (q.1 = 6)).isSome = true ∧ (parked false false).faultQ = [] ∧
    [parked true false, parked false true].all (fun s => s.groupRuns eg &&
      ((s.team? 2).bind fun t => (t.split? 3).map fun p => decide (CanTrap s t p eg 323) && decide (p.park.isSome)) == some true) = true ∧
    (issuing t0 eg).invs.length < 8 ∧ ({ issuing t0 eg with invs := List.replicate 8 ⟨.all, 0⟩ }).drained 0 = true := by decide +kernel
/-- A page of far memory that the host may reach, a line that it owns, a frame to clean. -/
def hosted : State := { issuing t0 eg with recalls := [(16384, false)], cleans := [[256]] }
theorem witness_HostMemoryRequests :
    (let s := cached { hosted with recalls := [] }
     s.slcQ = [] ∧ ([512].all fun l => (s.recalls.all fun q => decide (q.1 ≠ l)) && decide ((s.slcFind l).map (·.valid) = some 15) &&
       decide ((s.dirOf l).cores = 0 ∧ (s.dirOf l).host = .i)) = true ∧ s.boot.state = 4 ∧ s.hostStatus none false 0x8000 8 = 0) ∧
    hosted.boot.state = 4 ∧ hosted.hostStatus none false 0x8000 8 = 0 ∧ hosted.hostStatus none false 0xFFF8 8 = 0 ∧
    (hosted.dirOf 512).cores = 0 ∧ hosted.backed 0x3FFFFFFFFF = false ∧ hosted.recalls.find? (fun r => decide (r.1 = 16384)) = some (16384, false) ∧
    (hosted.cleanFrames [256]).2 = true := by decide +kernel
/-- A bank that is idle, one with a promotion first, with its row in slot 0, with every slot (of one) pinned, and those that run. -/
def banked (b : Bank) : State := { issuing { t0 with awaits := [⟨9, 3, .g, 4, 1, 1⟩] } eg with banks := [(7, b)] }
def pinned : State := { banked { slots := [(0, ⟨true, false, 1000, 0⟩)] } with slotsS := 1 }
theorem witness_BankEvents :
    (banked {}).bank 7 = {} ∧ ((banked { queue := [.promote 3 false 9 2] }).bank 7).slotOf 3 = none ∧ 0 < (banked {}).slotsS ∧
    ((banked { queue := [.promote 3 false 9 2], slots := [(0, ⟨false, true, 3, 0⟩)] }).bank 7).slotOf 3 = some (0, ⟨false, true, 3, 0⟩) ∧
    ((banked { queue := [.demote 3 9 2], slots := [(0, ⟨false, false, 3, 0⟩)] }).bank 7).slotOf 3 = some (0, ⟨false, false, 3, 0⟩) ∧
    (pinned.bank 7).slotOf 3 = none ∧ (∀ j < pinned.slotsS, ∃ x ∈ (pinned.bank 7).slots, x.1 = j) ∧
    (∀ x ∈ (pinned.bank 7).slots, x.2.pin = true) ∧
    ((banked { running := some (.evictWb 0 3 false 9 2) }).bank 7).running = some (.evictWb 0 3 false 9 2) ∧
    (({ t0 with awaits := [⟨9, 3, .g, 4, 1, 1⟩] } : Team).awaits.find? fun a => decide (a.tok = 9)).isSome = true := by decide +kernel

/-! ### Witnesses: engines and grids on their own -/

/-- A copy of 64 bytes from window offset 256 to 512, with guard slot gs, and the group whose copy queue holds it. -/
def copyCmd (gs : Nat) (st : CmdSt) (src : Word) : EngCmd :=
  { n := 1, op := .copy, team := 2, tword := 0, block := [0x20000000, src, 0x20000000, 512, 64, 0, 0, 0], gs := gs, before := 5, st := st }
def copying (c : EngCmd) : Group :=
  { eg with engs := [(0, { cmds := [c], accepted := 1 })], guards := [(1, .no), (2, .yes)] }
def cs (c : EngCmd) : State := issuing t0 (copying c)
theorem witness_EngineCommandEvents :
    [(0 : Nat), 1, 2, 3].all (fun k => decide (((copying (copyCmd k .queued 256)).eng 0).head = some (copyCmd k .queued 256))) = true ∧
    (copying (copyCmd 3 .queued 256)).guard 3 = .pending ∧ (copying (copyCmd 1 .queued 256)).guard 1 = .no ∧
    (copying (copyCmd 2 .queued 256)).guard 2 = .yes ∧ (cs (copyCmd 2 .queued 256)).priorDone (copyCmd 2 .queued 256) [2] = true ∧
    (copying (copyCmd 2 .queued 256)).ruling (copyCmd 2 .queued 256) = .yes ∧ ((copying (copyCmd 2 .queued 256)).eng 0).cmd? 1 = some (copyCmd 2 .queued 256) ∧
    (cs (copyCmd 2 .queued 256)).reportThere (copying (copyCmd 2 .queued 256)) 0 5 = true ∧
    (cs (copyCmd 2 .queued 256)).indexThere (copying (copyCmd 2 .queued 256)) (copyCmd 2 .queued 256) = true ∧
    firstFail ((cs (copyCmd 2 .queued 256)).checkCopy (copying (copyCmd 2 .queued 256)) (copyCmd 2 .queued 256)).1 = none ∧
    (firstFail ((cs (copyCmd 2 .queued 4096)).checkCopy (copying (copyCmd 2 .queued 4096)) (copyCmd 2 .queued 4096)).1).isSome = true ∧
    (cs (copyCmd 2 .queued 256)).groupRuns (copying (copyCmd 2 .queued 256)) = true := by decide +kernel
/-- Its first unit, the unit read and to be written, and its end. -/
theorem witness_EngineTransfer :
    (let c := copyCmd 2 .started 256
     ((copying c).eng 0).cmd? 1 = some c ∧ c.pend = [] ∧ c.progress < copyTotal c ∧ (copyUnit c 0).1 = 256 ∧
       (cs c).isPoisoned (.win 1) 256 4 = false) ∧
    (let c := { copyCmd 2 .started 256 with pend := [(0, 512, 7)] }
     ((copying c).eng 0).cmd? 1 = some c ∧ ∀ i < 4, ((copying c).eng 0).laterWrote 1 (.win 1) (512 + i) = false) ∧
    ({ copyCmd 2 .started 256 with progress := 16 }).moved? = true := by decide +kernel

/-- A yard of key 1 whose one member is group 7 on core 3, a join of group 1 waiting, and one that leaves. -/
def yarded : State :=
  { issuing { t0 with awaits := [⟨9, 3, .g, 4, 1, 1⟩] } eg with
    groups := [eg, { id := 7, node := 0, asid := 0, core := 3 }]
    cores := State.reset.cores.map fun c => { c with power := .on }
    yards := [{ asid := 0, key := 1, members := [{ group := 7, idx := 0 }], waiting := [⟨1, 2, 9⟩] }] }
def leaving : State :=
  { issuing { t0 with awaits := [⟨9, 3, .g, 4, 1, 1⟩] } { eg with leavingYard := [(2, 9)] } with
    yards := [{ asid := 0, key := 1, members := [{ group := 1, idx := 0, leaving := true }, { group := 7, idx := 1 }] }] }
/-- A team whose split waits in GRID, in UNGRID, and one whose grid waits for tokens or has been idle. -/
def gridding (i : Instr) (q : Option GridSt) : Team := { t0 with splits := [{ fetchSplit with st := .blocked, busy := some (i, []) }], grid := q }
def tokened (free tokens idle : Nat) : State :=
  let s := issuing { t0 with grid := some { shape := 0, quads := [0], tokens := tokens, idle := idle } } eg
  { s with gov := { s.gov with queue := [2], free := free } }
theorem witness_YardGridTokenEvents :
    (yarded.yards.all fun y => yarded.yardHome y) = true ∧ yarded.yardOf 1 = none ∧ (yarded.groups.map (·.core)) = [0, 3] ∧
    (leaving.yardOf 1).isSome = true ∧ (leaving.yards.all fun y => leaving.yardQuiet eg y 0) = true ∧
    (let t := gridding (.grid ⟨true, 0, 0, 0⟩) none
     (issuing t eg).gridFits 0 (gridQuads 0 0) = true ∧ (t.splits.any fun p => p.busy.isSome) = true) ∧
    (let t := gridding (.ungrid ⟨true, 0, 0, 0⟩) (some { shape := 0, quads := [0], tokens := 1 })
     (issuing t eg).gridHalt t = none ∧ (issuing t eg).gridWork t = false) ∧
    (tokened 1 0 0).gov.queue = [2] ∧ 1 ≤ (tokened 1 0 0).gov.free ∧ (tokened 0 0 0).gov.free < 1 ∧
    ((tokened 0 1 1024).teams.all fun t => !((tokened 0 1 1024).gridBusy t)) = true := by decide +kernel

/-- An MLOOP of one step over window operands, a MACC, and a split in MXV and in RBOX. -/
def mcmd (op : CmdOp) (st : CmdSt) : EngCmd :=
  { n := 1, op := op, team := 2, tword := 0, block := [0x20000100, 0x20000500, 0x1000, 0x1000, 1, 0, 0, 0], gs := 2, before := 5, st := st, desc2 := 1 }
def mg (c : EngCmd) : Group :=
  { eg with ws := 65536, engs := [(2, { cmds := [c], accepted := 1 })], guards := [(2, .yes)] }
def ms (c : EngCmd) : State := issuing gt (mg c)
def busyIn (i : Instr) (vals : List Nat) : Team := { gt with splits := [{ fetchSplit with st := .blocked, busy := some (i, vals), clocked := true }] }
theorem witness_MatrixEvents :
    [mcmd .mloop .queued, mcmd .macc .queued].all (fun c => decide (((mg c).eng 2).head = some c) && decide ((mg c).ruling c = .yes) && (ms c).reportThere (mg c) c.bar c.before &&
      (ms c).cellsReady c && !((ms c).gridStopped c) && decide (firstFail ((ms c).matFails (mg c) c) = none) && (ms c).priorDone c (matPaths c)) = true ∧
    (let c := mcmd .mloop .started
     ((mg c).eng 2).cmd? 1 = some c ∧ c.progress < bw c.block 4 ∧
       firstFail ((mlRanges c 0).flatMap ((ms c).opFails (mg c) c false)) = none) := by decide +kernel
theorem witness_mloop_reads :
    (let c := mcmd .mloop .started
     match (ms c).opReads (mg c) c (mlMasks c 0) with
     | .ok (s1, m) => (m.all fun x => decide (popcount 48 x = fNz c.fmt.toNat)) &&
         (match s1.opReads (mg c) c ((mlRanges c 0).drop (mlMasks c 0).length) with | .ok (s2, _) => (s2.group? 1).isSome | .error _ => false)
     | .error _ => false) = true := by decide +kernel
theorem witness_mxv_runs :
    (let vals := [0, 0x20000100, 0, 32, 2, 1, 0, 0, 0, 1, 0] ++ List.replicate 32 0
     let i : Instr := .mxv ⟨true, 40, 216, 21⟩
     let t := busyIn i (0 :: vals)
     let q := mxvOf vals
     let s := issuing t eg
     let needs := mxvNeeds q 0
     s.mxvReady t eg 0 = true ∧ mIsMx (xTy q.w) = false ∧ firstFail (needs.flatMap (s.opFails eg q.cmd false)) = none ∧
       (match s.wholeLines { issueCtx i s t fetchSplit eg with act := q.act } q.cmd false (needs.map fun r => (0, r)) with
         | .ok s0 _ reqs => reqs.all (fun r => decide (r.st ≠ .parked)) &&
           (match s0.mxvRead eg q [0] with | .ok (s1, _) => (s1.team? 2).isSome | .error _ => false)
         | _ => false) = true) ∧
    (let i : Instr := .rbox ⟨true, 40, 200, 24⟩
     let t := busyIn i ([0, 0x20000100, 0, 1] ++ List.replicate 8 0)
     let s := issuing t eg
     let cmd : EngCmd := { n := 0, op := .mloop, team := 0, tword := 0, block := [0x20000100], recs := [(0, 0)] }
     s.mxvReady t eg 0 = true ∧ firstFail (s.opFails eg cmd false ⟨0, opOff 0x20000100, 768⟩) = none ∧
       (match s.wholeLines { issueCtx i s t fetchSplit eg with act := 1 } cmd false [(0, ⟨0, opOff 0x20000100, 768⟩)] with
         | .ok s0 _ reqs => reqs.all (fun r => decide (r.st ≠ .parked)) &&
           (match s0.opRead eg cmd ⟨0, opOff 0x20000100, 768⟩ with | .ok (s1, _) => (s1.team? 2).isSome | .error _ => false)
         | _ => false) = true) := by
  decide +kernel

/-! ### Witnesses: rays and raster -/

/-- A core with a program of one micro-op, a group whose ray context holds a command, and its window. -/
def rayGroup (c : EngCmd) (rays : List Ray) : Group :=
  { eg with win := cellsOf 256 12 (0x00A00123 + 0x60000000 * 2 ^ 64), engs := [(3, { cmds := [c], accepted := 1 })], rays := rays }
def rayState (c : EngCmd) (rays : List Ray) (op : Word) : State :=
  let s := issuing t0 (rayGroup c rays)
  { s with cores := s.cores.map fun k => { k with programs := [(0, ⟨0, 5, [0x00A00123], [op]⟩)] } }
def tpl : EngCmd := { n := 1, op := .tpload, team := 2, tword := 0, block := [0x20000100, 0x1105, 0, 0], st := .started }
def trc : EngCmd := { n := 1, op := .trace, team := 2, tword := 0, block := [0x20000200, 0, 0, 0, 5, 0, 0, 0], st := .started, rays := [(0, List.replicate 8 0)] }
theorem witness_RayEvents :
    ((rayGroup tpl []).eng 3).cmds.find? (fun c => decide (c.op = .tpload ∧ c.st = .started ∧ c.progress = 0)) = some tpl ∧
    (match (rayState tpl [] 0).opRead (rayGroup tpl []) tpl ⟨0, opOff 0x20000100, 8 * tpNl tpl + 4 * tpOps tpl⟩ with
      | .ok (s1, x) => layoutOk (BitVec.ofNat 64 x) && (s1.tploadSlot 0 0 (tpPid tpl)).isSome
      | .error _ => false) = true ∧
    ((rayGroup trc []).eng 3).rayNext = some trc ∧ trc.rays[0]? = some (0, List.replicate 8 0) ∧
    (match (rayState trc [] 0).engRange (rayGroup trc []) 1 (offOf 0x20000200) 128 true with
      | .ok (sp, _) => (rayState trc [] 0).recordThere sp | .error _ => false) = true ∧
    (traceRec trc.block (List.replicate 8 0)).degenerate = false ∧
    ((rayState trc [] 0).programOf 0 0 (traceRec trc.block (List.replicate 8 0)).pid).isSome = true ∧
    (rayState trc [] 0).programWaited 0 0 5 = false ∧ (rayGroup trc []).holdsRay 1 0 = false ∧ trc.again ≤ trc.progress := by decide +kernel
/-- JMP goes on, END ends, and a ray at the limit of steps. -/
def ray (steps : Nat) : Ray :=
  { n := 1, lane := 0, space := .win 1, addr := 512, words := { traceRec trc.block (List.replicate 8 0) with steps := steps }.words, started := true }
theorem witness_RayMicroOpStep :
    [(0x30000000, 0), (0x60000000, 1)].all (fun x =>
      match (rayState trc [ray 0] x.1).programOf 0 0 (rayRec (ray 0).words).pid with
      | some (_, p) => match (rayRec (ray 0).words).micro ((ray 0).nodeBuf p) x.1.toNat p.ops.length with
        | .ok _ k => decide ((k ≠ 0) = (x.2 = 1)) && decide (p.ops[(rayRec (ray 0).words).upc]? = some x.1)
        | _ => false
      | none => false) = true ∧
    (rayState trc [ray 0] 0).recordThere (ray 0).space = true ∧ (ray 0).final = [] ∧ (rayRec (ray 0).words).steps = 0 ∧ (rayRec (ray 1048575).words).steps = 1048575 := by decide +kernel

/-- A RAST of one triangle, a request pass over one sample, and the sample that its buffer holds. -/
def rast (mode : Word) (st : CmdSt) : EngCmd :=
  { n := 1, op := .rast, team := 2, tword := 0, block := [mode, 0x20000400, 0x10001, 0x20000800, 1, 0, 0, 0], gs := 2, before := 5, st := st }
def rg (c : EngCmd) (sample : Nat) : Group :=
  { eg with win := ssets 0 [] (cellsOf 0x400 16 sample), engs := [(4, { cmds := [c], accepted := 1 })], guards := [(2, .yes)] }
theorem witness_RasterEvents :
    [0, 1].all (fun m => let c := rast m .queued
      decide (((rg c 0).eng 4).head = some c) && decide (firstFail ((issuing t0 (rg c 0)).rastFails (rg c 0) c) = none) &&
        (issuing t0 (rg c 0)).priorDone c (barPaths c.bar ++ lvlPaths (lvlOf (bw c.block 1)) ++ lvlPaths (lvlOf (bw c.block 3))) && (rg c 0).atlas.listFree) = true ∧
    (let c := rast 0 .started
     match (issuing t0 (rg c 0)).opRead (rg c 0) c ⟨3, 0x800, 48⟩ with
     | .ok (s1, x) => decide (x = 0) && (match triOf (List.replicate 12 0) with
       | some t => ((s1.updateSamples (rg c 0) c t 0 ((t.covered c).map (·.1))).stop.isNone)
       | none => true)
     | .error _ => false) = true ∧
    { eg with rast := { staged := some (⟨1, 1, [0]⟩, [(2, 9)]) } }.atBoundary = true := by decide +kernel
/-- Whether the pass reads its sample, and what it is. -/
def passReads (sample : Nat) : Option Bool :=
  let c := rast 1 .started
  match (issuing t0 (rg c sample)).opUnit (rg c sample) c 1 (opPlace c 1 (opOff (bw c.block 1))) none 16 with
  | (_, .ok _ _ v) => some (visValid v)
  | _ => none
theorem witness_RequestPass : passReads 0 = some false ∧ passReads (2 ^ 103) = some true := by decide +kernel

/-! ### Witnesses: launches, power, pre-emption, contexts, boot, the debug window -/

/-- A claim at the head of a quad's queue. -/
def claiming : State :=
  let t := { t0 with splits := [{ fetchSplit with st := .blocked, busy := some (.claim ⟨true, 198, 196, 0⟩, [2]) }] }
  let s := issuing t eg
  { s with cores := s.cores.map fun k => if k.id = 0 then { k with quads := [(0, { claims := [(2, 3)] })] } else k }
/-- A deferred split and a rotation that is due; a split that is being reloaded. -/
def rotating : Team := { t0 with deferred := [{ uid := 4 }], rotDue := 1 }
def reloading : Team := { t0 with splits := [{ fetchSplit with reload := 16 }] }
/-- A spawn is open; a node before its dispatch, its header in main memory at 0x100800. -/
def header : Nat :=
  0x47510001 + 5 * 2 ^ 64 + (1 + 2 ^ 32 + 2 ^ 64 + 2 ^ 96) * 256 ^ 0x10 + 0x10000 * 256 ^ 0x2C + 0x00010805 * 256 ^ 0x48
def spawned (cancelled : Bool) (h : Nat) : State :=
  let s := { issuing t0 eg with groups := [], teams := [], nodes := [{ id := 8, handle := 2, asid := 0, hdrAddr := 0x100800, spawned := true, cancelled := cancelled }] }
  { s with mem := ssets 0 s.mem (cellsOf 0x100800 256 h) }
def dispatched (s : State) : Option (Nat × Nat) :=
  match s.dispRead 0 0x100800 256 with
  | (_, .ok raw) => some (raw, headerReason raw (parseHeader raw 0 none) false 2048)
  | _ => none
theorem witness_LaunchEvents :
    (claiming.quadOf 0 0).claims = [(2, 3)] ∧ 2 ≤ claiming.freeUnits 0 0 ∧
    (rotating.splits.any fun v => rotating.spillable v && (issuing rotating eg).passed rotating v) = true ∧ t0.gran + 2 ≤ 24 ∧ (reloading.splits.all fun p => decide (p.reload = 16)) = true ∧
    (issuing t0 eg).spawnsOpen 0 = true ∧ 0 < (issuing t0 eg).poolFree ∧
    dispatched (spawned true header) = some (header, 0) ∧ dispatched (spawned false 0) = some (0, 2) ∧
    (spawned false 0).ctxs.all (fun x => decide ((spawned false 0).mostSlots x = 2048)) = true ∧
    hDword header 0xA0 = 0 ∧ hDword header 0xA8 = 0 := by decide +kernel
/-- The team of an ended one, and a group without teams. -/
theorem witness_ends : ({ t0 with residence := .ended } : Team).grid = none ∧ (issuing t0 eg).flights = [] ∧
    (let s := { issuing t0 eg with teams := [], nodes := [{ id := 0, handle := 2, asid := 0, hdrAddr := 0, spawned := true, live := 1 }] }
     (s.group? 1).isSome = true ∧ s.yardOf 1 = none ∧ (s.node? eg.node).isSome = true) := by decide +kernel
/-- A node to be placed on core 0, which is on, or gated. -/
def placing (power : CorePower) : State :=
  let s := spawned false header
  { s with nodes := s.nodes.map fun n => { n with header := some (parseHeader header 0 none) }
           cores := s.cores.map fun k => { k with power := power } }
theorem witness_GroupPlacement :
    ((placing .on).core? 0).map (·.moving) = some none ∧
    [CorePower.on, .gated].all (fun p => (placing p).nextPlaced.any (fun x => decide (x.2.2 = 0) && (x.1.nextPlace).isSome)) = true ∧
    (placing .on).coreSlots 0 = 2048 ∧ ((placing .on).homesOn 0 (parseHeader header 0 none) 2048).isSome = true ∧ (placing .on).target 0 = 0 ∧
    (((placing .on).nodes.map fun n => { n with nextGroup := 1 }).all Node.spent) = true := by decide +kernel

/-- A core in each of the states that the power events act on. -/
def powered (f : Core → Core) : State := { issuing t0 eg with cores := (issuing t0 eg).cores.map fun k => if k.id = 0 then f k else k }
theorem witness_PowerEvents :
    (let s := { powered (fun k => { k with level := 3 }) with teams := [], groups := [] }
     s.target 0 ≠ 3 ∧ s.urgentFirst 0 = false ∧ ((s.core? 0).map (·.moving) = some none) ∧ ((s.groupsOn 0).all fun g => !(s.inRun g)) = true ∧ s.nextPlaced.isNone = true) ∧
    ((powered fun k => { k with moving := some 2 }).core? 0).bind Core.moving = some 2 ∧
    ((powered fun k => { k with droop := .stretched 6 }).core? 0).map Core.droop = some (.stretched 6) ∧
    ((powered fun k => { k with droop := .halved 64 }).core? 0).map Core.droop = some (.halved 64) ∧
    (powered id).drpthr = 6 ∧ (powered id).gridder 0 0 = none ∧
    ((powered fun k => { k with bays := [(0, { idle := 1024 }), (4, { gate := .waking 8 })] }).core? 0).map (fun k => (sget {} k.bays 0).idle) = some 1024 ∧
    ((powered fun k => { k with idleNs := 100000, id := 0 }).core? 0).map Core.idleNs = some 100000 ∧
    ((powered fun k => { k with power := .waking }).core? 0).map Core.power = some .waking ∧
    (powered id).gov.limit = 40000 ∧ (powered id).gov.step = 0 ∧ (powered id).gov.missing = 0 ∧ (powered id).gov.sampled = none ∧
    (powered id).time < 1 + (powered id).gov.interval ∧ ((powered id).core? 0).map (fun k => k.passes) = some [] ∧ (powered id).coreOn 0 = true := by decide +kernel

/-- An asynchronous trap of a team, a region, stops for each reason, a group that can leave and one that can return. -/
def asyncTeam : Team := { t0 with async := [321] }
def regional : Team := { t0 with region := some { own := 0xF, exec := 0xF, mode := 0, psig := 0, written := [(.v, 4)] } }
theorem witness_PreemptEvents :
    asyncTeam.asyncTarget = some fetchSplit ∧ (issuing asyncTeam eg).groupRuns eg = true ∧ (issuing asyncTeam eg).outstanding asyncTeam = false ∧
    (regional.region.map fun q => q.written.contains (.v, 4)) = some true ∧ regional.depth = 0 ∧ poisonWord (4 * 4096) = (.v, 4, 0) ∧
    (let s := { issuing t0 eg with dbg := { (issuing t0 eg).dbg with stopreq := true } }
     s.dbg.asid = eg.asid ∧ State.protected s 0 = false ∧ s.stoppable t0 = true) ∧
    (let low : State := powered (fun k => { k with level := 7, fell := some 5 })
     let s : State := { low with ctxs := low.ctxs.map fun (x : Ctxt) => { x with ceiling := 5 } }
     s.forcedOut t0 = true ∧ s.stoppable t0 = true) ∧
    (let s : State := { issuing t0 eg with ctxs := (issuing t0 eg).ctxs.map fun (x : Ctxt) => { x with halted := true } }
     s.coreHalted 0 = true ∧ s.stoppable t0 = true) ∧
    (let s := issuing { t0 with residence := .stopped } eg
     s.coreOn 0 = true ∧ s.forced 0 = false ∧ s.coreHolds eg = true) ∧
    (let t := { t0 with residence := .evicted 1 }
     (issuing t eg).canReturn t 1 = true) ∧
    (let g := { eg with evicted := true }
     ((issuing { t0 with residence := .saved } g).restoreHomes g 0).isSome = true) ∧
    [powered (fun k => { k with failed := true }), powered fun k => { k with sramErrors := List.replicate 65 0 }].all (fun s => s.unfit 0) = true := by
  decide +kernel
/-- An urgent node that finds no room: every quad is full, or the accumulator is. -/
def crowded (ts : List Team) (g : Group) : State :=
  let h := { parseHeader header 0 none with urgent := true, accSlots := 1 }
  let s := issuing t0 g
  { s with
    teams := ts
    nodes := [{ id := 8, handle := 2, asid := 0, hdrAddr := 0, spawned := true, header := some h }]
    ctxs := s.ctxs.map fun x => { x with evictSize := 2 ^ 30 } }
def big (q : Nat) : Team := { t0 with id := 2 + q, slot := q, quad := q, size := 1024, gran := 16, placedAt := q }
theorem witness_evictions :
    (let s := crowded ((List.range 4).map big) { eg with cls := 2 }
     s.urgentNeed.any (fun x => !(s.lacksSpace 0 x.1) && s.coreTakes 0 && x.2.mask.getLsbD 0 && decide ((s.victim 0 x.1).map (·.id) = some 2)) = true ∧
       s.evictFits { eg with cls := 2 } (big 3).imageBytes = true) ∧
    (let g := { eg with cls := 2, accSlots := 2048 }
     let s := crowded [t0] g
     s.urgentNeed.any (fun x => s.lacksSpace 0 x.1 && s.coreTakes 0 && x.2.mask.getLsbD 0 && decide ((s.victim 0 x.1).map (·.group) = some 1)) = true ∧
       s.evictFits g (s.groupBytes g) = true ∧ (s.evictGroup g).isSome = true) := by decide +kernel
/-- A partition with a shadow region, halted or swapped out. -/
def partition (halted swapped : Bool) : State :=
  let s := issuing t0 eg
  { s with teams := [], groups := [], ctxs := s.ctxs.map fun x => { x with shadow := 0x1000000, mask := 1, halted := halted, swapped := swapped } }
theorem witness_partition :
    (partition true false).ctxs.all (fun x => (partition true false).quiet x.cores && (partition true false).clean x.cores && decide (x.cores.length = 1)) = true ∧
    (partition true true).ctxs.all (fun x => (partition true true).quiet x.cores && (partition true true).clean x.cores && x.cores.all (partition true true).coreOn) = true ∧
    (partition true true).groupsOn 0 = [] ∧ (partition true false).boot.state = 4 ∧ ((partition true false).maintL1 0 ((partition true false).l1Lines 0) true true).2 = true := by
  decide +kernel

def cfg : EvCtxCfg :=
  { asid := 9, root := 0x20000, mask := 1, defaultReq := 0, ceiling := 7, loftBase := 0, loftSize := 0, evictBase := 0, evictSize := 0, shadow := 0,
    tdi := none, frames := [] }
theorem witness_ContextEvents :
    (let s := issuing t0 eg
     s.isOpen = true ∧ (s.ctx? 9).isNone = true ∧ s.ctxOk (ctxOf cfg) = true ∧ (s.ctx? 0).isSome = true ∧
     s.ctxOk (ctxOf { cfg with asid := 0 }) = true ∧ (s.tdi 3).st = .unlocked ∧ (s.tdi 3).asid = none ∧ s.framesFree 0 [5, 6] = true) := by
  decide +kernel
/-- Boot in each state, and a TDI in each state. -/
def booting (n : Nat) : State := { State.reset with boot := { State.reset.boot with state := n } }
def tdiIn (st : TdiState) : State := { State.reset with tdis := [(3, { st := st, asid := some 0, keySlot := some 1 })] }
def bound : State := { tdiIn .run with ctxs := (issuing t0 eg).ctxs.map fun x => { x with tdi := some 3 } }
theorem witness_BootAndTrustEvents :
    (booting 3).boot.verify ≠ 0 ∧ (booting 4).boot.nextCore = 0 ∧ ((booting 4).core? 0).isSome = true ∧
    [TdiState.locked, .run, .error, .unlocked].all (fun st => decide (((tdiIn st).tdi 3).st = st)) = true := by decide +kernel
/-- The watched context has one team, resident, stopped, or stopped by a trap. -/
def watched (res : Residence) (trap : Option (Nat × Nat × Nat × LaneMask × Bool × Word)) : State :=
  issuing { t0 with residence := res, stopTrap := trap } eg
theorem witness_DebugEvents :
    (watched .resident none).boot.state = 4 ∧ State.protected (watched .resident none) 0 = false ∧ ((watched .resident none).teamsOf 0).length = 1 ∧
    (watched .resident none).stoppable t0 = true ∧ eg.region = none ∧ (booting 4).runs = true ∧ ((booting 4).tdi 3).st = .unlocked ∧ (((watched .debugStopped (some (3, 161, 0, 0, true, 0))).team? 2).any fun t => t.stopTrap.isSome) = true ∧
    (watched .resident none).dbg.asid = 0 ∧ (watched .resident none).slotsFixed = false ∧ 512 % 256 = 0 ∧ 512 ≤ (watched .resident none).rows / 16 ∧
    { watched .resident none with slotsFixed := true }.slotsFixed = true ∧
    State.protected bound 0 = true ∧ (booting 2).boot.state = 2 := by
  decide +kernel

/-! ### Witnesses: the machine -/

/-- EveryStepGoesOn, MemoryStaysCanonical, ModesStayLegal have their premises at reset and where a word is placed. -/
theorem witness_invariants : Memory.wf (State.reset.withFetchWord 32 0x01030102).mem = true ∧ (State.reset.withFetchWord 32 0x01030102).Legal := by
  refine ⟨by decide +kernel, by decide +kernel, by decide +kernel, ?_⟩
  show ∀ t ∈ [fetchTeam], _
  intro t ht
  rw [List.mem_singleton] at ht
  subst ht
  exact ⟨by decide +kernel, fun q h => by simp [fetchTeam] at h, fun j h => by simp [fetchTeam] at h⟩
theorem witness_StepRunsDecoded : let s := State.reset.withFetchWord 32 0x01030102
    s.agenda = [.issue 2 3] ∧ s.team? 2 = some fetchTeam ∧ fetchTeam.split? 3 = some fetchSplit ∧ s.group? 1 = some fetchGroup ∧
    s.issuable fetchTeam fetchSplit = true ∧ ({ s with agenda := [] } : State).due 0 = none ∧ fetchTeam.loop = [] ∧
    (match ({ s with agenda := [] }).fetchPair fetchTeam 0 0x100000 with | (_, .ok w) => decide (w = (0x01030102, none)) | _ => false) = true ∧
    ({ s with agenda := [] } : State).wonBays (.add ⟨false, 3, 1, 2⟩) fetchTeam fetchSplit ≠ [] ∧ fetchTeam.late fetchSplit = false ∧
    ({ s with agenda := [] } : State).firstOf fetchTeam fetchSplit = none := by decide +kernel
/-- A team whose loop buffer holds an instruction; a bay that has been used, so that a pass waits; an event that lets no cycle pass. -/
theorem witness_StepRunsDecoded_cases :
    (let t := { fetchTeam with loop := [{ asid := 0, va := 0x100000, w0 := 0x01030102, w1 := none }] }
     (t.loop.find? fun l => decide (l.asid = 0) && decide (l.va = 0x100000 % 2 ^ 48)).any (fun l => !l.bad) = true) ∧
    (let s := powered fun k => { k with bays := [(0, { used := true })] }
     s.wonBays (.add ⟨false, 3, 1, 2⟩) t0 fetchSplit = []) ∧ Team.late { t0 with lastSlot := some 5 } fetchSplit = true ∧
    (powered id).cyclesOf (.spawnWrite ⟨0, 0, []⟩) = none ∧ encode (.spawnWrite ⟨0, 0, []⟩) = [] := by decide +kernel
theorem witness_DecodeEncode : wellFormed (.add ⟨false, 3, 1, 2⟩) = true ∧ decode 0x01030102 0 = .ok (.add ⟨false, 3, 1, 2⟩, 1) := by decide +kernel

/-! ### Results that the spec works out -/

/-- Lanes 0 to n-1 of the only split of the team, in slot 1, are active and vector register r holds the values there. -/
def worked (mode : Word) (sticky : Word) (vals : List (Nat × List Nat)) (n : Nat) : State :=
  let t := { fetchTeam with
    splits := [{ fetchSplit with slot := 1, mode := mode, exec := BitVec.ofNat 1024 (2 ^ n - 1) }]
    sticky := sticky
    v := vals.flatMap fun x => (List.range x.2.length).map fun l => (x.1 * 1024 + l, BitVec.ofNat 32 (x.2.getD l 0)) }
  issuing t fetchGroup
/-- A register of the team after the instruction. -/
def regAfter (i : Instr) (s : State) (f : RFile) (r l : Nat) : Nat := (((after i s).team? 2).getD fetchTeam).raw f r l

/-- 09 "Worked example: the order of a team sum": RNE gives +0, RUP gives 4.0; lane 2 inactive gives +0 as well. -/
theorem test_tred_order :
    (regAfter (.tred ⟨false, none, 197, 2, 0⟩) (worked 2 0 [(2, [0x4B800000, 0x3F800000, 0x3F800000, 0xCB800000])] 4) .g 5 0,
      regAfter (.tred ⟨false, none, 197, 2, 0⟩) (worked 0x22 0 [(2, [0x4B800000, 0x3F800000, 0x3F800000, 0xCB800000])] 4) .g 5 0) =
    (0, 0x40800000) := by decide +kernel
/-- The same example, with TSCAN, inclusive and exclusive. -/
theorem test_tscan_order :
    ([0, 1, 2, 3].map fun l =>
      (regAfter (.tscan ⟨false, none, 6, 2, 0⟩) (worked 2 0 [(2, [0x4B800000, 0x3F800000, 0x3F800000, 0xCB800000])] 4) .v 6 l,
        regAfter (.tscan ⟨false, none, 6, 2, 1⟩) (worked 2 0 [(2, [0x4B800000, 0x3F800000, 0x3F800000, 0xCB800000])] 4) .v 6 l)) =
    [(0x4B800000, 0), (0x4B800000, 0x4B800000), (0x4B800000, 0x4B800000), (0, 0x4B800000)] := by decide +kernel
/-- 08 "Worked example: f32 to E4M3 at the edges": RNE, RUP, RTZ and RNE with SAT. -/
theorem test_cvt_e4m3 :
    ([0x0B, 0x2B, 0x1B, 0x8B].map fun mode =>
      regAfter (.cvt ⟨false, none, 8, 4, 2⟩) (worked mode 0 [(4, [0x43960000]), (5, [0x43E10000]), (6, [0x43FA0000]), (7, [0x3BA3D70A])] 1) .v 8 0) =
    [0x037F7E79, 0x037F7F7A, 0x027E7E79, 0x037E7E79] := by decide +kernel
/-- 17 "Worked example: a division trap": CAUSE, SSTAT_LO, SSTAT_HI m15, and nothing written. -/
theorem test_division_trap :
    (let s := after (.frcp ⟨false, 3, 1⟩) (worked 2 0x80000 [(1, [0x40000000, 0x40000000, 0, 0x40000000])] 4)
     let t := (s.team? 2).getD fetchTeam
     (t.cause, t.sstatLo, t.sstatHi, t.raw .m 15 0, t.raw .v 3 0)) = (0x8007F, 2, 0x11, 4, 0) := by decide +kernel
/-- The same, with the trap disabled: +Inf and 0.5. -/
theorem test_division :
    ([0, 2].map fun l => regAfter (.frcp ⟨false, 3, 1⟩) (worked 2 0 [(1, [0x40000000, 0x40000000, 0, 0x40000000])] 4) .v 3 l) =
      [0x3F000000, 0x7F800000] := by decide +kernel
/-- 03 "Worked example: two promotions into a full bank": channel, bank and row of two addresses, and the two results. -/
theorem test_promotions : (State.reset.locate 0xF4240000, State.reset.locate 0xF7240000, promoteResult 9 2, promoteResult 12 1) =
    (some (16, 7, 1302), some (16, 7, 1318), 0x90002, 0xC0001) := by decide +kernel
/-- 10 "Worked example" of MLOOP: k = 0 to 7 of row 0 and column 0, the rest zero, give 7.0. -/
theorem test_mloop_groups :
    stepF 4 0 ((List.range 32).map fun k =>
      if k = 0 then some (unpack bf16 0x4580, unpack bf16 0x4580) else if k = 7 then some (unpack bf16 0xC580, unpack bf16 0x4580)
      else if k < 7 then some (unpack bf16 0x3F80, unpack bf16 0x3F80) else some (unpack bf16 0, unpack bf16 0)) (fun _ => []) = 0x40E00000 := by
  decide +kernel

/-- R127, R129, R230, R131: an uncorrectable error in a cell halts the context with code 214; the barrier's status is one
report, ENGINES bit 2, INV, UE and ERR, with CE after a corrected error. The record holds an earlier error, so OVER is set. -/
theorem test_cell_error :
    (let c := { mcmd .mloop .started with bar := 0x20001000 }
     let s := issuing gt { mg c with win := [(0x43, 0x80)] }
     let u := s.errorTurn (.cell 1 2 1)
     (u.group? 1).map (fun g => ((g.eng 2).halted, g.inv)) = some (some 214, tileSlots 0) ∧ u.rd (.win 1) 0x100C 4 = 0x10415 ∧
     u.rd (.win 1) 0x40 4 = 0xC0000000 ∧
     ((s.errorTurn (.command 1 2 1)).errorTurn (.cell 1 2 1)).rd (.win 1) 0x100C 4 = 0x10417) := by decide +kernel


end Sys2Proof.Tests
end

section
/-!
PROOFS. Main memory stays in its canonical form (R4, R59, and log 1 for the form itself). Only the stores of bytes of main
memory and the zeroing of a frame write it, and both keep the form; every other function of the model composes those. So each
function f of the model that hands on a state has one lemma, Canon.f: where the state it takes has canonical memory, so has
the state it hands on. The lemmas stand in the order of the model's definitions, and the proof of each follows the branches
of its function: h.f.g is the fact about g after f.
-/
namespace Sys2Proof.Machine

/-- Main memory holds its canonical form. -/
def Canon (m : List Host.Cell) : Prop := Memory.wf m = true

/-- Whatever state an effect ends in has canonical memory. -/
def Res.MemCanon : Res → Prop
  | .done s | .jump s | .nested s _ | .trap s _ _ _ _ | .hold s => Canon s.mem

/-- Whatever state the formation of an access ends in has canonical memory. -/
def Formed.MemCanon : Formed → Prop
  | .trap s _ _ _ | .hold s | .dead s _ | .ok s _ _ => Canon s.mem

/-- Whatever state the fetch of a node ends in has canonical memory. -/
def NodeR.MemCanon : NodeR → Prop
  | .busy s | .fault s _ _ | .dead s _ | .ok s _ => Canon s.mem

/-- Whatever state the reading of samples ends in has canonical memory. -/
def Sampled.MemCanon : Sampled → Prop
  | .busy s | .ok s _ _ _ => Canon s.mem
  | .stop f => f.MemCanon

/-- A state that the gate answers with has canonical memory. -/
def Admission.MemCanon : Admission → Prop
  | .stay s | .go s _ => Canon s.mem
  | .noIssuer | .trap _ _ _ _ => True

/-- Whatever state a fetch at a PC ends in has canonical memory. -/
def Fetched.MemCanon : Fetched → Prop
  | .stop s | .run _ s => Canon s.mem

/-- A fetch of operands leaves canonical memory, where it succeeds and where it stops. -/
def OperandsCanon {α : Type} : Except Stopped (State × α) → Prop
  | .ok r => Canon r.1.mem
  | .error q => Canon q.s.mem

/-- A state that an outcome leads to has canonical memory. -/
def Leads : Host.Outcome State Fault Refusal → Prop
  | .next s => Canon s.mem
  | _ => True


/-- The state that a pair binds. -/
theorem Canon.of_fst {α : Type} {r : State × α} {u : State} {a : α} (e : r = (u, a)) (h : Canon r.1.mem) : Canon u.mem := by
  subst e; exact h

/-- Main memory is as before. -/
theorem Canon.of_mem {s u : State} (h : Canon s.mem) (e : u.mem = s.mem) : Canon u.mem := e ▸ h

/-- A fold whose steps keep canonical memory. -/
theorem Canon.foldl {α : Type} {f : State → α → State} {s : State} {l : List α} (h : Canon s.mem)
    (hf : ∀ u a, Canon u.mem → Canon (f u a).mem) : Canon (l.foldl f s).mem :=
  foldl_holds f (fun u => Canon u.mem) hf l s h

/-- A fold that carries more than the state. -/
theorem Canon.foldl_fst {α β : Type} {f : State × β → α → State × β} {r : State × β} {l : List α} (h : Canon r.1.mem)
    (hf : ∀ q a, Canon q.1.mem → Canon (f q a).1.mem) : Canon (l.foldl f r).1.mem :=
  foldl_holds f (fun q => Canon q.1.mem) hf l r h

/-- What may not come to be, with the state as it was otherwise. -/
theorem Canon.getD {o : Option State} {s : State} (h : Canon s.mem) (ho : ∀ u, o = some u → Canon u.mem) :
    Canon (o.getD s).mem := by
  cases o with
  | none => exact h
  | some u => exact ho u rfl

/-- The branch of a match that is taken: the same fact, about what the scrutinee equals. -/
theorem Formed.MemCanon.of_eq {f g : Formed} (e : f = g) (h : f.MemCanon) : g.MemCanon := e ▸ h
theorem NodeR.MemCanon.of_eq {f g : NodeR} (e : f = g) (h : f.MemCanon) : g.MemCanon := e ▸ h
theorem Sampled.MemCanon.of_eq {f g : Sampled} (e : f = g) (h : f.MemCanon) : g.MemCanon := e ▸ h
theorem Admission.MemCanon.of_eq {f g : Admission} (e : f = g) (h : f.MemCanon) : g.MemCanon := e ▸ h
theorem Fetched.MemCanon.of_eq {f g : Fetched} (e : f = g) (h : f.MemCanon) : g.MemCanon := e ▸ h
theorem OperandsCanon.of_eq {α : Type} {f g : Except Stopped (State × α)} (e : f = g) (h : OperandsCanon f) :
    OperandsCanon g := e ▸ h
theorem Res.MemCanon.of_eq {f g : Res} (e : f = g) (h : f.MemCanon) : g.MemCanon := e ▸ h

/-- The state that an outcome goes on to. -/
theorem Leads.of_eq {r : Host.Outcome State Fault Refusal} {s : State} (e : r = .next s) (h : Leads r) : Canon s.mem := by
  subst e; exact h

end Sys2Proof.Machine
end

section
/-!
PROOFS. Main memory stays canonical: the state, the caches, the banks and the accesses in flight.
-/
namespace Sys2Proof.Machine

variable {s : State} {writer : Agent} {who : Asker} {write drop skip : Bool} {f : Flight} {lanes : LaneMask} {r : LineReq}
variable {cells : List (Nat × Byte)} {ks words vals : List Nat}
variable {k line id asid tid uid fid core group scope gid addr value code detail off n x cc va pte : Nat} {p : Place}
variable {sp : Space} {epc : Word}

theorem Canon.putBank {b : Bank} (h : Canon s.mem) : Canon (s.putBank k b).mem := h
theorem Canon.bankAsk (h : Canon s.mem) : Canon (s.bankAsk line ks write).1.mem := h.of_mem (s.bankAsk_mem line ks write)
theorem Canon.setDir {d : DirEntry} (h : Canon s.mem) : Canon (s.setDir line d).mem := h

theorem Canon.recall (h : Canon s.mem) : Canon (s.recall line drop).mem := by
  unfold State.recall
  split <;> exact h

theorem Canon.claim (h : Canon s.mem) : Canon (s.claim line who).mem := h

theorem Canon.unclaim (h : Canon s.mem) : Canon (s.unclaim who).mem := by
  unfold State.unclaim
  split <;> exact h

theorem Canon.slcPut {x : SlcLine} (h : Canon s.mem) : Canon (s.slcPut x).mem := h

theorem Canon.slcEvict (h : Canon s.mem) : Canon (s.slcEvict line).1.mem := by
  unfold State.slcEvict
  dsimp only
  split
  · exact h
  split
  · exact h.recall
  split
  · exact h
  split
  · exact h
  split
  · exact h
  · exact h.bankAsk

theorem Canon.slcRoom (h : Canon s.mem) : Canon (s.slcRoom line).1.mem := by
  unfold State.slcRoom
  split
  · exact h
  split
  · exact h.slcEvict
  · exact h

theorem Canon.slcFill (h : Canon s.mem) : Canon (s.slcFill line ks).1.mem := by
  unfold State.slcFill
  dsimp only
  split
  next e => exact .of_fst e h.slcRoom
  next u e =>
    have h : Canon u.mem := .of_fst e h.slcRoom
    split
    · exact h
    split
    next e => exact (Canon.of_fst e h.bankAsk).slcPut
    · exact h.bankAsk

theorem Canon.accessServed {row : Nat} {line : Option (RowCell × Nat × List Nat)} (h : Canon s.mem) :
    Canon (s.accessServed k row write line).mem := by
  unfold State.accessServed
  dsimp only
  repeat' split
  all_goals exact h

theorem Canon.modTeam {f : Team → Team} (h : Canon s.mem) : Canon (s.modTeam id f).mem := h
theorem Canon.modGroup {f : Group → Group} (h : Canon s.mem) : Canon (s.modGroup id f).mem := h
theorem Canon.modCore {f : Core → Core} (h : Canon s.mem) : Canon (s.modCore id f).mem := h
theorem Canon.modCtx {f : Ctxt → Ctxt} (h : Canon s.mem) : Canon (s.modCtx asid f).mem := h
theorem Canon.modNode {f : Node → Node} (h : Canon s.mem) : Canon (s.modNode id f).mem := h
theorem Canon.modFlight {f : Flight → Flight} (h : Canon s.mem) : Canon (s.modFlight id f).mem := h
theorem Canon.fresh (h : Canon s.mem) : Canon s.fresh.2.mem := h
theorem Canon.send {m : Msg} (h : Canon s.mem) : Canon (s.send m).mem := h
theorem Canon.modSplit {f : Split → Split} (h : Canon s.mem) : Canon (s.modSplit tid uid f).mem := h

/-- The one write of bytes: it reaches main memory where the space is the global one. -/
theorem Canon.wrCells (h : Canon s.mem) : Canon (s.wrCells sp cells).mem := s.wrCells_wf sp cells h

theorem Canon.fireLocal {core : Option Nat} (h : Canon s.mem) :
    Canon (s.fireLocal core line).mem := h.of_mem (s.fireLocal_mem core line)

theorem Canon.slcWrite (h : Canon s.mem) : Canon (s.slcWrite cells).mem := s.slcWrite_wf cells h
theorem Canon.endFlight (h : Canon s.mem) : Canon (s.endFlight f).mem := h.of_mem (s.endFlight_mem f)
theorem Canon.abandonFlight (h : Canon s.mem) : Canon (s.abandonFlight fid).mem := h.of_mem (s.abandonFlight_mem fid)

theorem Canon.acquired {team : Nat} {me : Agent} (h : Canon s.mem) :
    Canon (s.acquired core group team scope me).mem := h.of_mem (s.acquired_mem core group team scope me)

theorem Canon.splitAcquires (h : Canon s.mem) : Canon (s.splitAcquires tid uid scope).mem := by
  unfold State.splitAcquires
  split
  · exact h.acquired
  · exact h

theorem Canon.cancelFlight (h : Canon s.mem) : Canon (s.cancelFlight fid).mem := h
theorem Canon.discardFence (h : Canon s.mem) : Canon (s.discardFence tid uid).mem := h.of_mem (s.discardFence_mem tid uid)

theorem Canon.conflict {core : Option Nat} (h : Canon s.mem) :
    Canon (s.conflict sp line writer core).mem := h.of_mem (s.conflict_mem sp line writer core)

theorem Canon.localWrite (h : Canon s.mem) : Canon (s.localWrite sp cells writer).mem := s.localWrite_wf sp cells writer h
theorem Canon.traceRecord (h : Canon s.mem) : Canon (s.traceRecord tid uid words).mem := h.of_mem (s.traceRecord_mem tid uid words)
theorem Canon.ringWrite (h : Canon s.mem) : Canon (s.ringWrite words).mem := s.ringWrite_wf words h
theorem Canon.leaveQueues {tokens : Bool} (h : Canon s.mem) : Canon (s.leaveQueues tid tokens).mem := h
theorem Canon.revokeYard (h : Canon s.mem) : Canon (s.revokeYard gid).mem := h
theorem Canon.dropTeam (h : Canon s.mem) : Canon (s.dropTeam tid).mem := h

theorem Canon.jcAdd (h : Canon s.mem) : Canon (s.jcAdd asid addr value).mem := by
  unfold State.jcAdd
  split <;> exact h

theorem Canon.groupPath {relaunch report : Bool} (h : Canon s.mem) : Canon (s.groupPath gid code detail relaunch report).mem := by
  unfold State.groupPath
  split
  · exact h
  extract_lets tids s₁ s₂ s₃
  have h₃ : Canon s₃.mem := h.foldl fun _ _ h => h.dropTeam
  clear_value s₃
  split
  · exact h₃
  extract_lets retry s₄
  split
  · exact h₃
  split
  · exact h₃.modNode.jcAdd.send
  · exact h₃

theorem Canon.takeTrap {tret : Bool} (h : Canon s.mem) : Canon (s.takeTrap tid uid code detail lanes skip epc tret).mem := by
  unfold State.takeTrap
  split
  · exact h
  split
  · exact h
  split
  · exact h.groupPath
  refine (h.foldl fun u _ h => ?_).leaveQueues.fresh.modTeam
  split
  · exact h
  · exact h.discardFence

theorem Canon.block {i : Instr} (h : Canon s.mem) : Canon (s.block tid uid i vals).mem := h
theorem Canon.putL1 {x : CacheLine} (h : Canon s.mem) : Canon (s.putL1 core x).mem := h

theorem Canon.slcDir {core : Option Nat} (h : Canon s.mem) : Canon (s.slcDir line write core).1.mem := by
  unfold State.slcDir
  dsimp only
  split
  · exact h.recall
  repeat' split
  all_goals exact h

theorem Canon.slcAsk {core : Option Nat} (h : Canon s.mem) : Canon (s.slcAsk line ks write core who).1.mem := by
  unfold State.slcAsk
  split
  · exact h
  split
  next e => exact (Canon.of_fst e h.slcDir).claim
  next u e =>
    have h : Canon u.mem := .of_fst e h.slcDir
    split
    next e => exact (Canon.of_fst e h.slcFill).claim
    · exact h.slcFill

theorem Canon.forgetCore (h : Canon s.mem) : Canon (s.forgetCore core line).mem := by
  unfold State.forgetCore
  dsimp only
  split <;> exact h

theorem Canon.dropHcCopy (h : Canon s.mem) : Canon (s.dropHcCopy core line).mem := h.forgetCore.modCore

theorem Canon.slcSectorWrite {data : Nat} {poison : Bool} (h : Canon s.mem) :
    Canon (s.slcSectorWrite line k data poison).mem := s.slcSectorWrite_wf line k data poison h

theorem Canon.cleanL2 (h : Canon s.mem) : Canon (s.cleanL2 line).1.mem := by
  unfold State.cleanL2
  dsimp only
  split
  · exact h
  split
  · exact h
  split
  · exact h.slcAsk
  · exact h.slcAsk.foldl fun _ _ h => h.slcSectorWrite

theorem Canon.dropL2 (h : Canon s.mem) : Canon (s.dropL2 line).mem := h

theorem Canon.l2Room (h : Canon s.mem) : Canon (s.l2Room line).1.mem := by
  unfold State.l2Room
  dsimp only
  split
  · exact h
  split
  · split
    next e => exact (Canon.of_fst e h.cleanL2).dropL2
    · exact h.cleanL2
  · exact h

theorem Canon.cleanL1 (h : Canon s.mem) : Canon (s.cleanL1 core line).1.mem := by
  unfold State.cleanL1
  dsimp only
  split
  · exact h
  split
  · exact h
  split
  · split
    next e => exact .of_fst e h.l2Room
    next u e =>
      have h : Canon u.mem := .of_fst e h.l2Room
      exact Canon.fireLocal (Canon.putL1 h)
  · split
    · exact h.slcAsk
    · exact (h.slcAsk.foldl fun _ _ h => h.slcSectorWrite).putL1

theorem Canon.dropL1 (h : Canon s.mem) : Canon (s.dropL1 core line).mem := by
  unfold State.dropL1
  split
  · exact h.forgetCore
  · exact h.forgetCore.modCore.conflict

theorem Canon.l1Room (h : Canon s.mem) : Canon (s.l1Room core line).1.mem := by
  unfold State.l1Room
  dsimp only
  split
  · split
    · exact h
    split
    · split
      next e => exact (Canon.of_fst e h.cleanL1).dropL1
      · exact h.cleanL1
    · exact h
  · split <;> exact h

theorem Canon.needL2 (h : Canon s.mem) : Canon (s.needL2 line k).1.mem := by
  unfold State.needL2
  dsimp only
  split
  · exact h
  split
  next e => exact .of_fst e h.l2Room
  next u e =>
    have h : Canon u.mem := .of_fst e h.l2Room
    split <;> exact h.slcAsk

theorem Canon.needAll {f : State → Nat → State × Bool} (h : Canon s.mem) (hf : ∀ u n, Canon u.mem → Canon (f u n).1.mem) :
    Canon (s.needAll ks f).1.mem := h.foldl_fst fun _ _ h => hf _ _ h

theorem Canon.placeClear (h : Canon s.mem) : Canon (s.placeClear p line k).mem := by
  unfold State.placeClear
  dsimp only
  split
  · split
    · split
      · exact h
      · exact Canon.modCore h
    · split <;> exact h
  · exact h
  · exact h
  · split <;> exact h

theorem Canon.missed {who : Agent} (h : Canon s.mem) : Canon (s.missed sp line who).mem := h.of_mem (s.missed_mem sp line who)
theorem Canon.redo {q : Flight} (h : Canon s.mem) : Canon (s.redo q).mem := h.of_mem (s.redo_mem q)

theorem Canon.noticeWrite {who : Agent} (h : Canon s.mem) :
    Canon (s.noticeWrite p line who).mem := h.of_mem (s.noticeWrite_mem p line who)

theorem Canon.placeWr {who : Agent} (h : Canon s.mem) :
    Canon (s.placeWr p line off n x who).mem := s.placeWr_wf p line off n x who h

theorem Canon.overlaySeen (h : Canon s.mem) : Canon (s.overlaySeen core line).mem := by
  unfold State.overlaySeen
  refine h.foldl fun _ _ h => h.foldl fun u _ h => ?_
  repeat' split
  all_goals exact h

theorem Canon.needL1 (h : Canon s.mem) : Canon (s.needL1 core cc line k who).1.mem := by
  unfold State.needL1
  dsimp only
  split
  all_goals
    split
    · split <;> exact h
    · split
      next e => exact (Canon.of_fst e h.l1Room).unclaim
      next u e =>
        have h : Canon u.mem := .of_fst e h.l1Room
        split
        · split
          · exact h.needL2
          · exact h.needL2.putL1
        · split
          · exact h.slcAsk
          · split
            · exact h.slcAsk.putL1.setDir.overlaySeen
            · exact h.slcAsk.putL1

/-- A page walk reads; it goes down one level at a time. -/
theorem Canon.walkTables {levels : List (Nat × Nat)} {table : Nat} (h : Canon s.mem) :
    Canon (s.walkTables asid va levels table).1.mem := by
  induction levels generalizing s table with
  | nil => exact h
  | cons level rest ih =>
    unfold State.walkTables
    extract_lets +onlyGivenNames a
    split
    · exact h
    split
    · exact h
    split
    next u _ e =>
      have hu : Canon u.mem := .of_fst e h.slcAsk
      split
      · exact hu
      split
      · exact hu
      extract_lets x
      split
      · exact hu
      · exact hu
      · exact ih hu

theorem Canon.pteOr {bit : Nat} (h : Canon s.mem) : Canon (s.pteOr pte bit who).1.mem := by
  unfold State.pteOr
  dsimp only
  split
  · exact h
  split
  · exact h.slcAsk.unclaim
  · exact h.slcAsk.missed.slcWrite

theorem Canon.walk (h : Canon s.mem) : Canon (s.walk asid va).1.mem := by
  unfold State.walk
  dsimp only
  split
  · exact h
  split
  next e => exact .of_fst e h.walkTables
  next e => exact .of_fst e h.walkTables
  next e => exact .of_fst e h.walkTables
  next u _ _ _ e =>
    have h : Canon u.mem := .of_fst e h.walkTables
    split <;> exact h.pteOr

theorem Canon.translate {core : Option Nat} (h : Canon s.mem) : Canon (s.translate core asid va).1.mem := by
  unfold State.translate
  dsimp only
  split
  · exact h
  split
  · split <;> exact h
  split
  next u _ e =>
    have h : Canon u.mem := .of_fst e h.walk
    repeat' split
    all_goals exact h
  · exact h.walk

theorem Canon.markDirty (h : Canon s.mem) : Canon (s.markDirty pte).mem := h

theorem Canon.codeLine (h : Canon s.mem) : Canon (s.codeLine cc line).1.mem := by
  unfold State.codeLine
  split
  · split
    next u _ e =>
      have h : Canon u.mem := .of_fst e (h.needAll fun _ _ h => h.needL2)
      split
      · split <;> exact h
      · exact h
  · split
    next u _ e =>
      have h : Canon u.mem := .of_fst e h.slcAsk
      split <;> exact h

theorem Canon.fetch (h : Canon s.mem) : Canon (s.fetch core asid va).1.mem := by
  unfold State.fetch
  dsimp only
  split
  · exact h
  split
  next e => exact .of_fst e h.translate
  next e => exact .of_fst e h.translate
  next u _ e =>
    have h : Canon u.mem := .of_fst e h.translate
    iterate 6 (split; · exact h)
    split
    next e => exact .of_fst e h.codeLine
    next e => exact (Canon.of_fst e h.codeLine).modCore

theorem Canon.bringL1 (h : Canon s.mem) : Canon (s.bringL1 core cc f r who).1.mem := by
  unfold State.bringL1
  split
  next u _ e =>
    have h : Canon u.mem := .of_fst e (h.needAll fun _ _ h => h.needL1)
    split
    · exact h
    split
    · split <;> exact h
    split
    next e => exact (Canon.of_fst e h.l1Room).putL1
    next e => exact (Canon.of_fst e h.l1Room).unclaim

theorem Canon.prepare (h : Canon s.mem) : Canon (s.prepare core f r who).1.mem := by
  unfold State.prepare
  dsimp only
  split
  · exact h
  split
  · split
    · split
      · exact h.needAll fun _ _ h => h.needL1
      · exact h.slcAsk
    · split
      · split
        · exact h.cleanL1.unclaim
        split
        · exact h.cleanL1.dropL1.needAll fun _ _ h => h.needL2
        split
        · exact h.cleanL1.dropL1.cleanL2.unclaim
        · exact h.cleanL1.dropL1.cleanL2.dropL2.slcAsk
      · exact h.bringL1
    · exact h.bringL1
  · exact h

theorem Canon.performLane {a : LaneAcc} (h : Canon s.mem) : Canon (s.performLane f r p a).1.mem := by
  unfold State.performLane
  dsimp only
  split
  · exact h.placeWr
  · split
    · exact h.placeWr
    · exact h
  · exact h.placeWr
  · exact h
  · exact h
  · exact h
  · exact h

theorem Canon.register (h : Canon s.mem) : Canon (s.register tid uid line).mem := by
  unfold State.register
  dsimp only
  split <;> exact h

theorem Canon.noteRead (h : Canon s.mem) : Canon (s.noteRead f r).mem := by
  unfold State.noteRead
  split <;> exact h

theorem Canon.setD (h : Canon s.mem) : Canon (s.setD f r p).1.mem := by
  unfold State.setD
  dsimp only
  split
  · split
    all_goals
      split
      · exact h.pteOr.markDirty
      · exact h
  · exact h

theorem Canon.clearWhole (h : Canon s.mem) : Canon (s.clearWhole f r p).mem := by
  unfold State.clearWhole
  split
  · exact h.foldl fun _ _ h => h.placeClear
  · exact h

theorem Canon.performReq (h : Canon s.mem) : Canon (s.performReq fid k).mem := by
  unfold State.performReq
  split
  · exact h
  split
  · split
    · exact h
    split
    next u _ _ e =>
      have hu : Canon u.mem := .of_fst e h.prepare
      split
      · exact hu
      split
      next w _ e =>
        have hw : Canon w.mem := .of_fst e hu.setD
        split
        · exact hw
        extract_lets ahead
        split
        next s₁ _ e =>
          have h₁ : Canon s₁.mem := .of_fst e (Canon.foldl_fst hw fun _ _ h => h.performLane)
          extract_lets s₂ s₃ s₄ s₅
          have h₂ : Canon s₂.mem := h₁.clearWhole
          clear_value s₂
          have h₃ : Canon s₃.mem := by
            unfold s₃
            split
            · split
              · exact h₂
              · exact h₂.register
            · exact h₂.noteRead
          have h₄ : Canon s₄.mem := h₃.modFlight
          have h₅ : Canon s₅.mem := by
            unfold s₅
            split
            · exact h₄.redo.acquired
            · exact h₄
          clear_value s₅
          split
          · exact h₅.overlaySeen
          · exact h₅
  · exact h

theorem Canon.seeTurn (h : Canon s.mem) : Canon (s.seeTurn fid line).mem := by
  unfold State.seeTurn
  split
  · exact h
  split
  · split
    · split
      · refine (h.noticeWrite.foldl ?_).fresh.modFlight
        intro u _ h
        split <;> exact h
      · exact h
    · exact h
  · exact h

theorem Canon.performAll (h : Canon s.mem) : Canon (s.performAll fid).mem := by
  unfold State.performAll
  split
  · exact h
  · exact h.foldl fun _ _ h => h.performReq

theorem Canon.returnFlight (h : Canon s.mem) : Canon (s.returnFlight fid).mem := by
  unfold State.returnFlight
  split
  · exact h
  split
  · exact h
  · exact h.endFlight

theorem Canon.launch {owed : Option Await} (h : Canon s.mem) : Canon (s.launch f owed).mem := by
  unfold State.launch
  dsimp only
  split
  · exact h
  · exact Canon.modTeam h

end Sys2Proof.Machine
end

section
/-!
PROOFS. Main memory stays canonical: issue, the formation of an access, and the instructions that access memory.
-/
namespace Sys2Proof.Machine

variable {s : State} {a : AccSpec} {skip write konst uniform atScope : Bool} {d : Byte} {c : Ctx} {o : FR} {g : Group}
variable {lanes : LaneMask} {lvl : Level} {vals : List Nat} {tid uid cause code detail core n x ew va path asid : Nat}
variable {res : Residence} {t : Team} {epc pc : Word}

theorem Canon.flushParked (h : Canon s.mem) : Canon (s.flushParked tid).mem := by
  unfold State.flushParked
  refine h.foldl fun u _ h => ?_
  split <;> exact h

theorem Canon.dropArms (h : Canon s.mem) : Canon (s.dropArms tid uid).mem := h

theorem Canon.stopTeam (h : Canon s.mem) : Canon (s.stopTeam tid res).mem := by
  unfold State.stopTeam
  split
  · exact h
  split
  all_goals
    dsimp only
    exact ((h.flushParked.leaveQueues.foldl fun _ _ h => h.discardFence).foldl fun _ _ h => h.dropArms).modGroup.modTeam

theorem Canon.stopRecords (h : Canon s.mem) : Canon (s.stopRecords t cause).mem := h.foldl fun _ _ h => h.traceRecord

theorem Canon.debugStop {trap : Option (Nat × Nat × Nat × LaneMask × Bool × Word)} (h : Canon s.mem) :
    Canon (s.debugStop tid cause trap).mem := by
  unfold State.debugStop
  split
  · exact h
  · exact h.stopRecords.stopTeam.modTeam

/-- A trap that is raised now; where accesses are outstanding there is none yet. -/
theorem Canon.raise (h : Canon s.mem) : ∀ u, s.raise tid uid code detail lanes skip epc = some u → Canon u.mem := by
  unfold State.raise
  intro u e
  split at e
  · cases e; exact h
  split at e
  · cases e; exact h
  extract_lets asid stops at e
  split at e
  · cases e
  injection e with e
  subst e
  split
  · exact Canon.debugStop h.flushParked
  · exact Canon.takeTrap h.flushParked

theorem Canon.poisonHit {reg : RFile × Nat} (h : Canon s.mem) : Canon (s.poisonHit tid uid reg).mem := by
  unfold State.poisonHit
  split
  · exact h
  split
  · split
    · split
      · split
        · exact h
        · exact (h.flushParked.leaveQueues.discardFence.foldl fun _ _ h => h.abandonFlight).modTeam
      · exact h.groupPath
    · exact h.groupPath
  · exact h.groupPath

theorem Canon.cycleOn (h : Canon s.mem) : Canon (s.cycleOn core).mem := h

theorem Canon.passCycles (h : Canon s.mem) : Canon (s.passCycles core n).mem := by
  induction n generalizing s with
  | zero => exact h
  | succ n ih => exact ih h.cycleOn

theorem Canon.book {weight : Nat} (h : Canon s.mem) : Canon (s.book c weight).mem := by
  unfold State.book
  split <;> exact h

theorem Canon.account (h : Canon s.mem) : Canon (s.account c).mem := h.of_mem (s.account_mem c)

theorem Canon.gateOf {i : Instr} {p : Split} (h : Canon s.mem) : (gateOf i s t p g).MemCanon := by
  unfold Machine.gateOf
  dsimp only
  split
  · exact h
  split
  · exact h
  iterate 4 (split; · exact trivial)
  iterate 4 (split; · exact h)
  split
  · exact trivial
  split
  · exact h.poisonHit
  · split <;> exact h

theorem Canon.gate {i : Instr} (h : Canon s.mem) : (gate i s).MemCanon := by
  unfold Machine.gate
  split
  · exact trivial
  split
  · exact trivial
  split
  · exact h.gateOf
  · exact trivial

theorem Canon.advance (h : Canon s.mem) : Canon (s.advance c).mem := h
theorem Canon.goto (h : Canon s.mem) : Canon (s.goto c pc).mem := h

/-- The end of an issue: the effect counts, jumps, traps or waits. -/
theorem Canon.finish {r : Res} (h : Canon s.mem) (hr : r.MemCanon) : Canon (finish s c r).mem := by
  cases r with
  | done t => exact (Canon.advance hr).account
  | jump t => exact Canon.account hr
  | nested t code =>
    unfold Machine.finish
    dsimp only
    split
    · exact Canon.book hr
    · exact Canon.account hr
  | trap t code detail lanes skip =>
    unfold Machine.finish
    dsimp only
    split
    next u e =>
      have h : Canon u.mem := Canon.raise hr u e
      split
      · exact h.book
      · exact h.account
    · exact h
  | hold t => exact hr

theorem Canon.gateTrap (h : Canon s.mem) : Canon (s.gateTrap c code detail lanes).mem := h.modSplit.modSplit.getD h.modSplit.raise

/-- An instruction leaves canonical memory where its effect does, in whatever state the gate admits it. -/
theorem Canon.issue {i : Instr} {body : State → Ctx → Res} (h : Canon s.mem) (hbody : ∀ u c, Canon u.mem → (body u c).MemCanon) :
    Leads (issue i s body) := by
  unfold Machine.issue
  split
  · exact trivial
  next e => exact Admission.MemCanon.of_eq e h.gate
  · exact h.gateTrap
  next u _ e =>
    have hu : Canon u.mem := Admission.MemCanon.of_eq e h.gate
    exact h.finish (hbody _ _ hu)

theorem Canon.wrField {vals : List (Nat × Nat)} (h : Canon s.mem) : Canon (s.wrField c x ew vals).mem := h
theorem Canon.wrG {x : Byte} (h : Canon s.mem) : Canon (s.wrG c x vals).mem := h
theorem Canon.wrM {r : Nat} {x : LaneMask} (h : Canon s.mem) : Canon (s.wrM c r x).mem := h
theorem Canon.wrB {r : Nat} {x : BufRec} (h : Canon s.mem) : Canon (s.wrB c r x).mem := h

theorem Canon.complete (h : Canon s.mem) : Canon (s.complete tid uid).mem := by
  unfold State.complete
  repeat' split
  all_goals exact h

theorem Canon.blocked (h : Canon s.mem) : (Ctx.blocked c s vals).MemCanon := h.block.account

theorem Canon.reportFault {f : FaultMsg} (h : Canon s.mem) : Canon (s.reportFault f).mem := by
  unfold State.reportFault
  split
  · exact Canon.send h
  · exact h

theorem Canon.parkSplit {kind : ParkKind} (h : Canon s.mem) : Canon (s.parkSplit c kind va path write).mem := h.modSplit.reportFault

theorem Canon.lineOf {core : Option Nat} {need : Need} (h : Canon s.mem) : Canon (s.lineOf core asid va need).1.mem := by
  unfold State.lineOf
  dsimp only
  split
  next e => exact .of_fst e h.translate
  next e => exact .of_fst e h.translate
  next u _ e =>
    have h : Canon u.mem := .of_fst e h.translate
    split
    · exact h
    split
    · exact h
    split
    · exact h
    · split <;> exact h

theorem Canon.formLines {lines : List (Nat × List LaneAcc)} {suppressed : List Nat} (h : Canon s.mem) :
    (s.formLines c a lines suppressed).MemCanon := by
  unfold State.formLines
  dsimp only
  split
  · exact h.foldl_fst fun _ _ h => h.lineOf
  split
  · exact h.foldl_fst fun _ _ h => h.lineOf
  split
  · exact h.foldl_fst fun _ _ h => h.lineOf
  · split <;> exact h.foldl_fst fun _ _ h => h.lineOf

theorem Canon.formGlobal {r : BufRec} {idx : List (Nat × LaneAcc)} (h : Canon s.mem) : (s.formGlobal c a r konst idx).MemCanon := by
  unfold State.formGlobal
  dsimp only
  iterate 3 (split; · exact h)
  split
  · split <;> exact h
  split
  · split <;> exact h
  split
  · exact h.formLines
  · exact h.modTeam.formLines

theorem Canon.formLocal {disp align : Nat} {bases : List (Nat × LaneAcc)} (h : Canon s.mem) :
    (s.formLocal c lvl disp n align write uniform bases).MemCanon := by
  unfold State.formLocal
  dsimp only
  split
  · exact h
  · split <;> exact h

/-- An access leaves for its lines as its formation ended. -/
theorem Formed.MemCanon.depart {f : Formed} {owed : Option Owed} {mk : Flight → Flight} (h : f.MemCanon) :
    (depart c a f owed mk).MemCanon := by
  cases f with
  | trap s code detail lanes => exact h
  | hold s => exact h
  | dead s code => exact Canon.groupPath h
  | ok s suppressed reqs =>
    replace h : Canon s.mem := h
    unfold Machine.depart
    dsimp only
    generalize (if a.path = 1 then reqs.length else 1) = entries
    split
    · exact h
    split
    · exact h
    split
    · exact h.fresh.launch.parkSplit
    · exact h.fresh.launch

theorem Canon.onPath {f : Unit → Res} (h : Canon s.mem) (hf : ∀ x, (f x).MemCanon) : (s.onPath c path f).MemCanon := by
  unfold State.onPath
  split
  · exact h
  · exact hf _

theorem Canon.globalLoad {o : FMem} (h : Canon s.mem) :
    (globalLoad s c o path konst atScope).MemCanon := h.onPath fun _ => h.formGlobal.depart

theorem Canon.globalStore {o : FMem} (h : Canon s.mem) :
    (globalStore s c o atScope).MemCanon := h.onPath fun _ => h.formGlobal.depart

theorem Canon.execBnar (h : Canon s.mem) : Leads (execBnar o s) := by
  refine h.issue fun u _ h => ?_
  split <;> exact h

theorem Canon.promoteAt {a : Byte} {mk : Nat → Nat → BankReq} (h : Canon s.mem) : (promoteAt s c d a mk).MemCanon := by
  unfold Machine.promoteAt
  dsimp only
  split
  next e => exact .of_fst e h.lineOf
  next e => exact (Canon.of_fst e h.lineOf).groupPath
  next e => exact (Canon.of_fst e h.lineOf).parkSplit
  next e => exact .of_fst e h.lineOf
  next e => exact .of_fst e h.lineOf
  next u _ _ _ e =>
    have h : Canon u.mem := .of_fst e h.lineOf
    repeat' split
    all_goals exact h

theorem Canon.localLoad {o : FL} (h : Canon s.mem) : (localLoad s c o lvl).MemCanon := h.onPath fun _ => h.formLocal.depart
theorem Canon.localStore {o : FL} (h : Canon s.mem) : (localStore s c o lvl).MemCanon := h.onPath fun _ => h.formLocal.depart

theorem Canon.execAtagg {o : FMem} (h : Canon s.mem) : Leads (execAtagg o s) := by
  refine h.issue fun u c h => h.onPath fun _ => ?_
  dsimp only
  split
  next u' _ _ e =>
    have h' : Canon u'.mem := Formed.MemCanon.of_eq e h.formGlobal
    split
    · exact Formed.MemCanon.depart h'
    · exact h.formGlobal.depart
  · exact h.formGlobal.depart

theorem Canon.disarm (h : Canon s.mem) : Canon (s.disarm tid uid).mem := h

theorem Canon.execWaitmon {o : FI} (h : Canon s.mem) : Leads (execWaitmon o s) := by
  refine h.issue fun u _ h => ?_
  repeat' split
  all_goals exact h

theorem Canon.fenceAt {kind : Nat} {o : FFence} (h : Canon s.mem) : (fenceAt s c kind o).MemCanon := by
  unfold Machine.fenceAt
  split <;> exact h

theorem Canon.execCmaint {o : FI} (h : Canon s.mem) : Leads (execCmaint o s) := by
  refine h.issue fun u c h => ?_
  dsimp only
  split
  · exact h
  refine h.onPath fun _ => ?_
  split
  · exact Formed.MemCanon.depart h
  split
  next e => exact .of_fst e h.lineOf
  next e => exact .of_fst e h.lineOf
  next e => exact .of_fst e h.lineOf
  next e => exact Formed.MemCanon.depart (Canon.of_fst e h.lineOf)
  next e => exact Formed.MemCanon.depart (Canon.of_fst e h.lineOf)

end Sys2Proof.Machine
end

section
/-!
PROOFS. Main memory stays canonical: control flow, pools, placement and the system instructions.
-/
namespace Sys2Proof.Machine

variable {s : State} {rounds : Bool} {d : Byte} {c : Ctx} {o : FR} {lanes : LaneMask}
variable {gid n tid ew group x asid va core quad code detail uid : Nat} {target pc : Word}

theorem Canon.branchRecord {slot : Nat} (h : Canon s.mem) : Canon (s.branchRecord c slot target).mem := by
  unfold State.branchRecord
  split
  · exact h.traceRecord
  · exact h

theorem Canon.transfer (h : Canon s.mem) : Canon (s.transfer c target).mem := h.modSplit.branchRecord.goto

theorem Canon.branchIf {taken : Bool} (h : Canon s.mem) : (branchIf s c taken target).MemCanon := by
  unfold Machine.branchIf
  split
  · exact h.transfer
  · exact h

theorem Canon.flipIfFull (h : Canon s.mem) : Canon (s.flipIfFull gid n).mem := by
  unfold State.flipIfFull
  dsimp only
  split
  · exact h
  split
  · exact Canon.foldl h fun _ _ h => h.splitAcquires
  · exact h

theorem Canon.barrierCheck (h : Canon s.mem) : Canon (s.barrierCheck tid).mem := by
  unfold State.barrierCheck
  dsimp only
  iterate 3 (split; · exact h)
  split
  · exact h.modTeam.modGroup.flipIfFull
  · exact h.modSplit.getD h.modSplit.raise

theorem Canon.execBar {o : FI} (h : Canon s.mem) : Leads (execBar o s) := by
  refine h.issue fun u _ h => ?_
  split
  · exact h
  · exact h.modSplit.barrierCheck

theorem Canon.execJoin {o : FN} (h : Canon s.mem) : Leads (execJoin o s) := by
  refine h.issue fun u c h => ?_
  split
  · exact h
  split
  · exact h
  split
  · exact h
  · exact Canon.barrierCheck h

theorem Canon.endTeam (h : Canon s.mem) : Canon (s.endTeam tid pc).mem := by
  unfold State.endTeam
  split
  · exact h
  split
  · exact h
  extract_lets handle s₁ s₂ s₃ s₄
  have h₁ : Canon s₁.mem := by
    unfold s₁
    split
    · exact h.traceRecord
    · exact h
  have h₃ : Canon s₃.mem := Canon.foldl h₁ fun _ _ h => h.abandonFlight
  exact Canon.foldl h₃ fun _ _ h => h.flipIfFull

theorem Canon.execExit {o : FN} (h : Canon s.mem) : Leads (execExit o s) := by
  refine h.issue fun u _ h => ?_
  dsimp only
  split
  · exact h.modTeam.endTeam
  split
  · exact h
  split
  · exact h.modTeam.disarm.modTeam.endTeam
  · exact h.modTeam.disarm.modTeam.barrierCheck

theorem Canon.diverge {parts : List Part} (h : Canon s.mem) : (diverge s c parts).MemCanon := by
  unfold Machine.diverge
  dsimp only
  iterate 4 (split; · exact h)
  refine Canon.foldl (Canon.modTeam h) fun u _ h => ?_
  split
  · exact h
  · exact h.branchRecord

theorem Canon.consumeJoin (h : Canon s.mem) : Canon (s.consumeJoin c).mem := h

theorem Canon.execBrm {o : FJM} (h : Canon s.mem) : Leads (execBrm o s) := by
  refine h.issue fun u _ h => ?_
  dsimp only
  split
  · exact h
  split
  · exact h
  · exact h.diverge

theorem Canon.landing (h : Canon s.mem) : Canon (s.landing c target).1.mem := by
  have hf : Canon (s.fetch c.core c.grp.asid (c.grp.codeBase + target.toNat)).1.mem := h.fetch
  unfold State.landing
  generalize s.fetch c.core c.grp.asid (c.grp.codeBase + target.toNat) = r at hf ⊢
  obtain ⟨u, f⟩ := r
  cases f <;> exact hf

theorem Canon.execJmpi (h : Canon s.mem) : Leads (execJmpi o s) := by
  refine h.issue fun u c h => ?_
  split
  · exact h.consumeJoin
  extract_lets +onlyGivenNames tg mis targets
  split
  next w _ e =>
    have hw : Canon w.mem := .of_fst e (Canon.foldl_fst h fun _ _ h => h.landing)
    extract_lets +onlyGivenNames is bad
    split
    · exact hw
    split
    · exact hw
    rcases targets with _ | ⟨x, _ | _⟩
    · exact hw.diverge
    · exact hw.consumeJoin.modSplit.transfer
    · exact hw.diverge

theorem Canon.execCalli (h : Canon s.mem) : Leads (execCalli o s) := by
  refine h.issue fun u _ h => ?_
  dsimp only
  split
  · exact h
  split
  next e => exact .of_fst e h.landing
  next e => exact .of_fst e h.landing
  next e => exact (Canon.of_fst e h.landing).wrG.modSplit.transfer

theorem Canon.execRet {o : FN} (h : Canon s.mem) : Leads (execRet o s) := by
  refine h.issue fun u _ h => ?_
  dsimp only
  split
  · exact h
  · exact h.transfer

theorem Canon.arith {rows : List (Nat × Nat × Nat)} (h : Canon s.mem) : (arith s c d n ew group rows).MemCanon := by
  unfold Machine.arith
  dsimp only
  split
  · split <;> exact h
  split
  · exact h.foldl fun _ _ h => h.wrField
  · exact h.modTeam.foldl fun _ _ h => h.wrField

theorem Canon.lanewise {f : Nat → Nat → Nat × Nat} (h : Canon s.mem) : (lanewise s c d f).MemCanon := h.arith

theorem Canon.drawing (h : Canon s.mem) : Canon (s.drawing c rounds).mem := by
  unfold State.drawing
  split <;> exact h

theorem Canon.shuffle {cross : Bool} (h : Canon s.mem) : (shuffle s c o cross).MemCanon := h.arith
theorem Canon.broadcast (h : Canon s.mem) : (broadcast s c d x).MemCanon := h.arith

theorem Canon.execTred {o : FI} (h : Canon s.mem) : Leads (execTred o s) := by
  refine h.issue fun u _ h => ?_
  dsimp only
  split
  · split
    all_goals
      split
      · exact h.drawing
      · exact h.drawing.modTeam
  · split
    all_goals
      split
      · exact h.drawing.foldl fun _ _ h => h.wrField
      · exact h.drawing.modTeam.foldl fun _ _ h => h.wrField

theorem Canon.dispLine {lo hi : Nat} (h : Canon s.mem) : Canon (s.dispLine asid va lo hi).1.mem := by
  unfold State.dispLine
  split
  next e => exact .of_fst e h.lineOf
  next u _ _ _ e =>
    have h : Canon u.mem := .of_fst e h.lineOf
    split
    next u _ e =>
      have h : Canon u.mem := .of_fst e h.slcAsk
      split
      · exact h
      · split <;> exact h
  next e => exact .of_fst e h.lineOf

theorem Canon.dispRead (h : Canon s.mem) : Canon (s.dispRead asid va n).1.mem := by
  unfold State.dispRead
  dsimp only
  split
  all_goals
    refine h.foldl_fst fun _ _ h => ?_
    split
    · split
      next e => exact .of_fst e h.dispLine
      · exact h.dispLine
    · exact h

theorem Canon.kindOf {n : Node} (h : Canon s.mem) : Canon (s.kindOf n).1.mem := by
  unfold State.kindOf
  split
  · exact h
  split
  next e => exact .of_fst e h.dispRead
  next e => exact .of_fst e h.dispRead
  next e => exact .of_fst e h.dispRead

theorem Canon.modQuad {f : Quad → Quad} (h : Canon s.mem) : Canon (s.modQuad core quad f).mem := h

theorem Canon.findTiles {pages : List Nat} (h : Canon s.mem) : Canon (s.findTiles asid pages).1.mem := by
  unfold State.findTiles
  refine h.foldl_fst fun _ _ h => ?_
  split
  next e => exact .of_fst e h.lineOf
  next e => exact .of_fst e h.lineOf

theorem Canon.latch {idx : Nat} (h : Canon s.mem) : Canon (s.latch c idx).mem := h

theorem Canon.execSwrite {o : FE} (h : Canon s.mem) : Leads (execSwrite o s) := by
  refine h.issue fun u _ h => ?_
  dsimp only
  repeat' split
  all_goals exact h

theorem Canon.nestedTrap (h : Canon s.mem) : (nestedTrap s c code detail lanes).MemCanon := by
  unfold Machine.nestedTrap
  split
  · exact h
  · exact h.flushParked.takeTrap

theorem Canon.execTret {o : FE} (h : Canon s.mem) : Leads (execTret o s) := by
  refine h.issue fun u _ h => ?_
  dsimp only
  split
  · exact h
  split
  · exact h.nestedTrap
  split
  · exact h.nestedTrap
  split
  · exact h
  split
  next e => exact .of_fst e h.fetch
  next e => exact (Canon.of_fst e h.fetch).parkSplit
  next e => exact (Canon.of_fst e h.fetch).nestedTrap
  next e => exact (Canon.of_fst e h.fetch).groupPath
  next u _ e =>
    have h : Canon u.mem := .of_fst e h.fetch
    split <;> exact h

theorem Canon.execRegion {o : FE} (h : Canon s.mem) : Leads (execRegion o s) := by
  refine h.issue fun u _ h => ?_
  dsimp only
  repeat' split
  all_goals exact h

theorem Canon.execRelease {o : FE} (h : Canon s.mem) : Leads (execRelease o s) := by
  refine h.issue fun u _ h => ?_
  dsimp only
  repeat' split
  all_goals exact h

theorem Canon.grantClaim (h : Canon s.mem) : Canon (s.grantClaim tid uid n d).mem := h

theorem Canon.execClaim {o : FE} (h : Canon s.mem) : Leads (execClaim o s) := by
  refine h.issue fun u _ h => ?_
  dsimp only
  split
  · exact h
  split
  · exact h
  split
  · exact h
  · exact h.modQuad.blocked

theorem Canon.execSetperf {o : FE} (h : Canon s.mem) : Leads (execSetperf o s) := by
  refine h.issue fun u _ h => ?_
  dsimp only
  split <;> exact h

theorem Canon.execNode {o : FE} (h : Canon s.mem) : Leads (execNode o s) := by
  refine h.issue fun u _ h => ?_
  repeat' split
  all_goals exact h

theorem Canon.execEmit {o : FE} (h : Canon s.mem) : Leads (execEmit o s) := by
  refine h.issue fun u _ h => ?_
  dsimp only
  split
  · exact h
  split
  · exact h
  split
  next e => exact .of_fst e h.kindOf
  next u _ _ e =>
    have h : Canon u.mem := .of_fst e h.kindOf
    split
    · exact h
    split
    all_goals
      split
      · split <;> exact h.modTeam.wrG
      · split <;> exact h

theorem Canon.execJcadd {o : FE} (h : Canon s.mem) : Leads (execJcadd o s) := by
  refine h.issue fun u c h => ?_
  extract_lets jca
  split
  · exact h
  refine h.onPath fun _ => ?_
  have hd {mk} : (depart c { path := 1, n := 8, uniform := true, need := { r := true } } (.ok u [] []) none mk).MemCanon :=
    Formed.MemCanon.depart h
  split
  next w e =>
    have hw : (Res.done w).MemCanon := hd.of_eq e
    exact hw
  · exact hd

theorem Canon.execRpc {o : FE} (h : Canon s.mem) : Leads (execRpc o s) := by
  refine h.issue fun u _ h => ?_
  dsimp only
  split
  · exact h
  split
  · split
    · exact h.blocked
    · exact Canon.blocked h
  · exact Canon.wrG (Canon.send h)

theorem Canon.execRpcwait {o : FE} (h : Canon s.mem) : Leads (execRpcwait o s) := by
  refine h.issue fun u _ h => ?_
  dsimp only
  split
  · split
    · exact h
    split
    · exact h.blocked
    split
    · exact h
    · exact Canon.wrG (Canon.splitAcquires h)
  · exact h

theorem Canon.execTmark {o : FE} (h : Canon s.mem) : Leads (execTmark o s) := by
  refine h.issue fun u _ h => ?_
  split
  · exact h.traceRecord
  · exact h

end Sys2Proof.Machine
end

section
/-!
PROOFS. Main memory stays canonical: the engines and the matrix commands.
-/
namespace Sys2Proof.Machine

variable {s : State} {who : Asker} {inv rmw write uniform : Bool} {d : Byte} {c : Ctx} {cmd : EngCmd}
variable {mk done : EngCmd → EngCmd} {e : EvGroup} {o : FR} {g : Group} {ahead : List Ahead} {vals : List Nat}
variable {gid sel n status stamp k core cc va lv off path w tid x uid : Nat} {loc : Option Nat} {sp : Space}

theorem Canon.modEng {f : EngCtx → EngCtx} (h : Canon s.mem) : Canon (s.modEng gid sel f).mem := h
theorem Canon.modCmd {f : EngCmd → EngCmd} (h : Canon s.mem) : Canon (s.modCmd gid sel n f).mem := h

theorem Canon.acceptCmd (h : Canon s.mem) : (acceptCmd s c sel d mk).MemCanon := by
  unfold Machine.acceptCmd
  dsimp only
  split
  · exact h
  split
  · exact h.blocked
  · exact h

theorem Canon.report {w : Word} {e : Nat} (h : Canon s.mem) : Canon (s.report g w status e stamp).mem := by
  unfold State.report
  split
  · exact h
  split
  · exact h
  · exact h.localWrite

theorem Canon.engFail (h : Canon s.mem) : Canon (s.engFail gid sel n k loc inv).mem := by
  unfold State.engFail
  split
  · exact h
  split
  · exact h
  split
  · exact h
  · exact h.modEng.localWrite.report

theorem Canon.engDone (h : Canon s.mem) : Canon (s.engDone gid sel n status).mem := by
  unfold State.engDone
  split
  · exact h
  split
  · exact h
  split
  · exact h
  · exact h.report.modEng

theorem Canon.qres {mode : Nat} (h : Canon s.mem) : Canon (s.qres gid sel mode).mem := by
  unfold State.qres
  dsimp only
  split
  · exact h
  split
  · exact h
  split
  · split
    · exact h.localWrite.modGroup.modEng
    · exact h
  · split
    · exact h.localWrite.modEng
    · exact h

theorem Canon.acceptCopy {o : FE} {op : CmdOp} (h : Canon s.mem) : (acceptCopy s c o op).MemCanon := by
  unfold Machine.acceptCopy
  exact h.acceptCmd

theorem Canon.engDiscard (h : Canon s.mem) : Canon (s.engDiscard gid sel n).mem := h.engDone

theorem Canon.startCopy (h : Canon s.mem) : Canon (s.startCopy gid sel).mem := by
  unfold State.startCopy
  iterate 3 (split; · exact h)
  split
  · exact h
  · exact h.engDiscard
  split
  · exact h
  split
  · split
    · exact h.engFail
    · exact h

theorem Canon.unitAt {a : Nat} {pte write : Option Nat} (h : Canon s.mem) :
    Canon (s.unitAt core gid sp a cc pte write n rmw who).1.mem := by
  unfold State.unitAt
  extract_lets away f r
  split
  · exact h
  split
  next u ok _ e =>
    have hu : Canon u.mem := .of_fst e h.prepare
    split
    · exact hu
    split
    · split
      · split <;> exact hu.unclaim
      have hq : Canon (match pte with
          | some e => (let (s, ok) := u.pteOr e 11 who; (s.markDirty e, ok))
          | none => (u, true)).1.mem := by
        split
        · exact hu.pteOr.markDirty
        · exact hu
      split
      next w _ e =>
        have hw : Canon w.mem := .of_fst e hq
        split
        · exact hw
        · exact hw.placeWr.unclaim

theorem Canon.unitAligned {write : Option Nat} (h : Canon s.mem) : Canon (s.unitAligned g va write n rmw who).1.mem := by
  unfold State.unitAligned
  split
  next e => exact (Canon.of_fst e h.lineOf).unitAt
  next e => exact .of_fst e h.lineOf

theorem Canon.unitGlobal {write : Option Nat} (h : Canon s.mem) : Canon (s.unitGlobal g va write n rmw who).1.mem := by
  unfold State.unitGlobal
  dsimp only
  split
  · exact h.unitAligned
  split
  next u _ _ _ e =>
    have h : Canon u.mem := .of_fst e h.lineOf
    split
    next u _ _ _ e =>
      have h : Canon u.mem := .of_fst e h.unitAligned
      split
      next e => exact .of_fst e h.unitAligned
      · exact h.unitAligned
    · exact h.unitAligned
  next e => exact .of_fst e h.lineOf

theorem Canon.unitLocal {write : Option Nat} (h : Canon s.mem) : Canon (s.unitLocal g lv off write n stamp).1.mem := by
  unfold State.unitLocal
  split
  · exact h
  · exact h.unitAt

theorem Canon.unitSide {write : Option Nat} (h : Canon s.mem) : Canon (s.unitSide g cmd k off write).1.mem := by
  unfold State.unitSide
  split
  · split
    · exact h.unitGlobal
    · exact h
  · exact h.unitLocal

theorem Canon.engPark (h : Canon s.mem) : Canon (s.engPark g sel n va path write).mem := h.modCmd.reportFault

theorem Canon.unitStops {r : UnitR} {loc : Nat} (h : Canon s.mem) : Canon (s.unitStops g sel n r loc path).mem := by
  unfold State.unitStops
  split
  · exact h.engPark
  · exact h.engFail
  · exact h.groupPath
  · exact h

theorem Canon.writeOver {access : State → Nat → State × UnitR} {stops : State → UnitR → State} (h : Canon s.mem)
    (haccess : ∀ u n, Canon u.mem → Canon (access u n).1.mem) (hstops : ∀ u r, Canon u.mem → Canon (stops u r).mem) :
    Canon (s.writeOver g sel cmd w done access stops).mem := by
  unfold State.writeOver
  dsimp only
  split
  next s' _ _ _ e =>
    have h' : Canon s'.mem := .of_fst e (haccess _ _ h)
    split
    · exact h.modCmd
    refine Canon.modCmd ?_
    split
    · exact haccess _ _ h
    · exact h'
  next e => exact hstops _ _ (.of_fst e (haccess _ _ h))

theorem Canon.engWrite {loc : Nat} {access : State → Nat → State × UnitR} (h : Canon s.mem)
    (haccess : ∀ u n, Canon u.mem → Canon (access u n).1.mem) :
    Canon (s.engWrite g sel cmd loc w done access).mem := h.writeOver haccess fun _ _ h => h.unitStops

theorem Canon.copyStep (h : Canon s.mem) : Canon (s.copyStep g sel cmd).mem := by
  unfold State.copyStep
  split
  · exact h.engWrite fun _ _ h => h.unitSide
  split
  · exact h
  split
  · split
    next e => exact (Canon.of_fst e h.unitSide).modCmd
    next e => exact (Canon.of_fst e h.unitSide).unitStops

theorem Canon.collRead {members : List Nat} (h : Canon s.mem) : ∀ q, s.collRead g ahead off members = .error q → Canon q.1.mem := by
  induction members with
  | nil =>
    intro q hq
    unfold State.collRead at hq
    cases hq
  | cons i members ih =>
    intro q hq
    unfold State.collRead at hq
    split at hq
    · split at hq
      · cases hq
      · exact ih q hq
    next e =>
      cases hq
      exact .of_fst e h.unitLocal

theorem Canon.collStep (h : Canon s.mem) : Canon (s.collStep g sel cmd).mem := by
  unfold State.collStep
  extract_lets +onlyGivenNames b w op root ms total u read
  have hr : Canon read.mem := by
    unfold read
    split
    next e => exact Canon.unitStops (h.collRead _ e)
    split
    · extract_lets s₁
      have h₁ : Canon s₁.mem := by
        unfold s₁
        split <;> exact h
      exact h₁
  clear_value read
  split
  · split
    · exact h.engWrite fun _ _ h => h.unitLocal
    · exact hr
  · split
    · exact hr
    · exact h

theorem Canon.transferUnit (h : Canon s.mem) : Canon (s.transferUnit gid sel n).mem := by
  unfold State.transferUnit
  iterate 3 (split; · exact h)
  split
  · exact h.collStep
  · exact h.copyStep

theorem Canon.waitTimeline (h : Canon s.mem) : (waitTimeline s c sel n).MemCanon := by
  unfold Machine.waitTimeline
  dsimp only
  split
  · exact h
  split
  · exact h
  split
  · exact h.splitAcquires
  split
  · exact h
  · exact h.blocked

theorem Canon.execTlget {o : FE} (h : Canon s.mem) : Leads (execTlget o s) := by
  refine h.issue fun u _ h => ?_
  split <;> exact h

theorem Canon.execWaitp {o : FE} (h : Canon s.mem) : Leads (execWaitp o s) := by
  refine h.issue fun u _ h => ?_
  dsimp only
  split
  · exact h
  · exact h.blocked

theorem Canon.objectPoison {bad : Bool} {d : Option Byte} (h : Canon s.mem) : Canon (s.objectPoison c bad d).mem := by
  unfold State.objectPoison
  split
  · exact h
  · exact h
  · exact h.groupPath

theorem Canon.onObject {release : Bool} {f : Space → Nat → Res} (h : Canon s.mem) (hf : ∀ a n, (f a n).MemCanon) :
    (onObject s c w write release f).MemCanon := by
  unfold Machine.onObject
  split
  · exact h
  split
  next e => exact Formed.MemCanon.of_eq e h.formLocal
  next u _ _ e =>
    have h : Canon u.mem := Formed.MemCanon.of_eq e h.formLocal
    split
    · exact h
    · exact hf _ _
  next e => exact Formed.MemCanon.of_eq e h.formLocal
  next e => exact Formed.MemCanon.of_eq e h.formLocal
  next e => exact Formed.MemCanon.of_eq e h.formLocal

theorem Canon.execBwait {o : FE} (h : Canon s.mem) : Leads (execBwait o s) := by
  refine h.issue fun _ _ h => h.onObject fun _ _ => ?_
  split
  · exact h.objectPoison
  split
  · exact h.splitAcquires
  · exact h.blocked

theorem Canon.answer {tok : Nat} (h : Canon s.mem) : Canon (s.answer tid tok x).mem := h

theorem Canon.execYjoin {o : FE} (h : Canon s.mem) : Leads (execYjoin o s) := by
  refine h.issue fun u _ h => ?_
  dsimp only
  repeat' split
  all_goals exact h

theorem Canon.markLeaving (h : Canon s.mem) : Canon (s.markLeaving gid).mem := by
  unfold State.markLeaving
  split <;> exact h

theorem Canon.execYleave {o : FE} (h : Canon s.mem) : Leads (execYleave o s) := by
  refine h.issue fun u _ h => ?_
  split
  · exact h
  · exact Canon.markLeaving (Canon.modGroup (Canon.modTeam h))

theorem Canon.execYjoinComplete {e : EvYard} (h : Canon s.mem) : Leads (execYjoinComplete e s) := by
  unfold Machine.execYjoinComplete
  dsimp only
  iterate 3 (split; · exact h)
  split
  · exact Canon.answer h
  split
  all_goals
    split
    · exact Canon.answer h
    · split <;> exact Canon.answer h

theorem Canon.execYleaveComplete (h : Canon s.mem) : Leads (execYleaveComplete e s) := by
  unfold Machine.execYleaveComplete
  split
  · split
    · exact h
    · exact (h.revokeYard.foldl fun _ _ h => h.answer).modGroup
  · exact h

theorem Canon.takeGrid {shape home : Nat} (h : Canon s.mem) : Canon (s.takeGrid tid shape home).mem := h

theorem Canon.execGrid {o : FE} (h : Canon s.mem) : Leads (execGrid o s) := by
  refine h.issue fun u _ h => ?_
  dsimp only
  split
  · exact h
  split
  · exact h
  · exact h.blocked

theorem Canon.releaseGrid (h : Canon s.mem) : Canon (s.releaseGrid tid).mem := by
  unfold State.releaseGrid
  split
  · exact h
  exact h

theorem Canon.execUngrid {o : FE} (h : Canon s.mem) : Leads (execUngrid o s) := by
  refine h.issue fun u _ h => ?_
  dsimp only
  split
  · exact h
  split
  · exact h
  split
  · exact h.blocked
  · exact h.releaseGrid

theorem Canon.withTokens {go : State → Res} (h : Canon s.mem) (hgo : ∀ u, Canon u.mem → (go u).MemCanon) :
    (withTokens s c go vals).MemCanon := by
  unfold Machine.withTokens
  split
  · exact h
  split
  · exact hgo _ h
  extract_lets need first
  split
  · exact hgo _ h
  · exact Canon.blocked h

theorem Canon.acceptMat {slots : List Nat} (h : Canon s.mem) : (acceptMat s c slots mk).MemCanon := by
  unfold Machine.acceptMat
  dsimp only
  split
  · exact h.blocked
  · exact h

theorem Canon.execMloop (h : Canon s.mem) : Leads (execMloop o s) := by
  refine h.issue fun u _ h => ?_
  dsimp only
  iterate 3 (split; · exact h)
  split
  · exact h
  · exact h.withTokens fun _ h => h.acceptMat

theorem Canon.execMsta {o : FE} (h : Canon s.mem) : Leads (execMsta o s) := by
  refine h.issue fun u _ h => ?_
  dsimp only
  split
  · exact h
  · exact h.acceptMat

theorem Canon.execMacc {o : FE} (h : Canon s.mem) : Leads (execMacc o s) := by
  refine h.issue fun u _ h => ?_
  dsimp only
  split
  · exact h
  split
  · exact h
  · exact h.withTokens fun _ h => h.acceptMat

theorem Canon.onTile {d : Nat} {f : Group → Res} (h : Canon s.mem) (hf : ∀ a, (f a).MemCanon) : (onTile s c d inv f).MemCanon := by
  unfold Machine.onTile
  dsimp only
  split
  · exact h
  split
  · exact h
  split
  · exact h.blocked
  · exact hf _

theorem Canon.execMstat {o : FE} (h : Canon s.mem) : Leads (execMstat o s) := by
  refine h.issue fun u _ h => ?_
  dsimp only
  split <;> exact h

theorem Canon.execMwait {o : FE} (h : Canon s.mem) : Leads (execMwait o s) := by
  refine h.issue fun u _ h => ?_
  dsimp only
  split
  · exact h
  split
  · exact h
  split
  · exact h.blocked
  · exact h

theorem Canon.execMxv (h : Canon s.mem) : Leads (execMxv o s) := by
  refine h.issue fun u _ h => ?_
  dsimp only
  iterate 7 (split; · exact h)
  split
  · exact h
  · exact h.withTokens fun _ h => h.blocked

theorem Canon.execGridTake {e : EvTeam} (h : Canon s.mem) : Leads (execGridTake e s) := by
  unfold Machine.execGridTake
  dsimp only
  split
  · exact h
  split
  · exact h
  split
  · repeat' split
    all_goals exact h
  · split
    · split
      · split
        · exact h.takeGrid.complete
        · exact h
      · exact h
    · exact h

theorem Canon.execUngridComplete {e : EvTeam} (h : Canon s.mem) : Leads (execUngridComplete e s) := by
  unfold Machine.execUngridComplete
  dsimp only
  split
  · exact h
  split
  · split
    · exact h
    · exact h.releaseGrid
  · split
    · exact h
    split
    · exact h.getD h.raise
    split
    · exact h
    · exact h.releaseGrid.complete

theorem Canon.grantHead (h : Canon s.mem) : Canon s.grantHead.mem := by
  unfold State.grantHead
  dsimp only
  iterate 3 (split; · exact h)
  split
  · dsimp only
    exact h
  · exact h

theorem Canon.execTokenGrant (h : Canon s.mem) : Leads (execTokenGrant s) := h.grantHead

theorem Canon.execTokenIdleRelease {e : EvTeam} (h : Canon s.mem) : Leads (execTokenIdleRelease e s) := by
  unfold Machine.execTokenIdleRelease
  repeat' split
  all_goals exact h

theorem Canon.opUnit {a : Nat} {write : Option Nat} (h : Canon s.mem) : Canon (s.opUnit g cmd k a write n rmw who).1.mem := by
  have hr : Canon (match lvlOf (bw cmd.block k) with
      | 0 => s.unitGlobal g a write n rmw who
      | lv => s.unitLocal g lv a write n (cmd.stamp s.nextId)).1.mem := by
    split
    · exact h.unitGlobal
    · exact h.unitLocal
  unfold State.opUnit
  split
  next e => exact .of_fst e hr
  · exact hr

/-- Word after word of an operand, stopping at the first that cannot be read. -/
theorem Canon.opWords {a : Nat} (h : Canon s.mem) : OperandsCanon (s.opWords g cmd k a n) := by
  induction n generalizing s a with
  | zero => exact h
  | succ n ih =>
    unfold State.opWords
    split
    next u _ _ _ e =>
      have hu : Canon u.mem := .of_fst e h.opUnit
      split
      next e =>
        have hv := OperandsCanon.of_eq e (ih hu)
        exact hv
      · exact ih hu
    next u _ _ e =>
      have hu : Canon u.mem := .of_fst e h.opUnit
      exact hu

theorem Canon.opRead {r : OpRange} (h : Canon s.mem) : OperandsCanon (s.opRead g cmd r) := by
  unfold State.opRead
  dsimp only
  split
  next u _ e =>
    have h : Canon u.mem := OperandsCanon.of_eq e h.opWords
    exact h
  · exact h.opWords

theorem Canon.opReads {rs : List OpRange} (h : Canon s.mem) : OperandsCanon (s.opReads g cmd rs) := by
  induction rs generalizing s with
  | nil => exact h
  | cons r rs ih =>
    unfold State.opReads
    split
    next e =>
      have hq := OperandsCanon.of_eq e h.opRead
      exact hq
    next u _ e =>
      have hu : Canon u.mem := OperandsCanon.of_eq e h.opRead
      split
      next e => exact .of_eq e (ih hu)
      next e =>
        have hv := OperandsCanon.of_eq e (ih hu)
        exact hv

theorem Canon.matFail (h : Canon s.mem) : Canon (s.matFail gid sel cmd k loc).mem := by
  unfold State.matFail
  dsimp only
  split
  all_goals
    split
    · exact h
    · exact h.modGroup.engFail

theorem Canon.matStops {r : UnitR} {loc : Nat} (h : Canon s.mem) : Canon (s.matStops g sel cmd r loc path).mem := by
  unfold State.matStops
  split
  · exact h.engPark
  · exact h.matFail
  · exact h.groupPath
  · exact h

theorem Canon.gridClocks (h : Canon s.mem) : Canon (s.gridClocks tid n).mem := by
  unfold State.gridClocks
  split
  · exact h
  split
  · exact h.foldl fun _ _ h => h.modQuad
  · exact h

theorem Canon.execMatrixCommandStart {e : EvEngine} (h : Canon s.mem) : Leads (execMatrixCommandStart e s) := by
  unfold Machine.execMatrixCommandStart
  dsimp only
  iterate 3 (split; · exact h)
  split
  · exact h
  · exact h.engDiscard
  split
  · exact h
  split
  · exact h.matFail
  split
  · exact h.modCmd.gridClocks
  · exact h

theorem Canon.execMloopStep {e : EvEngineCmd} (h : Canon s.mem) : Leads (execMloopStep e s) := by
  unfold Machine.execMloopStep
  dsimp only
  iterate 3 (split; · exact h)
  split
  · exact h.matFail
  split
  next e => exact (OperandsCanon.of_eq e h.opReads).matStops
  next u _ e =>
    have h : Canon u.mem := OperandsCanon.of_eq e h.opReads
    split
    · exact h.matFail
    split
    next e => exact (OperandsCanon.of_eq e h.opReads).matStops
    next e => exact (OperandsCanon.of_eq e h.opReads).modGroup.modCmd.gridClocks

theorem Canon.tileStep (h : Canon s.mem) : Canon (s.tileStep g sel cmd).mem := by
  unfold State.tileStep
  dsimp only
  split
  · exact h.writeOver (fun _ _ h => h.opUnit) fun _ _ h => h.matStops
  split
  · exact h
  split
  · exact h
  split
  next e => exact (OperandsCanon.of_eq e h.opRead).matStops
  next e => exact (OperandsCanon.of_eq e h.opRead).modGroup.modCmd

theorem Canon.execMatrixCommandFinish {e : EvEngineCmd} (h : Canon s.mem) : Leads (execMatrixCommandFinish e s) := by
  unfold Machine.execMatrixCommandFinish
  dsimp only
  iterate 3 (split; · exact h)
  split
  · split
    · exact h.engDone
    · exact h
  · split
    · exact h.engDone
    · exact h
  · split
    · exact h.modGroup.engDone
    · exact h
  · split
    · exact h
    · exact h.modGroup.engDone
  · exact h

theorem Canon.mxvRead {q : MxvRun} {lanes : List Nat} (h : Canon s.mem) : OperandsCanon (s.mxvRead g q lanes) := by
  induction lanes generalizing s with
  | nil => exact h
  | cons l lanes ih =>
    unfold State.mxvRead
    split
    next e => exact .of_eq e h.opReads
    next u _ e =>
      have hu : Canon u.mem := OperandsCanon.of_eq e h.opReads
      extract_lets n
      split
      next e => exact .of_eq e (ih hu)
      next e =>
        have hv := OperandsCanon.of_eq e (ih hu)
        exact hv

theorem Canon.wholeLines {l : List (Nat × OpRange)} (h : Canon s.mem) : (s.wholeLines c cmd uniform l).MemCanon := by
  unfold State.wholeLines
  split
  next u _ _ _ e =>
    have h : Canon u.mem := Formed.MemCanon.of_eq e h.formLines
    exact h
  · exact h.formLines

theorem Formed.MemCanon.afterLines {f : Formed} {go : State → State} (h : f.MemCanon) (hgo : ∀ u, Canon u.mem → Canon (go u).mem) :
    Canon (afterLines c f go).mem := by
  cases f with
  | trap s code detail lanes => exact Canon.getD h (Canon.raise h)
  | hold s => exact h
  | dead s code => exact Canon.groupPath h
  | ok s suppressed reqs =>
    unfold Machine.afterLines
    dsimp only
    split
    · exact Canon.parkSplit h
    · exact hgo _ h

theorem Canon.wholeStops {q : Stopped} (h : Canon q.s.mem) : Canon (wholeStops gid q).mem := by
  unfold Machine.wholeStops
  split
  · exact h.groupPath
  · exact h.groupPath
  · exact h

theorem Canon.beginClocks (h : Canon s.mem) : Canon (s.beginClocks tid uid n).mem := h.modSplit.gridClocks

theorem Canon.execMxvFinish {e : EvSplit} (h : Canon s.mem) : Leads (execMxvFinish e s) := by
  unfold Machine.execMxvFinish
  dsimp only
  split
  · exact h
  split
  · split
    · split
      · exact h
      split
      · exact h.getD h.raise
      refine h.wholeLines.afterLines fun u h => ?_
      split
      · exact h.beginClocks
      split
      next e => exact Canon.wholeStops (OperandsCanon.of_eq e h.mxvRead)
      next e => exact (OperandsCanon.of_eq e h.mxvRead).wrField.complete
    · exact h
  · exact h

end Sys2Proof.Machine
end

section
/-!
PROOFS. Main memory stays canonical: rays, the rasteriser and the reads of the engines.
-/
namespace Sys2Proof.Machine

variable {s : State} {pass : Bool} {d : Byte} {c : Ctx} {cmd : EngCmd} {mk : EngCmd → EngCmd} {e : EvGroup} {o : FR} {g : Group}
variable {ahead : List Ahead} {ks : List Nat} {gid code va n lane part tid uid lv addr k path w sel : Nat} {loc : Option Nat}
variable {ray : Ray}

theorem Canon.acceptRays (h : Canon s.mem) : (acceptRays s c d mk).MemCanon := by
  unfold Machine.acceptRays
  split
  · exact h
  split
  · exact h.blocked
  · exact h.acceptCmd

theorem Canon.startRay (h : Canon s.mem) : Canon (s.startRay gid).mem := by
  unfold State.startRay
  dsimp only
  iterate 3 (split; · exact h)
  split
  · exact h
  · exact h.engDiscard
  split
  all_goals
    split
    · exact h
    · split
      · exact h.engFail
      · exact h

theorem Canon.execTploadSlotLoad (h : Canon s.mem) : Leads (execTploadSlotLoad e s) := by
  unfold Machine.execTploadSlotLoad
  dsimp only
  iterate 3 (split; · exact h)
  split
  next e => exact (OperandsCanon.of_eq e h.opRead).unitStops
  next u _ e =>
    have h : Canon u.mem := OperandsCanon.of_eq e h.opRead
    split
    · exact h.engFail
    · split <;> exact h

theorem Canon.writeRecord {who : Agent} {r : RayRec} (h : Canon s.mem) : Canon (s.writeRecord who ray r).mem := h.localWrite
theorem Canon.endRay {r : RayRec} (h : Canon s.mem) : Canon (s.endRay gid ray r).mem := h.writeRecord.modGroup
theorem Canon.faultRay {r : RayRec} (h : Canon s.mem) : Canon (s.faultRay gid ray r code).mem := h.endRay

theorem Canon.execRayStart (h : Canon s.mem) : Leads (execRayStart e s) := by
  unfold Machine.execRayStart
  iterate 6 (split; · exact h)
  split
  · exact h.engFail
  split
  · exact h
  extract_lets +onlyGivenNames old went rec0 ray enter
  have hw : Canon (went s).mem := h
  split
  · exact h.engFail
  iterate 3 (split; · exact h)
  split
  · exact h
  · split <;> exact h

theorem Canon.nodeWords {o : Nat} {acc : List (Nat × Byte)} (h : Canon s.mem) : (s.nodeWords g ahead va n o acc).MemCanon := by
  induction n generalizing s o acc with
  | zero => exact h
  | succ n ih =>
    unfold State.nodeWords
    extract_lets a
    split
    next e => exact .of_fst e h.lineOf
    next e => exact .of_fst e h.lineOf
    next e => exact .of_fst e h.lineOf
    next e => exact .of_fst e h.lineOf
    next e => exact .of_fst e h.lineOf
    next u _ _ _ e =>
      have hu : Canon u.mem := .of_fst e h.lineOf
      split
      next e => exact ih (.of_fst e hu.unitAt)
      next e => exact .of_fst e hu.unitAt
      next e => exact .of_fst e hu.unitAt

theorem Canon.fetchNode {p : TProg} {node : Nat} (h : Canon s.mem) : (s.fetchNode g ahead p node).MemCanon := by
  unfold State.fetchNode
  dsimp only
  split
  · exact h
  split
  · exact h
  split
  next u _ e =>
    have h : Canon u.mem := NodeR.MemCanon.of_eq e h.nodeWords
    exact h
  · exact h.nodeWords

theorem Canon.reportNode (h : Canon s.mem) : Canon (s.reportNode g code va).mem := by
  unfold State.reportNode
  split
  · exact h.reportFault
  · exact h

theorem Canon.setRay (h : Canon s.mem) : Canon (s.setRay gid ray).mem := h

theorem Canon.resumeRay {r : RayRec} {p : TProg} (h : Canon s.mem) : Canon (s.resumeRay g ray r p).mem := by
  unfold State.resumeRay
  dsimp only
  split
  · split
    next e => exact NodeR.MemCanon.of_eq e h.fetchNode
    next e => exact (NodeR.MemCanon.of_eq e h.fetchNode).groupPath
    next e => exact (NodeR.MemCanon.of_eq e h.fetchNode).reportNode.faultRay
    next e => exact (NodeR.MemCanon.of_eq e h.fetchNode).setRay
  · split
    · split
      next e => exact NodeR.MemCanon.of_eq e h.fetchNode
      next e => exact (NodeR.MemCanon.of_eq e h.fetchNode).groupPath
      next e => exact (NodeR.MemCanon.of_eq e h.fetchNode).reportNode.faultRay
      next e => exact (NodeR.MemCanon.of_eq e h.fetchNode).setRay
    · exact h

theorem Canon.stepRay {r : RayRec} {p : TProg} (h : Canon s.mem) : Canon (s.stepRay g ray r p).mem := by
  unfold State.stepRay
  split
  · exact h.faultRay
  split
  · exact h.faultRay
  split
  · split
    · exact h.faultRay
    split
    next e => exact NodeR.MemCanon.of_eq e h.fetchNode
    next e => exact (NodeR.MemCanon.of_eq e h.fetchNode).groupPath
    next e => exact (NodeR.MemCanon.of_eq e h.fetchNode).reportNode.faultRay
    next e => exact (NodeR.MemCanon.of_eq e h.fetchNode).setRay
  · split
    · exact h.faultRay
    split
    · exact h
    · exact h.endRay

theorem Canon.rayStep (h : Canon s.mem) : Canon (s.rayStep g ray).mem := by
  unfold State.rayStep
  dsimp only
  split
  · split
    · exact h.writeRecord.setRay
    · exact h.endRay
  · split
    · split
      · exact h
      · exact h.modGroup.engFail
    · split
      all_goals
        split
        · exact h.faultRay
        · split
          · exact h.faultRay
          · split
            · exact h.stepRay
            · exact h.resumeRay

theorem Canon.execRayMicroOpStep {e : EvRay} (h : Canon s.mem) : Leads (execRayMicroOpStep e s) := by
  unfold Machine.execRayMicroOpStep
  split
  · exact h
  split
  · exact h
  split
  · exact h
  · exact h.rayStep

theorem Canon.nodeReadTurn (h : Canon s.mem) : Canon (s.nodeReadTurn gid n lane part).mem := by
  unfold State.nodeReadTurn
  dsimp only
  iterate 5 (split; · exact h)
  split
  next u _ _ _ e =>
    have h : Canon u.mem := .of_fst e h.unitGlobal
    split <;> exact h
  next e => exact .of_fst e h.unitGlobal

theorem Canon.recordPartTurn (h : Canon s.mem) : Canon (s.recordPartTurn gid n lane part).mem := by
  unfold State.recordPartTurn
  dsimp only
  iterate 3 (split; · exact h)
  split
  · split
    · exact h.localWrite.setRay
    · exact h
  · split
    · exact h
    split
    · split
      · exact h
      · exact Canon.setRay (Canon.localWrite h)
    · exact h

theorem Canon.execRbox (h : Canon s.mem) : Leads (execRbox o s) := by
  refine h.issue fun u _ h => ?_
  dsimp only
  iterate 5 (split; · exact h)
  split
  · exact h
  · exact h.withTokens fun _ h => h.blocked

theorem Canon.execRboxFinish {e : EvSplit} (h : Canon s.mem) : Leads (execRboxFinish e s) := by
  unfold Machine.execRboxFinish
  dsimp only
  split
  · exact h
  split
  · split
    · split
      · exact h
      split
      · exact h.getD h.raise
      refine h.wholeLines.afterLines fun u h => ?_
      split
      · exact h.beginClocks
      split
      next e => exact Canon.wholeStops (OperandsCanon.of_eq e h.opRead)
      next e => exact (OperandsCanon.of_eq e h.opRead).wrField.complete
    · exact h
  · exact h

theorem Canon.splitReadTurn (h : Canon s.mem) : Canon (s.splitReadTurn tid uid lv addr).mem := by
  unfold State.splitReadTurn
  split
  · exact h
  split
  next g _ _ =>
    extract_lets +onlyGivenNames streams
    split
    · exact h
    have hr : Canon (if lv = 0 then s.unitGlobal g addr none else s.unitLocal g lv addr none 4 s.nextId).1.mem := by
      split
      · exact h.unitGlobal
      · exact h.unitLocal
    split
    next u _ _ _ e =>
      have hu : Canon u.mem := .of_fst e hr
      exact hu
    next e => exact .of_fst e hr
  · exact h

theorem Canon.rastFail (h : Canon s.mem) : Canon (s.rastFail gid n k loc pass).mem := by
  unfold State.rastFail
  dsimp only
  split
  · exact h.engFail.modGroup
  · exact h.engFail

theorem Canon.startRast (h : Canon s.mem) : Canon (s.startRast gid pass).mem := by
  unfold State.startRast
  dsimp only
  iterate 4 (split; · exact h)
  split
  · exact h
  · exact h.engDiscard
  split
  · exact h
  split
  · exact h.engFail
  repeat' split
  all_goals exact h

theorem Canon.execRastCommandStart (h : Canon s.mem) : Leads (execRastCommandStart e s) := h.startRast
theorem Canon.execRequestPassStart (h : Canon s.mem) : Leads (execRequestPassStart e s) := h.startRast

theorem Canon.latchMap (h : Canon s.mem) : Canon (s.latchMap gid).mem := by
  unfold State.latchMap
  split
  · exact h
  split
  · exact h
  · exact (h.foldl fun _ _ h => h.answer).modGroup

theorem Canon.execVrslLatch (h : Canon s.mem) : Leads (execVrslLatch e s) := by
  unfold Machine.execVrslLatch
  split
  · exact h
  split
  · exact h.latchMap
  · exact h

theorem Canon.updateSamples {t : Tri} {prim : Nat} (h : Canon s.mem) : Canon (s.updateSamples g cmd t prim ks).s.mem := by
  induction ks generalizing s with
  | nil => exact h
  | cons k ks ih =>
    unfold State.updateSamples
    extract_lets x y d a
    split
    next u _ _ _ e =>
      have hu : Canon u.mem := .of_fst e h.opUnit
      split
      · split
        next e => exact ih (.of_fst e hu.opUnit)
        next w _ _ e =>
          have hw : Canon w.mem := .of_fst e hu.opUnit
          exact hw
      · exact ih hu
    next u _ _ e =>
      have hu : Canon u.mem := .of_fst e h.opUnit
      exact hu

theorem Canon.execRastTriangle (h : Canon s.mem) : Leads (execRastTriangle e s) := by
  unfold Machine.execRastTriangle
  iterate 3 (split; · exact h)
  extract_lets +onlyGivenNames s₁ g₁ fetched
  have h₁ : Canon s₁.mem := by
    unfold s₁
    split
    · exact h.latchMap
    · exact h
  clear_value s₁
  have hf : OperandsCanon fetched := by
    unfold fetched
    split
    · exact h₁
    split
    next e =>
      have hq := OperandsCanon.of_eq e h₁.opRead
      exact hq
    next e =>
      have hq := OperandsCanon.of_eq e h₁.opRead
      exact hq
  clear_value fetched
  split
  · exact Canon.unitStops hf
  next u _ _ =>
    have hu : Canon u.mem := hf
    extract_lets +onlyGivenNames prim r
    have hr : Canon r.s.mem := by
      unfold r
      split
      · exact hu.updateSamples
      · exact hu
    split
    · exact Canon.unitStops hr
    · exact Canon.latchMap hr

theorem Canon.execRequestPassSample (h : Canon s.mem) : Leads (execRequestPassSample e s) := by
  unfold Machine.execRequestPassSample
  split
  · exact h
  split
  · exact h
  extract_lets +onlyGivenNames k
  split
  · exact h
  extract_lets +onlyGivenNames stops went a
  have hs : ∀ {u r x p}, Canon u.mem → Canon (stops u r x p).mem := by
    intro u r x p hu
    unfold stops
    split
    · exact hu.rastFail
    · exact hu.unitStops
  have hw : ∀ {u}, Canon u.mem → Canon (went u).mem := by
    intro u hu
    unfold went
    extract_lets +onlyGivenNames u₁
    split <;> exact hu
  clear_value stops went
  split
  next u _ _ _ e =>
    have hu : Canon u.mem := .of_fst e h.opUnit
    split
    · exact hw hu
    extract_lets +onlyGivenNames x y key seen n at' req
    clear_value seen
    have hq : Canon req.1.mem := by
      unfold req
      split
      · exact hu
      · exact hu.opUnit
    clear_value req
    split
    · exact hu.rastFail
    split
    next w _ _ _ =>
      have hq : Canon w.mem := hq
      extract_lets +onlyGivenNames w₁ b
      have h₁ : Canon w₁.mem := by
        unfold w₁
        split <;> exact hq
      clear_value w₁
      split
      next e => exact hw (.of_fst e h₁.opUnit)
      next e => exact hs (.of_fst e h₁.opUnit)
    · exact hs hq
  next e => exact hs (.of_fst e h.opUnit)

theorem Canon.readWhole {r : OpRange} {f : State → Nat → Res} (h : Canon s.mem) (hf : ∀ u n, Canon u.mem → (f u n).MemCanon) :
    (readWhole s c cmd r path f).MemCanon := by
  unfold Machine.readWhole
  split
  next e => exact Formed.MemCanon.of_eq e h.wholeLines
  next e => exact Formed.MemCanon.of_eq e h.wholeLines
  next e => exact (Formed.MemCanon.of_eq e h.wholeLines).groupPath
  next u _ _ e =>
    have hu : Canon u.mem := Formed.MemCanon.of_eq e h.wholeLines
    split
    · exact hu.parkSplit
    split
    next e => exact hf _ _ (OperandsCanon.of_eq e hu.opRead)
    next q e =>
      have hq : Canon q.s.mem := OperandsCanon.of_eq e hu.opRead
      split
      · exact hq
      · exact hq
      · exact Canon.wholeStops hq

theorem Canon.execAtlnext {o : FE} (h : Canon s.mem) : Leads (execAtlnext o s) := by
  refine h.issue fun u c h => ?_
  extract_lets +onlyGivenNames a
  split
  · exact h
  extract_lets +onlyGivenNames held
  split
  · split
    · exact h.blocked
    · exact h
  · exact h
  · split
    · split
      · exact h.blocked
      · exact h
    · extract_lets +onlyGivenNames b keep u₁ cmd read
      have h₁ : Canon u₁.mem := by
        unfold u₁
        split <;> exact h
      have hr : read.MemCanon := h₁.readWhole fun _ _ h => h
      clear_value read
      split <;> exact hr

theorem Canon.execAtldone {o : FE} (h : Canon s.mem) : Leads (execAtldone o s) := by
  refine h.issue fun u _ h => ?_
  dsimp only
  repeat' split
  all_goals exact h

theorem Canon.stageMap {tw th : Nat} {bytes : List Nat} (h : Canon s.mem) : (stageMap s c d tw th bytes).MemCanon := by
  unfold Machine.stageMap
  dsimp only
  split
  · exact h
  split
  · exact h.latchMap.modGroup.wrG
  · exact h

theorem Canon.execVrsl {o : FE} (h : Canon s.mem) : Leads (execVrsl o s) := by
  refine h.issue fun u c h => ?_
  extract_lets +onlyGivenNames b w tw th n r cmd
  split
  · exact h
  extract_lets +onlyGivenNames u₁ count
  have h₁ : Canon u₁.mem := by
    unfold u₁
    split
    · exact h.cancelFlight
    · exact h
  have hc : ∀ r : Res, r.MemCanon → (count r).MemCanon := by
    intro r hr
    unfold count
    split
    · exact Canon.launch hr
    · exact hr
  clear_value u₁ count
  refine h₁.onPath fun _ => hc _ ?_
  split
  · exact h₁
  split
  · exact h₁
  split
  · split
    · exact h₁
    · exact Canon.stageMap h₁
  · split
    · exact h₁
    split
    · exact h₁
    split
    · exact h₁
    · exact h₁.readWhole fun _ _ h => h.stageMap

theorem Canon.formOperand {offs : List (Option Nat × LaneAcc)} (h : Canon s.mem) : (s.formOperand c w n offs).MemCanon := by
  unfold State.formOperand
  dsimp only
  split
  · split
    · exact h
    split
    · exact h
    split
    · split <;> exact h
    split
    · exact h.formLines
    · exact h.modTeam.formLines
  · split
    all_goals
      split
      · exact h
      · split <;> exact h

theorem Canon.execVisrd {o : FE} (h : Canon s.mem) : Leads (execVisrd o s) := by
  refine h.issue fun u _ h => ?_
  dsimp only
  split
  · exact h
  · exact h.onPath fun _ => h.formOperand.depart

theorem Canon.readNow {rs : List LineReq} (h : Canon s.mem) : Canon (s.readNow c n rs).1.mem := by
  induction rs generalizing s with
  | nil => exact h
  | cons r rs ih =>
    unfold State.readNow
    extract_lets f away
    split
    next u _ _ e =>
      have hu : Canon u.mem := .of_fst e h.prepare
      split
      · exact hu
      extract_lets here
      split
      next e => exact .of_fst e (ih hu)
      next e => exact .of_fst e (ih hu)

theorem Canon.sampTexels {o : FE} {sup : List Nat} {reqs : List LineReq} (h : Canon s.mem) :
    (s.sampTexels c o sup reqs).MemCanon := by
  unfold State.sampTexels
  dsimp only
  split
  next e => exact .of_fst e h.readNow
  next u _ e =>
    have h : Canon u.mem := .of_fst e h.readNow
    split
    next e => exact Formed.MemCanon.of_eq e h.formOperand
    · exact h.formOperand

theorem Canon.execSamp {o : FE} (h : Canon s.mem) : Leads (execSamp o s) := by
  refine h.issue fun u c h => ?_
  extract_lets +onlyGivenNames b
  split
  · exact h
  refine h.onPath fun _ => ?_
  split
  · exact h
  split
  next u' _ _ e =>
    have hv : Canon u'.mem := Formed.MemCanon.of_eq e h.formOperand
    split
    next e => exact Sampled.MemCanon.of_eq e hv.sampTexels
    next e => exact Formed.MemCanon.depart (Sampled.MemCanon.of_eq e hv.sampTexels)
    next w zero _ reqs e =>
      have hw : Canon w.mem := Sampled.MemCanon.of_eq e hv.sampTexels
      have hd {mk} : (depart c { path := 7, n := 8 } (.ok w zero reqs) (some ⟨.v, o.d.toNat, 2, c.act⟩) mk).MemCanon :=
        Formed.MemCanon.depart hw
      split
      next e =>
        have hj := Res.MemCanon.of_eq e hd
        exact hj
      · exact hd
  · exact h.formOperand.depart

theorem Canon.execEngineCommandStart {e : EvEngine} (h : Canon s.mem) : Leads (execEngineCommandStart e s) := by
  unfold Machine.execEngineCommandStart
  split
  · exact h.startCopy
  · exact h.startCopy
  · exact h.startRay
  · exact h

theorem Canon.execEngineTransfer {e : EvEngineCmd} (h : Canon s.mem) : Leads (execEngineTransfer e s) := by
  unfold Machine.execEngineTransfer
  split
  · exact h.transferUnit
  split
  · exact h
  split
  · exact h
  split
  · exact h.tileStep
  · exact h

theorem Canon.engineReadTurn (h : Canon s.mem) : Canon (s.engineReadTurn gid sel n lv addr).mem := by
  unfold State.engineReadTurn
  split
  · exact h
  next g _ =>
    split
    · exact h
    next cmd _ =>
      extract_lets +onlyGivenNames ready
      split
      · exact h
      have hr : Canon (if lv = 0 then s.unitGlobal g addr none else s.unitLocal g lv addr none 4 (cmd.stamp s.nextId)).1.mem := by
        split
        · exact h.unitGlobal
        · exact h.unitLocal
      split
      next u _ _ _ e =>
        have hu : Canon u.mem := .of_fst e hr
        extract_lets +onlyGivenNames a
        split <;> exact hu
      next e => exact .of_fst e hr

theorem Canon.execEngineCommandComplete {e : EvEngineCmd} (h : Canon s.mem) : Leads (execEngineCommandComplete e s) := by
  unfold Machine.execEngineCommandComplete
  split
  · exact h
  split
  · exact h
  split
  · exact h.engDone
  · exact h

end Sys2Proof.Machine
end

section
/-!
PROOFS. Main memory stays canonical: what comes back to accesses, and what the host sends.
-/
namespace Sys2Proof.Machine

variable {s : State} {who : Asker} {ok own clean drop : Bool} {f : Flight} {g : Group} {lanes : LaneMask}
variable {lines frames : List Nat} {fid core asid tid uid code detail k gid sel n line agent id i : Nat} {t : Team} {pc : Word}

theorem Canon.yardFault (h : Canon s.mem) : Canon (s.yardFault t f).mem := by
  unfold State.yardFault
  dsimp only
  split
  · exact h.modFlight.endFlight
  · exact h.getD h.modFlight.endFlight.raise

theorem Canon.serve {p : AccKind → Bool} (h : Canon s.mem) : Canon (s.serve fid p).mem := by
  unfold State.serve
  split
  · exact h
  split
  · exact h
  split
  · split
    · exact h.yardFault
    · exact h.performAll.returnFlight
  · exact h.performAll.returnFlight

theorem Canon.execLoadDataReturn {e : EvFlight} (h : Canon s.mem) : Leads (execLoadDataReturn e s) := h.serve
theorem Canon.execStorePerformed {e : EvFlight} (h : Canon s.mem) : Leads (execStorePerformed e s) := h.serve
theorem Canon.execMonitorRegistration {e : EvFlight} (h : Canon s.mem) : Leads (execMonitorRegistration e s) := h.serve

theorem Canon.execSlcRequest {e : EvFlightLine} (h : Canon s.mem) : Leads (execSlcRequest e s) := by
  unfold Machine.execSlcRequest
  split
  · exact h
  refine h.foldl fun u _ h => ?_
  split
  · split
    · exact h.performReq
    · exact h
  · exact h

theorem Canon.execL1Invalidation {e : EvCoreLine} (h : Canon s.mem) : Leads (execL1Invalidation e s) := by
  unfold Machine.execL1Invalidation
  split
  · exact Canon.conflict (Canon.dropHcCopy h)
  · exact h

theorem Canon.retranslate {pick : LineReq → Bool} (h : Canon s.mem) : Canon (s.retranslate core asid f pick).1.mem := by
  unfold State.retranslate
  split
  next u _ e =>
    have hu : Canon u.mem := by
      refine .of_fst e (h.foldl_fst fun q r hq => ?_)
      split
      · exact hq.lineOf
      · exact hq
    extract_lets write lanesOf kinds has
    repeat' split
    all_goals exact hu

theorem Canon.lateTrap (h : Canon s.mem) : Canon (s.lateTrap tid uid code detail lanes pc).mem := h

theorem Canon.releaseHeld (h : Canon s.mem) : Canon (s.releaseHeld tid uid fid).1.mem := by
  unfold State.releaseHeld
  dsimp only
  split
  · split
    · split
      · split
        · exact h.modFlight.performAll.returnFlight
        · exact h.modFlight.performAll
      · exact h.modFlight.performAll
    · split
      next e => exact .of_fst e h.retranslate
      next e => exact (Canon.of_fst e h.retranslate).groupPath
      next e => exact (Canon.of_fst e h.retranslate).cancelFlight.lateTrap
      next u _ e =>
        have h : Canon u.mem := .of_fst e h.retranslate
        split
        · split
          · exact h.modFlight.modFlight.performAll.returnFlight
          · exact h.modFlight.modFlight.performAll
        · exact h.modFlight.modFlight.performAll
      next u _ _ e =>
        have h : Canon u.mem := .of_fst e h.retranslate
        split
        · exact h
        split
        · exact h
        · exact h.modFlight.modSplit.reportFault
  · exact h

theorem Canon.releaseAll {xs : List Nat} (h : Canon s.mem) : Canon (s.releaseAll tid uid xs).1.mem := by
  induction xs generalizing s with
  | nil => exact h
  | cons x xs ih =>
    unfold State.releaseAll
    split
    next e => exact ih (.of_fst e h.releaseHeld)
    · exact h.releaseHeld

theorem Canon.execFenceComplete {e : EvSplit} (h : Canon s.mem) : Leads (execFenceComplete e s) := by
  unfold Machine.execFenceComplete
  extract_lets +onlyGivenNames mine held
  clear_value held
  split
  · split
    · exact h
    split
    · exact h.releaseAll
    · exact h
  · split
    · exact h
    split
    · exact h
    extract_lets +onlyGivenNames waiting
    have hq : Canon (if waiting then (s, false) else s.releaseAll e.team e.split held).1.mem := by
      split
      · exact h
      · exact h.releaseAll
    split
    next e =>
      extract_lets +onlyGivenNames s₁ kept
      have h₁ : Canon s₁.mem := by
        unfold s₁
        split
        · exact (Canon.of_fst e hq).splitAcquires
        · exact .of_fst e hq
      have hk : Canon kept.mem := h₁
      clear_value s₁ kept
      split
      · exact hk
      extract_lets free
      split
      · exact hk
      · exact hk.getD hk.modSplit.raise

theorem Canon.execWaitmonTimeout {e : EvSplit} (h : Canon s.mem) : Leads (execWaitmonTimeout e s) := by
  unfold Machine.execWaitmonTimeout
  repeat' split
  all_goals exact h

theorem Canon.execPageWalkComplete {e : EvWalk} (h : Canon s.mem) : Leads (execPageWalkComplete e s) := by
  unfold Machine.execPageWalkComplete
  split
  · exact h.translate
  · exact h

theorem Canon.freeFaultTicket (h : Canon s.mem) : Canon (s.freeFaultTicket k).mem := by
  unfold State.freeFaultTicket
  dsimp only
  split
  · exact h
  · exact Canon.reportFault h

theorem Canon.answerSplit (h : Canon s.mem) : Canon (s.answerSplit tid uid ok).mem := by
  unfold State.answerSplit
  split
  · exact h.modSplit.splitAcquires
  · exact h

theorem Canon.answerEngine (h : Canon s.mem) : Canon (s.answerEngine gid sel n ok).mem := by
  unfold State.answerEngine
  iterate 4 (split; · exact h)
  split
  · exact h.matFail
  · exact h.rastFail
  · exact h.engFail

theorem Canon.execFaultReply {e : EvReply} (h : Canon s.mem) : Leads (execFaultReply e s) := by
  unfold Machine.execFaultReply
  dsimp only
  split
  · split
    · exact h.freeFaultTicket.answerSplit
    · exact h.freeFaultTicket.answerEngine
    · exact h.freeFaultTicket
    split
    · exact h.freeFaultTicket
    · exact Canon.send h.freeFaultTicket
  · exact h

theorem Canon.refuse {p : Split} {k : Park} (h : Canon s.mem) : Canon (s.refuse t p k).mem := by
  unfold State.refuse
  split
  next u _ _ e =>
    have hu : Canon u.mem := by
      refine .of_fst e ?_
      split
      · exact h
      · split
        · exact h.cancelFlight
        · exact h
      · exact h.abandonFlight
    extract_lets s'
    have h' : Canon s'.mem := hu
    clear_value s'
    split
    · exact h'.lateTrap
    · exact h.getD h'.raise

theorem Canon.resample {p : Split} (h : Canon s.mem) : Canon (s.resample t p g f).1.mem := by
  unfold State.resample
  split
  · exact h.retranslate
  extract_lets +onlyGivenNames o src c stop
  have hs : ∀ q : Formed, q.MemCanon → Canon (stop q).1.mem := by
    intro q hq
    unfold stop
    split <;> exact hq
  clear_value stop
  split
  next e =>
    have hu := Formed.MemCanon.of_eq e h.formOperand
    split
    next e => exact Sampled.MemCanon.of_eq e (Canon.sampTexels hu)
    next e => exact hs _ (Sampled.MemCanon.of_eq e (Canon.sampTexels hu))
    next u' _ _ _ e =>
      have hv : Canon u'.mem := Sampled.MemCanon.of_eq e (Canon.sampTexels hu)
      extract_lets +onlyGivenNames f'
      split
      next e => exact .of_fst e (Canon.retranslate hv.modFlight)
      · exact Canon.retranslate hv.modFlight
  · exact hs _ h.formOperand

theorem Canon.replayAccess {p : Split} {k : Park} (h : Canon s.mem) : Canon (s.replayAccess t p g k f).mem := by
  unfold State.replayAccess
  dsimp only
  split
  all_goals
    split
    · exact h
    · split
      next e => exact .of_fst e h.resample
      next e => exact (Canon.of_fst e h.resample).groupPath
      next u _ _ _ e =>
        have h : Canon u.mem := .of_fst e h.resample
        split
        · exact h.abandonFlight.modSplit.lateTrap
        · exact h.getD h.abandonFlight.modSplit.raise
      next u _ _ e =>
        have h : Canon u.mem := .of_fst e h.resample
        split
        · exact h.modFlight.modCore.modSplit.reportFault
        · exact h

theorem Canon.execParkedReplay {e : EvSplit} (h : Canon s.mem) : Leads (execParkedReplay e s) := by
  unfold Machine.execParkedReplay
  dsimp only
  split
  · exact h
  split
  · split
    · exact h
    split
    all_goals
      split
      · exact h
      · split
        · exact h.refuse
        · split
          · exact h
          · split
            · split
              · exact h.replayAccess
              · exact h
            · exact h
  · exact h

theorem Canon.execTranslationInvalidation {e : EvInv} (h : Canon s.mem) : Leads (execTranslationInvalidation e s) := by
  unfold Machine.execTranslationInvalidation
  split <;> exact h

theorem Canon.execInvalidationAck (h : Canon s.mem) : Leads (execInvalidationAck s) := by
  unfold Machine.execInvalidationAck
  split
  · exact h
  split
  · exact Canon.send h
  · exact h

theorem Canon.hostDir (h : Canon s.mem) : Canon (s.hostDir line own agent).1.mem := by
  unfold State.hostDir
  dsimp only
  split
  · exact h
  split
  · exact h
  split
  · exact h.recall
  · split <;> exact h

theorem Canon.hostAsk {lines : List (Nat × List Nat)} (h : Canon s.mem) : Canon (s.hostAsk lines own agent who).1.mem := by
  unfold State.hostAsk
  refine h.foldl_fst fun _ _ h => ?_
  split
  · exact h
  split
  next e => exact .of_fst e h.hostDir
  next u e =>
    have h : Canon u.mem := .of_fst e h.hostDir
    split
    next e => exact .of_fst e h.slcFill

theorem Canon.setHost {h₀ : HostSt} (h : Canon s.mem) : Canon (s.setHost lines h₀ agent).mem := h.foldl fun _ _ h => h.setDir
theorem Canon.noticeHost {who : Agent} (h : Canon s.mem) : Canon (s.noticeHost lines who).mem := h.foldl fun _ _ h => h.missed
theorem Canon.hostAcquires {plat : Bool} (h : Canon s.mem) : Canon (s.hostAcquires id plat).mem := h

theorem Canon.hostTry {r : HostReq} (h : Canon s.mem) : Canon (s.hostTry who r).1.mem := by
  unfold State.hostTry
  dsimp only
  split
  · split
    · split
      next e => exact .of_fst e h.hostAsk
      next e => exact (Canon.of_fst e h.hostAsk).hostAcquires.send.setHost
    · exact h
  · split
    · split
      next e => exact .of_fst e h.hostAsk
      next e => exact (Canon.of_fst e h.hostAsk).noticeHost.slcWrite.setHost.send
    · exact h
  · split
    · split
      next e => exact .of_fst e h.hostAsk
      next u e =>
        have h : Canon u.mem := .of_fst e h.hostAsk
        split
        · exact h.noticeHost.slcWrite.hostAcquires.setHost.send
        · exact h.hostAcquires.setHost.send
    · exact h

theorem Canon.hostWait {r : HostReq} (h : Canon s.mem) : Canon (s.hostWait r).mem := Canon.foldl h fun _ _ h => h.claim

theorem Canon.hostArrive {r : HostReq} (h : Canon s.mem) : Canon (s.hostArrive r).mem := by
  unfold State.hostArrive
  split
  · exact h
  split
  · split
    next e => exact .of_fst e h.hostTry
    next e => exact (Canon.of_fst e h.hostTry).hostWait
  · exact h.hostWait

theorem Canon.hostTurn (h : Canon s.mem) : Canon (s.hostTurn i).mem := by
  unfold State.hostTurn
  split
  · exact h
  split
  next u e =>
    have h : Canon u.mem := .of_fst e h.hostTry
    exact h
  next e => exact .of_fst e h.hostTry

theorem Canon.execSnoopResponse {e : EvSnoop} (h : Canon s.mem) : Leads (execSnoopResponse e s) := by
  unfold Machine.execSnoopResponse
  split
  · exact h
  · exact Canon.setDir (Canon.foldl h fun _ _ h => h.slcSectorWrite)

theorem Canon.maintL1 (h : Canon s.mem) : Canon (s.maintL1 core lines clean drop).1.mem := by
  refine h.foldl_fst fun q l h => ?_
  have hc : Canon (if clean then q.1.cleanL1 core l else (q.1, true)).1.mem := by
    split
    · exact h.cleanL1
    · exact h
  generalize (if clean then q.1.cleanL1 core l else (q.1, true)) = r at hc ⊢
  obtain ⟨u, ok⟩ := r
  dsimp only at hc ⊢
  split
  · exact hc
  split
  · exact hc.dropL1
  · exact hc

theorem Canon.maintL2 (h : Canon s.mem) : Canon (s.maintL2 lines clean drop).1.mem := by
  refine h.foldl_fst fun q l h => ?_
  have hc : Canon (if clean then q.1.cleanL2 l else (q.1, true)).1.mem := by
    split
    · exact h.cleanL2
    · exact h
  generalize (if clean then q.1.cleanL2 l else (q.1, true)) = r at hc ⊢
  obtain ⟨u, ok⟩ := r
  dsimp only at hc ⊢
  split
  · exact hc
  split
  · exact hc.dropL2
  · exact hc

theorem Canon.cleanFrames (h : Canon s.mem) : Canon (s.cleanFrames frames).1.mem := by
  unfold State.cleanFrames
  extract_lets mine
  split
  next u _ e =>
    have hu : Canon u.mem := .of_fst e (Canon.foldl_fst h fun _ _ h => h.maintL1)
    split
    next w _ e =>
      have hw : Canon w.mem := .of_fst e hu.maintL2
      exact Canon.foldl hw fun _ _ h => h.setDir

theorem Canon.execFrameCleanComplete (h : Canon s.mem) : Leads (execFrameCleanComplete s) := by
  unfold Machine.execFrameCleanComplete
  split
  · exact h
  split
  next u e =>
    have hu : Canon u.mem := .of_fst e h.cleanFrames
    exact hu
  next e => exact .of_fst e h.cleanFrames

theorem Canon.execCmaintComplete {e : EvFlight} (h : Canon s.mem) : Leads (execCmaintComplete e s) := by
  unfold Machine.execCmaintComplete
  dsimp only
  split
  · exact h
  split
  · split
    · exact h
    split
    all_goals
      split
      · split
        · exact h.maintL1.maintL2.modFlight.returnFlight
        · exact h.maintL1.maintL2
      · split
        · exact h.maintL1.modFlight.returnFlight
        · exact h.maintL1
  · exact h

theorem Canon.execIcinvComplete {e : EvSplit} (h : Canon s.mem) : Leads (execIcinvComplete e s) := by
  unfold Machine.execIcinvComplete
  split
  · exact h
  split
  · split
    · exact h
    · exact Canon.modSplit h
  · exact h

theorem Canon.ringTurn (h : Canon s.mem) : Canon (s.ringTurn i).mem := by
  unfold State.ringTurn
  split
  · exact h
  extract_lets +onlyGivenNames gone len
  split
  · exact h
  split
  · exact h.ringWrite
  extract_lets +onlyGivenNames ls
  split
  next e => exact .of_fst e (h.foldl_fst fun _ _ h => h.slcAsk)
  next u e =>
    have hu : Canon u.mem := .of_fst e (h.foldl_fst fun _ _ h => h.slcAsk)
    have hn : Canon (ls.foldl (fun s l => s.noticeWrite (.slc none) l.1 .device) u).mem := hu.foldl fun _ _ h => h.noticeWrite
    exact hn.ringWrite

theorem Canon.execBankAccess {e : EvBankAccess} (h : Canon s.mem) : Leads (execBankAccess e s) := by
  unfold Machine.execBankAccess
  dsimp only
  split
  · exact h
  · split
    · exact h.putBank.accessServed
    · exact h
  · exact h

theorem Canon.execPerBankRefresh {e : EvBank} (h : Canon s.mem) : Leads (execPerBankRefresh e s) := h

theorem Canon.execBankSegmentRequest {e : EvBank} (h : Canon s.mem) : Leads (execBankSegmentRequest e s) := by
  unfold Machine.execBankSegmentRequest
  dsimp only
  split
  · exact h
  split
  · split
    · exact h
    split
    · exact h
    · exact h
    · split <;> exact h.putBank
  · repeat' split
    all_goals exact h
  · exact h.putBank.accessServed
  · exact h

theorem Canon.execSegmentWritebackDone {e : EvBank} (h : Canon s.mem) : Leads (execSegmentWritebackDone e s) := by
  unfold Machine.execSegmentWritebackDone
  dsimp only
  split <;> exact h

theorem Canon.execSegmentCopyDone {e : EvBank} (h : Canon s.mem) : Leads (execSegmentCopyDone e s) := by
  unfold Machine.execSegmentCopyDone
  dsimp only
  split <;> exact h

end Sys2Proof.Machine
end

section
/-!
PROOFS. Main memory stays canonical: launch, power, preemption, contexts, trust and debug.
-/
namespace Sys2Proof.Machine

variable {s before : State} {e : EvGroup} {g : Group} {quads frames : List Nat} {jca value asid core gid i k off tid : Nat}
variable {ray : Ray} {res : Residence} {t : Team}

theorem Canon.execClaimGrant {e : EvQuad} (h : Canon s.mem) : Leads (execClaimGrant e s) := by
  unfold Machine.execClaimGrant
  split
  · exact h
  split
  · exact h
  split
  · split
    · exact h.getD h.modQuad.modSplit.raise
    split
    · exact h.modQuad.grantClaim.complete
    split
    · exact h.getD h.modQuad.modSplit.raise
    · exact h
  · exact h

theorem Canon.execSplitRotation {e : EvTeam} (h : Canon s.mem) : Leads (execSplitRotation e s) := by
  unfold Machine.execSplitRotation
  split
  · exact h
  split
  · split <;> exact h
  · exact h

theorem Canon.execSplitReload {e : EvTeam} (h : Canon s.mem) : Leads (execSplitReload e s) := by
  unfold Machine.execSplitReload
  dsimp only
  split
  · exact h
  split
  · exact h
  split
  · exact h
  · exact h.passCycles

theorem Canon.execTeamGranuleReturn {e : EvTeam} (h : Canon s.mem) : Leads (execTeamGranuleReturn e s) := by
  unfold Machine.execTeamGranuleReturn
  repeat' split
  all_goals exact h

theorem Canon.execGroupEnd (h : Canon s.mem) : Leads (execGroupEnd e s) := by
  unfold Machine.execGroupEnd
  split
  · exact h
  next g _ =>
    split
    · exact h
    split
    · exact h.groupPath
    split
    · exact h
    extract_lets +onlyGivenNames leave
    have hl : ∀ {u}, Canon u.mem → Canon (leave u).mem := by
      intro u hu
      unfold leave
      extract_lets +onlyGivenNames u₁ u₂
      have h₂ : Canon u₂.mem := hu.revokeYard (gid := g.id)
      clear_value u₂
      split
      · exact h₂
      · exact Canon.jcAdd h₂
    clear_value leave
    split
    · exact hl h
    extract_lets +onlyGivenNames u₁
    have h₁ : Canon u₁.mem := h.markLeaving
    change Canon (if _ then _ else _ : State).mem
    split
    · exact hl h₁
    · exact h₁

theorem Canon.execSpawnWrite {e : EvSpawn} (h : Canon s.mem) : Leads (execSpawnWrite e s) := by
  unfold Machine.execSpawnWrite
  repeat' split
  all_goals exact h

theorem Canon.finishNode {n : Node} {failed : Bool} (h : Canon s.mem) : Canon (s.finishNode n jca value failed).mem := h.jcAdd
theorem Canon.rejectNode {n : Node} {r : Nat} (h : Canon s.mem) : Canon (s.rejectNode n jca r).mem := h.finishNode

theorem Canon.execNodeDispatch {e : EvNode} (h : Canon s.mem) : Leads (execNodeDispatch e s) := by
  unfold Machine.execNodeDispatch
  split
  · exact h
  next n _ =>
    split
    · exact h
    split
    · have hq : Canon (if n.jcaSpawn ≠ 0 then (s, DRead.ok n.jcaSpawn) else s.dispRead n.asid (n.hdrAddr + 0x38) 8).1.mem := by
        split
        · exact h
        · exact h.dispRead
      split
      next u _ e =>
        have hu : Canon u.mem := .of_fst e hq
        split
        · exact hu
        · exact hu.rejectNode
        · exact hu.rejectNode
    · split
      · exact h
      split
      next u _ e =>
        have hu : Canon u.mem := .of_fst e h.dispRead
        extract_lets +onlyGivenNames raw
        split
        next s₁ _ e =>
          have h₁ : Canon s₁.mem := by
            refine .of_fst e ?_
            split
            · exact hu
            split
            · exact hu
            · exact hu.dispRead
          extract_lets +onlyGivenNames jca block
          have hb : ∀ {w : State} {va k : Nat}, Canon w.mem → Canon (block w va k).1.mem := by
            intro w va k hw
            unfold block
            split
            · exact hw
            · exact hw.dispRead
          clear_value block
          split
          next s₂ _ e =>
            have h₂ : Canon s₂.mem := .of_fst e (hb h₁)
            split
            next s₃ _ e =>
              have h₃ : Canon s₃.mem := .of_fst e (hb h₂)
              split
              next s₄ _ e =>
                have h₄ : Canon s₄.mem := .of_fst e (hb h₃)
                extract_lets +onlyGivenNames words rs
                split
                · exact h₄
                split
                · exact h₄.rejectNode
                extract_lets +onlyGivenNames recs hd
                split
                · exact h₄
                · exact h₄.rejectNode

theorem Canon.execNodeComplete {e : EvNode} (h : Canon s.mem) : Leads (execNodeComplete e s) := by
  unfold Machine.execNodeComplete
  split
  · exact h
  split
  · exact h.finishNode
  · exact h

theorem Canon.stageLines {vas : List Nat} (h : Canon s.mem) : Canon (s.stageLines asid vas).1.mem := by
  induction vas generalizing s with
  | nil => exact h
  | cons va vas ih =>
    unfold State.stageLines
    split
    next e => exact .of_fst e h.lineOf
    next e => exact ih (.of_fst e h.lineOf)
    next e => exact ih (.of_fst e h.lineOf)

theorem Canon.execTileStaging {e : EvNode} (h : Canon s.mem) : Leads (execTileStaging e s) := by
  unfold Machine.execTileStaging
  iterate 3 (split; · exact h)
  split
  next e => exact .of_fst e h.stageLines
  next u _ e =>
    have h : Canon u.mem := .of_fst e h.stageLines
    exact Canon.modNode h

theorem Canon.placeGroup {n : Node} {h₀ : Header} {x : Ctxt} {p : Nat × Nat × List Word × Nat} (h : Canon s.mem) :
    Canon (s.placeGroup n h₀ x core quads p).mem :=
  Canon.modNode (Canon.foldl (Canon.modCore h) fun _ _ h => h.foldl fun _ _ h => h.splitAcquires)

theorem Canon.execGroupPlacement {e : EvNode} (h : Canon s.mem) : Leads (execGroupPlacement e s) := by
  unfold Machine.execGroupPlacement
  split
  · split
    · exact h.findTiles
    · exact h
  · split
    · split
      · split <;> exact h
      split
      · exact h
      split
      · exact h.placeGroup
      · exact h
    · exact h

theorem Canon.fallFrom (h : Canon s.mem) : Canon (s.fallFrom before).mem := h

theorem Canon.execLevelMove {e : EvCore} (h : Canon s.mem) : Leads (execLevelMove e s) := by
  unfold Machine.execLevelMove
  dsimp only
  repeat' split
  all_goals exact h

theorem Canon.execLevelMoveComplete {e : EvCore} (h : Canon s.mem) : Leads (execLevelMoveComplete e s) := h

theorem Canon.execDroopTrigger {e : EvDroop} (h : Canon s.mem) : Leads (execDroopTrigger e s) := by
  unfold Machine.execDroopTrigger
  split <;> exact h

theorem Canon.execDroopStretchEnd {e : EvCore} (h : Canon s.mem) : Leads (execDroopStretchEnd e s) := by
  unfold Machine.execDroopStretchEnd
  split
  · exact h.passCycles
  · exact h

theorem Canon.execDroopHalvingEnd {e : EvCore} (h : Canon s.mem) : Leads (execDroopHalvingEnd e s) := by
  unfold Machine.execDroopHalvingEnd
  split
  · exact h.passCycles
  · exact h

theorem Canon.execBayPowerGate {e : EvBay} (h : Canon s.mem) : Leads (execBayPowerGate e s) := by
  unfold Machine.execBayPowerGate
  split <;> exact h

theorem Canon.execBayWakeComplete {e : EvQuad} (h : Canon s.mem) : Leads (execBayWakeComplete e s) := by
  unfold Machine.execBayWakeComplete
  dsimp only
  split
  · exact h
  split
  · exact h
  · exact h.passCycles

theorem Canon.execCorePowerGate {e : EvCore} (h : Canon s.mem) : Leads (execCorePowerGate e s) := by
  unfold Machine.execCorePowerGate
  repeat' split
  all_goals exact h

theorem Canon.execCoreWakeComplete {e : EvCore} (h : Canon s.mem) : Leads (execCoreWakeComplete e s) := h

theorem Canon.repool (h : Canon s.mem) : Canon s.repool.mem := by
  unfold State.repool
  dsimp only
  split <;> split <;> exact h.foldl fun _ _ h => h.grantHead

theorem Canon.execSkinTemperatureInterval {e : EvSkin} (h : Canon s.mem) : Leads (execSkinTemperatureInterval e s) := by
  unfold Machine.execSkinTemperatureInterval
  split
  · split
    · exact h
    · exact Canon.fallFrom (Canon.repool h)
  · exact Canon.fallFrom (Canon.repool h)

theorem Canon.execGovernorEstimate {e : EvGovernor} (h : Canon s.mem) : Leads (execGovernorEstimate e s) := by
  unfold Machine.execGovernorEstimate
  split
  · exact h
  · exact Canon.fallFrom (Canon.repool h)

theorem Canon.execRtimerExpiry {e : EvTeam} (h : Canon s.mem) : Leads (execRtimerExpiry e s) := by
  unfold Machine.execRtimerExpiry
  split
  · exact h
  split
  · exact h.passCycles
  · exact h

theorem Canon.execWallDeadlineExpiry {e : EvTeam} (h : Canon s.mem) : Leads (execWallDeadlineExpiry e s) := by
  unfold Machine.execWallDeadlineExpiry
  repeat' split
  all_goals exact h

theorem Canon.execChargeWindowAging {e : EvCore} (h : Canon s.mem) : Leads (execChargeWindowAging e s) := by
  unfold Machine.execChargeWindowAging
  split
  · exact h.passCycles
  · exact h

theorem Canon.execIdleBayCycle {e : EvBay} (h : Canon s.mem) : Leads (execIdleBayCycle e s) := by
  unfold Machine.execIdleBayCycle
  split
  · exact h.passCycles
  · exact h

theorem Canon.execAsyncTrapEntry {e : EvTeam} (h : Canon s.mem) : Leads (execAsyncTrapEntry e s) := by
  unfold Machine.execAsyncTrapEntry
  split
  · exact h
  split
  · split
    · exact h
    · exact h.flushParked.discardFence.modTeam.takeTrap
  · exact h

theorem Canon.execPoisonedRegisterRead {e : EvPoison} (h : Canon s.mem) : Leads (execPoisonedRegisterRead e s) := by
  unfold Machine.execPoisonedRegisterRead
  split
  · exact h
  split
  · split
    · exact h
    split
    · exact h.groupPath
    · exact h.modTeam.poisonHit
  · exact h

theorem Canon.stopNow (h : Canon s.mem) : Canon (s.stopNow t res).mem := by
  unfold State.stopNow
  split
  · exact h.stopTeam
  · exact h

theorem Canon.execTeamStop {e : EvStop} (h : Canon s.mem) : Leads (execTeamStop e s) := by
  unfold Machine.execTeamStop
  iterate 3 (split; · exact h)
  split
  · split
    · split
      · split
        · exact h
        · exact h.stopTeam
      · exact h
    · exact h
  · split
    · exact h.stopTeam
    · exact h
  · split
    · exact h.stopTeam
    · exact h
  · split
    · exact h.debugStop
    · exact h
  · exact h

theorem Canon.execTeamRestore {e : EvTeam} (h : Canon s.mem) : Leads (execTeamRestore e s) := by
  unfold Machine.execTeamRestore
  dsimp only
  repeat' split
  all_goals exact h

theorem Canon.suspendRay (h : Canon s.mem) : Canon (s.suspendRay gid ray).mem := by
  unfold State.suspendRay
  dsimp only
  split
  · split
    · exact h.endRay
    · exact h
  · split
    · exact h
    split
    · exact h.writeRecord.setRay
    · exact h

theorem Canon.evictGroup (h : Canon s.mem) : ∀ u, s.evictGroup g = some u → Canon u.mem := by
  unfold State.evictGroup
  intro u e
  extract_lets ts leaving s₁ s₂ at e
  have h₁ : Canon s₁.mem := by
    refine Canon.foldl h fun w t hw => ?_
    split
    · exact hw.stopTeam
    · exact hw
  have h₂ : Canon s₂.mem := Canon.foldl h₁ fun _ _ h => h.suspendRay
  split at e
  · cases e
  cases e
  exact h₂

theorem Canon.execGroupEviction (h : Canon s.mem) : Leads (execGroupEviction e s) := by
  unfold Machine.execGroupEviction
  split
  · split
    · exact h.getD h.evictGroup
    · exact h
  · exact h

theorem Canon.wakeCore (h : Canon s.mem) : Canon (s.wakeCore core).mem := by
  unfold State.wakeCore
  split
  · exact h
  exact h

theorem Canon.execGroupRestore {e : EvGroupCore} (h : Canon s.mem) : Leads (execGroupRestore e s) := by
  unfold Machine.execGroupRestore
  iterate 3 (split; · exact h)
  split
  · split
    · exact h.wakeCore
    · exact h
  · exact h.modCore.modGroup.foldl fun _ _ h => h.modTeam

theorem Canon.execPartitionHalt {e : EvCtx} (h : Canon s.mem) : Leads (execPartitionHalt e s) := by
  unfold Machine.execPartitionHalt
  split
  · exact h
  split
  · exact h
  extract_lets +onlyGivenNames cs s₁ s₂
  have h₂ : Canon s₂.mem := Canon.foldl h fun _ _ h => h.stopNow
  clear_value s₂
  split
  · exact h₂
  split
  next u _ e =>
    have hu : Canon u.mem := .of_fst e (Canon.foldl_fst h₂ fun _ _ h => h.maintL1)
    split
    next u' _ e =>
      have hv : Canon u'.mem := .of_fst e hu.maintL2
      split <;> exact hv

theorem Canon.clearImages {x : Ctxt} {is : List Nat} (h : Canon s.mem) : Canon (s.clearImages x is).mem := h.wrCells
theorem Canon.exchange {x : Ctxt} (h : Canon s.mem) : Canon (s.exchange x).mem := Canon.foldl h.wrCells fun _ _ h => h.groupPath

theorem Canon.execPartitionSwap {e : EvCtx} (h : Canon s.mem) : Leads (execPartitionSwap e s) := by
  unfold Machine.execPartitionSwap
  split
  · exact h
  split
  · exact h
  split
  · split
    · exact h.wakeCore
    · exact h
  · exact Canon.exchange h

theorem Canon.execCoreRetirement {e : EvCore} (h : Canon s.mem) : Leads (execCoreRetirement e s) := by
  unfold Machine.execCoreRetirement
  split
  · exact h
  extract_lets +onlyGivenNames s₁
  have h₁ : Canon s₁.mem := Canon.foldl h fun _ _ h => h.getD h.evictGroup
  clear_value s₁
  split
  · exact h₁
  split
  next e => exact .of_fst e h₁.maintL1
  next u e =>
    have hu : Canon u.mem := .of_fst e h₁.maintL1
    exact hu

theorem Canon.setTdi {d : Tdi} (h : Canon s.mem) : Canon (s.setTdi i d).mem := h

/-- The other write of main memory: a frame that changes hands is zeroed. -/
theorem Canon.zeroFrame {f : Nat} (h : Canon s.mem) : Canon (s.zeroFrame f).mem := s.zeroFrame_wf f h
theorem Canon.setFrames (h : Canon s.mem) : Canon (s.setFrames k frames).mem := h.foldl fun _ _ h => h.zeroFrame
theorem Canon.trimStaged (h : Canon s.mem) : Canon s.trimStaged.mem := h

theorem Canon.newImages {x : Ctxt} {old : Nat} (h : Canon s.mem) : Canon (s.newImages x old).mem := by
  unfold State.newImages
  split
  · exact h
  · exact h.clearImages

theorem Canon.execCtxCreate {e : EvCtxCfg} (h : Canon s.mem) : Leads (execCtxCreate e s) := by
  unfold Machine.execCtxCreate
  dsimp only
  split
  all_goals
    split
    · exact h
    · split
      · exact Canon.send (Canon.trimStaged (Canon.newImages (Canon.setFrames (Canon.setTdi h))))
      · exact Canon.send (Canon.trimStaged (Canon.newImages h))

theorem Canon.tdiError (h : Canon s.mem) : Canon (s.tdiError i).mem := by
  unfold State.tdiError
  dsimp only
  split
  · exact h
  · exact h.setTdi.foldl fun _ _ h => h.groupPath

theorem Canon.execCtxSet {e : EvCtxCfg} (h : Canon s.mem) : Leads (execCtxSet e s) := by
  unfold Machine.execCtxSet
  dsimp only
  split
  · exact h
  split
  · exact h
  split
  all_goals
    split
    · exact h.tdiError.send
    · split
      · exact h
      · split
        · split
          · exact h.modCtx.newImages.trimStaged.send
          · exact h.modCtx.fallFrom.newImages.trimStaged.send
        · split
          · exact h.modCtx.setFrames.newImages.trimStaged.send
          · exact h.modCtx.fallFrom.setFrames.newImages.trimStaged.send

theorem Canon.execCtxDestroy {e : EvCtx} (h : Canon s.mem) : Leads (execCtxDestroy e s) := by
  unfold Machine.execCtxDestroy
  split
  · exact h
  split
  · exact h
  extract_lets +onlyGivenNames s₁ gone s₂ s₃
  have h₁ : Canon s₁.mem := Canon.foldl h fun _ _ h => h.groupPath
  have h₂ : Canon s₂.mem := by
    unfold s₂
    split
    · split
      · exact Canon.setTdi h₁.setFrames
      · exact h₁.setTdi
    · exact h₁
  exact h₂

theorem Canon.execMemoryTrainingComplete {e : EvTraining} (h : Canon s.mem) : Leads (execMemoryTrainingComplete e s) := by
  unfold Machine.execMemoryTrainingComplete
  split
  · exact h
  · split <;> exact h

theorem Canon.execFwgo {e : EvRegValue} (h : Canon s.mem) : Leads (execFwgo e s) := by
  unfold Machine.execFwgo
  split <;> exact h

theorem Canon.execFirmwareVerification (h : Canon s.mem) : Leads (execFirmwareVerification s) := by
  unfold Machine.execFirmwareVerification
  split
  · exact h
  · split <;> exact h

theorem Canon.execCorePowerUp {e : EvCore} (h : Canon s.mem) : Leads (execCorePowerUp e s) := by
  unfold Machine.execCorePowerUp
  dsimp only
  split
  · exact h
  split
  · exact h
  · exact Canon.modCore h

theorem Canon.execGetMeasurements {e : EvIndex} (h : Canon s.mem) : Leads (execGetMeasurements e s) := by
  unfold Machine.execGetMeasurements
  repeat' split
  all_goals exact h

theorem Canon.execIdeKmKeySet {e : EvIndex} (h : Canon s.mem) : Leads (execIdeKmKeySet e s) := by
  unfold Machine.execIdeKmKeySet
  split <;> exact h

theorem Canon.execLockInterfaceRequest {e : EvIndex} (h : Canon s.mem) : Leads (execLockInterfaceRequest e s) := by
  unfold Machine.execLockInterfaceRequest
  repeat' split
  all_goals exact h

theorem Canon.execGetDeviceInterfaceReport {e : EvIndex} (h : Canon s.mem) : Leads (execGetDeviceInterfaceReport e s) := by
  unfold Machine.execGetDeviceInterfaceReport
  split
  · exact h
  · split <;> exact h.send

theorem Canon.execStartInterfaceRequest {e : EvIndex} (h : Canon s.mem) : Leads (execStartInterfaceRequest e s) := by
  unfold Machine.execStartInterfaceRequest
  repeat' split
  all_goals exact h

theorem Canon.execStopInterfaceRequest {e : EvIndex} (h : Canon s.mem) : Leads (execStopInterfaceRequest e s) := by
  unfold Machine.execStopInterfaceRequest
  dsimp only
  split
  · exact h
  split
  · exact h
  split
  · exact h.setFrames.setTdi.send
  · exact h

theorem Canon.execFrozenConfigurationWrite {e : EvIndex} (h : Canon s.mem) : Leads (execFrozenConfigurationWrite e s) := by
  unfold Machine.execFrozenConfigurationWrite
  split
  · exact h.tdiError
  · exact h

theorem Canon.execIdeIntegrityFailure {e : EvIndex} (h : Canon s.mem) : Leads (execIdeIntegrityFailure e s) := by
  unfold Machine.execIdeIntegrityFailure
  dsimp only
  split
  · exact h.tdiError.setTdi
  · exact h

theorem Canon.tdiWrite (h : Canon s.mem) : Canon (s.tdiWrite i off value).mem := by
  unfold State.tdiWrite
  dsimp only
  split
  · exact h
  split
  · exact h
  · exact h.tdiError
  · exact h.tdiError
  · exact h

theorem Canon.debugResume (h : Canon s.mem) : Canon (s.debugResume tid).mem := by
  unfold State.debugResume
  split
  · exact h
  split
  · exact h
  split
  · exact h.modTeam.takeTrap
  · exact h

theorem Canon.execStopreqSet (h : Canon s.mem) : Leads (execStopreqSet s) := by
  unfold Machine.execStopreqSet
  split
  · exact h
  refine Canon.foldl h fun u _ h => ?_
  split
  · exact h.debugStop
  · exact h

theorem Canon.execStopreqClear (h : Canon s.mem) : Leads (execStopreqClear s) := by
  unfold Machine.execStopreqClear
  split
  · exact h
  · exact Canon.foldl h fun _ _ h => h.debugResume

theorem Canon.execHaltdbgClear (h : Canon s.mem) : Leads (execHaltdbgClear s) := by
  unfold Machine.execHaltdbgClear
  split
  · exact h
  · exact Canon.foldl h fun _ _ h => h.debugResume

theorem Canon.execDropsClear {e : EvRegValue} (h : Canon s.mem) : Leads (execDropsClear e s) := by
  unfold Machine.execDropsClear
  split <;> exact h

theorem Canon.fwWrite (h : Canon s.mem) : Canon (s.fwWrite off value).mem := by
  unfold State.fwWrite
  split
  · exact h
  split
  · exact h
  · split <;> exact h

theorem Canon.dbgWrite (h : Canon s.mem) : Canon (s.dbgWrite off value).mem := by
  refine h.of_mem ?_
  simp only [State.dbgWrite, apply_ite State.mem, State.modCore_mem, ite_self]

theorem Canon.trustedWrite (h : Canon s.mem) : Canon (s.trustedWrite off value).mem := by
  unfold State.trustedWrite
  split
  · exact h
  split
  · exact h
  · split <;> exact h
  · exact h
  · exact h
  · exact h
  · exact h
  · split <;> exact h
  · exact h
  · exact h
  · exact h
  · exact h

theorem Canon.execRegisterWrite {e : EvRegWrite} (h : Canon s.mem) : Leads (execRegisterWrite e s) := by
  unfold Machine.execRegisterWrite
  split
  · exact h.fwWrite
  · split
    · exact h.dbgWrite
    · exact h
  · exact h.trustedWrite
  · split
    · exact h.tdiWrite
    · exact h

end Sys2Proof.Machine
end

section
/-!
PROOFS. Main memory stays canonical: every instruction and event.
-/
namespace Sys2Proof.Machine

variable {s : State} {rounds : Bool} {d : Byte} {c : Ctx} {o : FR}

theorem Canon.compare {f : Nat → Bool × Nat} (h : Canon s.mem) : (compare s c d f).MemCanon := by
  unfold Machine.compare
  dsimp only
  repeat' split
  all_goals exact h

theorem Canon.cmpOp {strict unordered : Bool} {f : FV → FV → Bool} {g : Int → Int → Bool} (h : Canon s.mem) :
    (cmpOp s c o strict unordered f g).MemCanon := h.compare

theorem Canon.cmpImmOp {o : FI} {g : Int → Int → Bool} (h : Canon s.mem) : (cmpImmOp s c o g).MemCanon := h.compare

theorem Canon.fltOp {f : Fmt → RMode → FV → FV → FV → Nat × Nat} (h : Canon s.mem) :
    (fltOp s c o rounds f).MemCanon := h.drawing.lanewise

theorem Canon.funOp {o : FF} {f : Fmt → RMode → FV → Nat × Nat} (h : Canon s.mem) :
    (funOp s c o rounds f).MemCanon := h.drawing.lanewise

theorem Canon.bitsOp {o : FF} {f : Fmt → Nat → Nat} (h : Canon s.mem) : (bitsOp s c o f).MemCanon := h.lanewise
theorem Canon.intOp {f : Bool → Bool → Nat → Nat → Nat → Nat → Nat × Nat} (h : Canon s.mem) : (intOp s c o f).MemCanon := h.lanewise
theorem Canon.shiftOp {f : Bool → Bool → Nat → Nat → Nat → Nat × Nat} (h : Canon s.mem) : (shiftOp s c o f).MemCanon := h.lanewise
theorem Canon.iunOp {o : FF} {f : Bool → Bool → Nat → Nat → Nat × Nat} (h : Canon s.mem) : (iunOp s c o f).MemCanon := h.lanewise

theorem Canon.immOp {o : FI} {signed sx : Bool} {f : Bool → Bool → Nat → Nat → Nat → Nat × Nat} (h : Canon s.mem) :
    (immOp s c o signed sx f).MemCanon := h.lanewise

theorem Canon.execMset (h : Canon s.mem) : Leads (execMset o s) := by
  refine h.issue fun u _ h => ?_
  repeat' split
  all_goals exact h

theorem Canon.execMsts {o : FL} (h : Canon s.mem) : Leads (execMsts o s) := by
  refine h.issue fun _ _ h => h.onPath fun _ => ?_
  dsimp only
  split
  next e => exact (Formed.MemCanon.of_eq e h.formLocal).formLocal.depart
  · exact h.formLocal.depart

theorem Canon.execMlds {o : FL} (h : Canon s.mem) : Leads (execMlds o s) := by
  refine h.issue fun _ _ h => h.onPath fun _ => ?_
  dsimp only
  split
  next e => exact (Formed.MemCanon.of_eq e h.formLocal).formLocal.depart
  · exact h.formLocal.depart

theorem Canon.setMode {x : Word} (h : Canon s.mem) : (setMode s c x).MemCanon := by
  unfold Machine.setMode
  split <;> exact h

/-- Every instruction and event, each by the operations it is made of. -/
theorem Canon.exec {i : Instr} (h : Canon s.mem) : Leads (exec i s) :=
  match i with
  | .nop _ | .land _ | .trap _ | .bkpt _ | .halt _ | .ext _ => h.issue fun _ _ h => h
  | .add _ | .sub _ | .mul _ | .mulh _ | .mad _ | .min _ | .max _ | .absd _ | .and _ | .or _ | .xor _ | .andn _ =>
    h.issue fun _ _ h => h.intOp
  | .shl _ | .shr _ | .sar _ | .rot _ => h.issue fun _ _ h => h.shiftOp
  | .bfx _ | .bfi _ => h.issue fun _ _ h => h.lanewise
  | .popc _ | .clz _ | .ctz _ | .brev _ | .not _ | .neg _ | .iabs _ | .sext8 _ | .sext16 _ | .zext8 _ | .zext16 _ =>
    h.issue fun _ _ h => h.iunOp
  | .addi _ | .muli _ | .andi _ | .ori _ | .xori _ | .shli _ | .shri _ | .sari _ => h.issue fun _ _ h => h.immOp
  | .movk _ | .movkh _ | .mov _ | .movf _ | .idot4 _ | .unpk _ | .perm _ | .wid _ | .mget _ | .boxu _ | .sah _
  | .npack _ => h.issue fun _ _ h => h.arith
  | .ceq _ | .cne _ | .clt _ | .cle _ | .cun _ => h.issue fun _ _ h => h.cmpOp
  | .ceqi _ | .clti _ | .clei _ => h.issue fun _ _ h => h.cmpImmOp
  | .fadd _ | .fsub _ | .fmul _ | .fma _ | .fnma _ | .fmin _ | .fmax _ => h.issue fun _ _ h => h.fltOp
  | .frcp _ | .frsq _ | .fsqrt _ | .fexp2 _ | .flog2 _ | .fsinpi _ | .fcospi _ | .ftanh _ | .ffloor _ | .fceil _
  | .ftrunc _ | .frint _ => h.issue fun _ _ h => h.funOp
  | .fabs _ | .fneg _ | .fclass _ => h.issue fun _ _ h => h.bitsOp
  | .fdot2 _ | .cvt _ | .mxscl _ | .tscan _ => h.issue fun _ _ h => h.drawing.arith
  | .fscale _ | .pack _ => h.issue fun _ _ h => h.drawing.lanewise
  | .shfl _ | .shflx _ => h.issue fun _ _ h => h.shuffle
  | .voteAny _ | .voteAll _ | .mcnt _ | .mfind _ => h.issue fun _ _ h => h.broadcast
  | .voteBallot _ | .mand _ | .mor _ | .mxor _ | .mandn _ => h.issue fun _ _ h => h.wrM
  | .tred _ => h.execTred
  | .setmode _ | .setmodeh _ => h.issue fun _ _ h => h.setMode
  | .mset _ => h.execMset
  | .mexec _ => h.issue fun _ _ h => h.wrM.modSplit
  | .msts _ => h.execMsts
  | .mlds _ => h.execMlds
  | .mloop _ => h.execMloop
  | .mxv _ => h.execMxv
  | .trace _ | .rres _ => h.issue fun _ _ h => h.acceptRays
  | .rbox _ => h.execRbox
  | .bra _ | .brnz _ | .brz _ | .brany _ | .brnone _ => h.issue fun _ _ h => h.branchIf
  | .jset _ | .yield _ | .icinv _ => h.issue fun _ _ h => h.modSplit
  | .brm _ => h.execBrm
  | .jmpi _ => h.execJmpi
  | .join _ => h.execJoin
  | .call _ => h.issue fun _ _ h => h.wrG.transfer
  | .calli _ => h.execCalli
  | .ret _ => h.execRet
  | .exit _ => h.execExit
  | .bar _ => h.execBar
  | .ld _ | .lda _ | .ldk _ => h.issue fun _ _ h => h.globalLoad
  | .st _ | .str _ => h.issue fun _ _ h => h.globalStore
  | .lds _ | .ldy _ | .ldl _ | .ldp _ => h.issue fun _ _ h => h.localLoad
  | .sts _ | .sty _ | .stl _ | .stp _ => h.issue fun _ _ h => h.localStore
  | .atom _ | .bld _ => h.issue fun _ _ h => h.onPath fun _ => h.formGlobal.depart
  | .atagg _ => h.execAtagg
  | .latom _ => h.issue fun _ _ h => h.onPath fun _ => h.formLocal.depart
  | .arm _ => h.issue fun _ _ h => h.onPath fun _ => h.disarm.dropArms.formGlobal.depart
  | .waitmon _ => h.execWaitmon
  | .fenceFull _ | .fenceAcq _ | .fenceRel _ | .fenceStrict _ => h.issue fun _ _ h => h.fenceAt
  | .cmaint _ => h.execCmaint
  | .promote _ | .demote _ => h.issue fun _ _ h => h.promoteAt
  | .bset _ => h.issue fun _ _ h => h.wrB
  | .bget _ => h.issue fun _ _ h => h.wrG
  | .bnar _ => h.execBnar
  | .tpload _ | .rast _ | .coll _ => h.issue fun _ _ h => h.acceptCmd
  | .rpoll _ => h.issue fun _ _ h => h.modGroup.wrG
  | .atlnext _ => h.execAtlnext
  | .atldone _ => h.execAtldone
  | .visrd _ => h.execVisrd
  | .vrsl _ => h.execVrsl
  | .samp _ => h.execSamp
  | .grid _ => h.execGrid
  | .ungrid _ => h.execUngrid
  | .mzero _ | .mwr _ => h.issue fun _ _ h => h.onTile fun _ => h.modGroup
  | .mlda _ => h.issue fun _ _ h => h.acceptMat
  | .msta _ => h.execMsta
  | .mrd _ => h.issue fun _ _ h => h.onTile fun _ => h.wrField
  | .mstat _ => h.execMstat
  | .mwait _ => h.execMwait
  | .macc _ => h.execMacc
  | .copy _ | .copy2d _ | .gather _ | .scatter _ => h.issue fun _ _ h => h.acceptCopy
  | .waitp _ => h.execWaitp
  | .waitt _ => h.issue fun _ _ h => h.waitTimeline
  | .tlget _ => h.execTlget
  | .gres _ => h.issue fun _ _ h => h.modGroup
  | .binit _ => h.issue fun _ _ h => h.onObject fun _ _ => h.localWrite
  | .barv _ => h.issue fun _ _ h => h.onObject fun _ _ => h.localWrite.wrG.objectPoison
  | .bwait _ => h.execBwait
  | .bstat _ => h.issue fun _ _ h => h.onObject fun _ _ => h.wrG.objectPoison
  | .yjoin _ => h.execYjoin
  | .yleave _ => h.execYleave
  | .qres _ => h.issue fun _ _ h => h.qres
  | .sread _ => h.issue fun _ _ h => h.latch.wrField
  | .swrite _ => h.execSwrite
  | .tret _ => h.execTret
  | .region _ => h.execRegion
  | .rpc _ => h.execRpc
  | .rpcwait _ => h.execRpcwait
  | .claim _ => h.execClaim
  | .release _ => h.execRelease
  | .setperf _ => h.execSetperf
  | .node _ => h.execNode
  | .emit _ => h.execEmit
  | .tmark _ => h.execTmark
  | .jcadd _ => h.execJcadd
  | .loadDataReturn _ => h.execLoadDataReturn
  | .storePerformed _ => h.execStorePerformed
  | .slcRequest _ => h.execSlcRequest
  | .monitorRegistration _ => h.execMonitorRegistration
  | .l1Invalidation _ => h.execL1Invalidation
  | .fenceComplete _ => h.execFenceComplete
  | .waitmonTimeout _ => h.execWaitmonTimeout
  | .pageWalkComplete _ => h.execPageWalkComplete
  | .faultReply _ => h.execFaultReply
  | .parkedReplay _ => h.execParkedReplay
  | .translationInvalidation _ => h.execTranslationInvalidation
  | .invalidationAck => h.execInvalidationAck
  | .hostReadShared _ | .hostReadForOwnership _ | .hostWrite _ | .hostAtomic _ => h.hostArrive
  | .snoopResponse _ => h.execSnoopResponse
  | .frameClean _ => Canon.cleanFrames h
  | .frameCleanComplete => h.execFrameCleanComplete
  | .cmaintComplete _ => h.execCmaintComplete
  | .icinvComplete _ => h.execIcinvComplete
  | .bankAccess _ => h.execBankAccess
  | .perBankRefresh _ => h.execPerBankRefresh
  | .bankSegmentRequest _ => h.execBankSegmentRequest
  | .segmentWritebackDone _ => h.execSegmentWritebackDone
  | .segmentCopyDone _ => h.execSegmentCopyDone
  | .engineCommandStart _ => h.execEngineCommandStart
  | .engineTransfer _ => h.execEngineTransfer
  | .engineCommandComplete _ => h.execEngineCommandComplete
  | .yjoinComplete _ => h.execYjoinComplete
  | .yleaveComplete _ => h.execYleaveComplete
  | .gridTake _ => h.execGridTake
  | .ungridComplete _ => h.execUngridComplete
  | .tokenGrant => h.execTokenGrant
  | .tokenIdleRelease _ => h.execTokenIdleRelease
  | .matrixCommandStart _ => h.execMatrixCommandStart
  | .mloopStep _ => h.execMloopStep
  | .matrixCommandFinish _ => h.execMatrixCommandFinish
  | .mxvFinish _ => h.execMxvFinish
  | .rboxFinish _ => h.execRboxFinish
  | .tploadSlotLoad _ => h.execTploadSlotLoad
  | .rayStart _ => h.execRayStart
  | .rayMicroOpStep _ => h.execRayMicroOpStep
  | .rastCommandStart _ => h.execRastCommandStart
  | .rastTriangle _ => h.execRastTriangle
  | .requestPassStart _ => h.execRequestPassStart
  | .requestPassSample _ => h.execRequestPassSample
  | .vrslLatch _ => h.execVrslLatch
  | .claimGrant _ => h.execClaimGrant
  | .splitRotation _ => h.execSplitRotation
  | .splitReload _ => h.execSplitReload
  | .teamGranuleReturn _ => h.execTeamGranuleReturn
  | .groupEnd _ => h.execGroupEnd
  | .spawnWrite _ => h.execSpawnWrite
  | .nodeDispatch _ => h.execNodeDispatch
  | .tileStaging _ => h.execTileStaging
  | .groupPlacement _ => h.execGroupPlacement
  | .nodeComplete _ => h.execNodeComplete
  | .levelMove _ => h.execLevelMove
  | .levelMoveComplete _ => h.execLevelMoveComplete
  | .droopTrigger _ => h.execDroopTrigger
  | .droopStretchEnd _ => h.execDroopStretchEnd
  | .droopHalvingEnd _ => h.execDroopHalvingEnd
  | .bayPowerGate _ => h.execBayPowerGate
  | .bayWakeComplete _ => h.execBayWakeComplete
  | .corePowerGate _ => h.execCorePowerGate
  | .coreWakeComplete _ => h.execCoreWakeComplete
  | .skinTemperatureInterval _ => h.execSkinTemperatureInterval
  | .governorEstimate _ => h.execGovernorEstimate
  | .rtimerExpiry _ => h.execRtimerExpiry
  | .wallDeadlineExpiry _ => h.execWallDeadlineExpiry
  | .asyncTrapEntry _ => h.execAsyncTrapEntry
  | .poisonedRegisterRead _ => h.execPoisonedRegisterRead
  | .teamStop _ => h.execTeamStop
  | .teamRestore _ => h.execTeamRestore
  | .groupEviction _ => h.execGroupEviction
  | .groupRestore _ => h.execGroupRestore
  | .partitionHalt _ => h.execPartitionHalt
  | .partitionSwap _ => h.execPartitionSwap
  | .ctxCreate _ => h.execCtxCreate
  | .ctxSet _ => h.execCtxSet
  | .ctxDestroy _ => h.execCtxDestroy
  | .rpcReply _ => h
  | .coreRetirement _ => h.execCoreRetirement
  | .powerOnReset _ => Memory.wf_reset
  | .memoryTrainingComplete _ => h.execMemoryTrainingComplete
  | .fwgo _ => h.execFwgo
  | .firmwareVerification => h.execFirmwareVerification
  | .corePowerUp _ => h.execCorePowerUp
  | .getMeasurements _ => h.execGetMeasurements
  | .ideKmKeySet _ => h.execIdeKmKeySet
  | .lockInterfaceRequest _ => h.execLockInterfaceRequest
  | .getDeviceInterfaceReport _ => h.execGetDeviceInterfaceReport
  | .startInterfaceRequest _ => h.execStartInterfaceRequest
  | .stopInterfaceRequest _ => h.execStopInterfaceRequest
  | .frozenConfigurationWrite _ => h.execFrozenConfigurationWrite
  | .ideIntegrityFailure _ => h.execIdeIntegrityFailure
  | .stopreqSet => h.execStopreqSet
  | .stopreqClear => h.execStopreqClear
  | .haltdbgClear => h.execHaltdbgClear
  | .dropsClear _ => h.execDropsClear
  | .registerWrite _ => h.execRegisterWrite
  | .chargeWindowAging _ => h.execChargeWindowAging
  | .idleBayCycle _ => h.execIdleBayCycle

end Sys2Proof.Machine
end

section
/-!
PROOFS. Main memory stays canonical: turns, and the step.
-/
namespace Sys2Proof.Machine

variable {s before : State} {c : Ctx} {va asid tid uid core bay i line : Nat} {sp : Space} {t : Team}

theorem Canon.fetchFails {r : FetchR} (h : Canon s.mem) : Canon (s.fetchFails c va r).mem := by
  unfold State.fetchFails
  split
  · exact h.parkSplit
  · exact h.gateTrap
  · exact h.groupPath
  · exact h

theorem Canon.badWord {w : Word} {e : DecodeError} (h : Canon s.mem) : Canon (s.badWord c w e).mem := by
  unfold State.badWord
  split
  · exact h.gateTrap
  · split <;> exact h.gateTrap

theorem Canon.fetchPair (h : Canon s.mem) : Canon (s.fetchPair t asid va).1.mem := by
  unfold State.fetchPair
  split
  · exact h
  split
  next u _ e =>
    have h : Canon u.mem := .of_fst e h.fetch
    split
    · split
      next e => exact (Canon.of_fst e h.fetch).modTeam
      next e => exact .of_fst e h.fetch
    · exact h
  next e => exact .of_fst e h.fetch

theorem Canon.fetchNext (h : Canon s.mem) : (s.fetchNext tid uid).MemCanon := by
  unfold State.fetchNext
  dsimp only
  split
  · exact h
  split
  · split
    · exact h
    split
    next u _ _ e =>
      have h : Canon u.mem := .of_fst e h.fetchPair
      split
      · exact h
      · exact h.badWord
    next e => exact (Canon.of_fst e h.fetchPair).fetchFails
  · exact h

theorem Canon.passOn {who : Nat × Nat} {bays : List Nat} (h : Canon s.mem) : Canon (s.passOn before core who bays).mem := by
  unfold State.passOn
  refine h.foldl fun u _ h => ?_
  split <;> exact h

theorem Canon.issueOne {p : Split} (h : Canon s.mem) : Leads (s.issueOne t p) := by
  unfold State.issueOne
  split
  next u e =>
    have hu : Canon u.mem := Fetched.MemCanon.of_eq e h.fetchNext
    change Canon (if _ then s else u : State).mem
    split
    · exact h
    · exact hu
  next u e =>
    have hu : Canon u.mem := Fetched.MemCanon.of_eq e h.fetchNext
    split
    · exact hu.exec
    extract_lets won
    split
    · exact h
    split
    next w e =>
      have hw : Canon w.mem := Leads.of_eq e hu.exec
      exact hw.passOn
    · exact hu.exec

/-- The act ends in canonical memory wherever it begins with it. -/
def KeepsCanon (a : Act) : Prop := ∀ s : State, Canon s.mem → Leads (a s)

theorem KeepsCanon.ite {p : Prop} [Decidable p] {a b : Act} (ha : KeepsCanon a) (hb : KeepsCanon b) :
    KeepsCanon (if p then a else b) := by
  split
  · exact ha
  · exact hb

/-- Each act of a list does so. -/
def AllKeep (l : List Act) : Prop := ∀ a ∈ l, KeepsCanon a

/-- The act that is chosen, if there is one, does so. -/
def ChoiceKeeps (o : Option Act) : Prop := ∀ a, o = some a → KeepsCanon a

theorem AllKeep.nil : AllKeep [] := nofun
theorem AllKeep.cons {a : Act} {l : List Act} (ha : ∀ s : State, Canon s.mem → Leads (a s)) (hl : AllKeep l) :
    AllKeep (a :: l) :=
  List.forall_mem_cons.2 ⟨ha, hl⟩
theorem AllKeep.one {a : Act} (ha : ∀ s : State, Canon s.mem → Leads (a s)) : AllKeep [a] := .cons ha .nil
theorem AllKeep.append {l₁ l₂ : List Act} (h₁ : AllKeep l₁) (h₂ : AllKeep l₂) : AllKeep (l₁ ++ l₂) :=
  List.forall_mem_append.2 ⟨h₁, h₂⟩
theorem AllKeep.flatMap {α : Type} {l : List α} {f : α → List Act} (hf : ∀ x, AllKeep (f x)) : AllKeep (l.flatMap f) := by
  intro a ha
  obtain ⟨x, -, hx⟩ := List.mem_flatMap.1 ha
  exact hf x a hx
theorem AllKeep.map {α : Type} {l : List α} {f : α → Act} (hf : ∀ x (s : State), Canon s.mem → Leads (f x s)) :
    AllKeep (l.map f) := by
  intro a ha
  obtain ⟨x, -, rfl⟩ := List.mem_map.1 ha
  exact hf x
theorem AllKeep.ite {p : Prop} [Decidable p] {l₁ l₂ : List Act} (h₁ : AllKeep l₁) (h₂ : AllKeep l₂) :
    AllKeep (if p then l₁ else l₂) := by
  split
  · exact h₁
  · exact h₂

/-- What is due is always one of the events. -/
theorem State.dueActs_allKeep (s : State) (core : Nat) : AllKeep (s.dueActs core) := by
  refine .append (.append (.append (.flatMap fun t => ?_) (.flatMap fun q => ?_)) ?_) ?_
  · refine .append (.append (.append ?_ ?_) ?_) ?_
    · exact .ite .nil (.one fun _ h => h.execSplitRotation)
    · exact .ite .nil (.one fun _ h => h.execWallDeadlineExpiry)
    · exact .ite .nil (.one fun _ h => h.execAsyncTrapEntry)
    · exact .ite (.one fun _ h => h.execTokenIdleRelease) .nil
  · exact .ite .nil (.one fun _ h => h.execClaimGrant)
  · split
    · exact .flatMap fun b => .ite (.one fun _ h => h.execBayPowerGate) .nil
    · exact .nil
  · exact .ite .nil (.one fun _ h => h.execTokenGrant)

/-- So the one that comes first keeps it as well. -/
theorem State.due_keeps (s : State) (core : Nat) : ChoiceKeeps (s.due core) := fun a e =>
  s.dueActs_allKeep core a (List.mem_of_find?_eq_some e)

theorem Canon.issueTurn (h : Canon s.mem) : Leads (s.issueTurn tid uid) := by
  unfold State.issueTurn
  split
  · exact h
  · split
    next _ _ a e => exact s.due_keeps _ a e s h
    · exact h
    · exact h.issueOne

theorem Canon.cycleTurn (h : Canon s.mem) : Leads (s.cycleTurn core) := by
  unfold State.cycleTurn
  split
  next a e => exact s.due_keeps _ a e s h
  · change Canon (if _ then _ else _ : State).mem
    split
    · exact h.cycleOn
    · exact h

theorem Canon.cyclesTurn (h : Canon s.mem) : Canon s.cyclesTurn.mem := by
  refine h.foldl fun u c hu => ?_
  split
  next e => exact Leads.of_eq e hu.cycleTurn
  · exact hu


theorem Canon.passTurn (h : Canon s.mem) : Canon (s.passTurn core bay).mem := by
  unfold State.passTurn
  split
  · split
    · exact h.passOn
    · exact h
  · exact h

theorem Canon.eventTurn {i : Instr} (h : Canon s.mem) : Leads (s.eventTurn i) := by
  unfold State.eventTurn
  split
  · exact h
  split
  · split
    · exact h.exec
    · exact h
  · exact h.exec

theorem Canon.jcDone (h : Canon s.mem) : Canon (s.jcDone i).mem := h

theorem Canon.joinAddTurn (h : Canon s.mem) : Canon (s.joinAddTurn i).mem := by
  unfold State.joinAddTurn
  split
  · exact h
  extract_lets before early
  split
  · exact h
  split
  · exact h
  split
  next e => exact .of_fst e h.lineOf
  next u e =>
    have hu : Canon u.mem := .of_fst e h.lineOf
    exact Canon.reportFault hu
  next u _ _ _ e =>
    have hu : Canon u.mem := .of_fst e h.lineOf
    split
    next e => exact .of_fst e hu.slcAsk
    next w e =>
      have hw : Canon w.mem := .of_fst e hu.slcAsk
      split
      · exact hw
      split
      next e => exact .of_fst e hw.pteOr
      next e => exact (Canon.of_fst e hw.pteOr).markDirty.placeWr.jcDone
  next e => exact (Canon.of_fst e h.lineOf).jcDone.send

theorem Canon.timeTurn {ns : Nat} (h : Canon s.mem) : Canon (s.timeTurn ns).mem := h

theorem Canon.evictLineTurn {core : Option Nat} (h : Canon s.mem) : Canon (s.evictLineTurn core line).mem := by
  unfold State.evictLineTurn
  split
  · split
    next e => exact (Canon.of_fst e h.cleanL1).dropL1
    next e => exact .of_fst e h.cleanL1
  · split
    next e => exact (Canon.of_fst e h.cleanL2).dropL2
    next e => exact .of_fst e h.cleanL2

theorem Canon.evictTlbTurn {core : Option Nat} {vpn : Nat} (h : Canon s.mem) : Canon (s.evictTlbTurn core asid vpn).mem := by
  unfold State.evictTlbTurn
  split <;> exact h

theorem Canon.poisonTurn {sector : Nat} (h : Canon s.mem) : Canon (s.poisonTurn sp sector).mem := by
  unfold State.poisonTurn
  split <;> exact h

theorem Canon.errorTurn {e : HwError} (h : Canon s.mem) : Canon (s.errorTurn e).mem := by
  unfold State.errorTurn
  split
  · split <;> exact h
  · exact h
  · exact h
  · split <;> exact h
  · split
    · split
      · exact h.matFail
      · exact h
    · exact h
  · exact h.groupPath
  · exact h
  · exact h
  · exact h
  · split
    · exact h
    · exact h.poisonTurn
  · exact h

/-- Every turn of the agents. -/
theorem Canon.turn {t : Turn} (h : Canon s.mem) : Leads (s.turn t) := by
  unfold State.turn
  split
  · exact h.issueTurn
  · exact h.eventTurn
  · exact h
  · exact h.joinAddTurn
  · exact h.ringTurn
  · exact h.passTurn
  · exact h.cycleTurn
  · exact h.engineReadTurn
  · exact h.nodeReadTurn
  · exact h.recordPartTurn
  · exact h.splitReadTurn
  · exact h
  · exact h.evictLineTurn
  · exact h.evictTlbTurn
  · exact h
  · exact h
  · exact h.slcEvict
  · exact h.hostTurn
  · exact h.seeTurn
  · exact h.poisonTurn
  · exact h.errorTurn


theorem Flight.acts_allKeep (f : Flight) : AllKeep f.acts := by
  unfold Flight.acts
  split
  · exact .one fun _ h => h.execMonitorRegistration
  · exact .one fun _ h => h.execCmaintComplete
  · exact .nil
  · exact .ite (.one fun _ h => h.execLoadDataReturn) (.one fun _ h => h.execStorePerformed)

theorem Team.acts_allKeep (t : Team) : AllKeep t.acts := by
  refine .append (.flatMap fun p => ?_) ?_
  · exact .cons (fun _ h => h.execFenceComplete) <| .cons (fun _ h => h.execIcinvComplete) <|
      .cons (fun _ h => h.execWaitmonTimeout) <| .cons (fun _ h => h.execParkedReplay) <|
      .cons (fun _ h => h.execMxvFinish) <| .one fun _ h => h.execRboxFinish
  · exact .cons (fun _ h => h.execWallDeadlineExpiry) <| .cons (fun _ h => h.execAsyncTrapEntry) <|
      .cons (fun _ h => h.execGridTake) <| .cons (fun _ h => h.execUngridComplete) <|
      .cons (fun _ h => h.execTokenIdleRelease) <| .cons (fun _ h => h.execSplitRotation) <|
      .cons (fun _ h => h.execTeamGranuleReturn) <| .cons (fun _ h => h.execTeamStop) <|
      .cons (fun _ h => h.execTeamStop) <| .cons (fun _ h => h.execTeamStop) <|
      .cons (fun _ h => h.execTeamStop) <| .one fun _ h => h.execTeamRestore

theorem engActs_allKeep (gid : Nat) (e : Nat × EngCtx) : AllKeep (engActs gid e) := by
  refine .append ?_ (.flatMap fun c => ?_)
  · exact .cons (fun _ h => h.execEngineCommandStart) <| .one fun _ h => h.execMatrixCommandStart
  · exact .cons (fun _ h => h.execEngineTransfer) <| .cons (fun _ h => h.execMloopStep) <|
      .cons (fun _ h => h.execMatrixCommandFinish) <| .one fun _ h => h.execEngineCommandComplete

theorem Group.acts_allKeep (g : Group) : AllKeep g.acts := by
  refine .append (.append (.append (.append (.flatMap fun e => engActs_allKeep g.id e) ?_) ?_) ?_) ?_
  · exact .cons (fun _ h => h.execTploadSlotLoad) <| .one fun _ h => h.execRayStart
  · exact .map fun _ _ h => h.execRayMicroOpStep
  · exact .cons (fun _ h => h.execRastCommandStart) <| .cons (fun _ h => h.execRastTriangle) <|
      .cons (fun _ h => h.execRequestPassStart) <| .cons (fun _ h => h.execRequestPassSample) <|
      .cons (fun _ h => h.execVrslLatch) <| .cons (fun _ h => h.execYleaveComplete) <|
      .cons (fun _ h => h.execGroupEnd) <| .one fun _ h => h.execGroupEviction
  · exact .map fun _ _ h => h.execGroupRestore

/-- What needs nothing from outside: events, queued adds, host requests and trace records. -/
theorem State.acts_allKeep (s : State) : AllKeep s.acts := by
  refine .append (.append (.append (.append (.append (.append (.append (.append (.append (.append (.append
    (.map fun _ _ h => h.execL1Invalidation) (.flatMap Flight.acts_allKeep)) (.map fun _ _ h => h.joinAddTurn))
    (.map fun _ _ h => h.hostTurn)) (.map fun _ _ h => h.ringTurn)) (.flatMap Team.acts_allKeep))
    (.flatMap Group.acts_allKeep)) (.flatMap fun b => ?_)) (.map fun _ _ h => h.execYjoinComplete)) (.flatMap fun n => ?_))
    (.flatMap fun c => ?_)) ?_
  · exact .append (.ite (.one fun _ h => h.execPerBankRefresh) .nil) <| .cons (fun _ h => h.execBankSegmentRequest) <|
      .cons (fun _ h => h.execSegmentWritebackDone) <| .one fun _ h => h.execSegmentCopyDone
  · exact .cons (fun _ h => h.execNodeDispatch) <| .cons (fun _ h => h.execTileStaging) <|
      .cons (fun _ h => h.execGroupPlacement) <| .one fun _ h => h.execNodeComplete
  · refine .append (.append (.map fun _ _ h => h.execClaimGrant) ?_) ?_
    · exact .cons (fun _ h => h.execLevelMove) <| .cons (fun _ h => h.execLevelMoveComplete) <|
        .one fun _ h => h.execCoreWakeComplete
    · exact .ite (.one fun _ h => h.execCoreRetirement) .nil
  · exact .cons (fun _ h => h.execFirmwareVerification) <| .cons (fun _ h => h.execCorePowerUp) <|
      .cons (fun _ h => h.execInvalidationAck) <| .one fun _ h => h.execFrameCleanComplete

/-- A split that may issue takes its turn. -/
theorem State.fetchActs_allKeep (s : State) : AllKeep s.fetchActs := by
  refine .flatMap fun t => ?_
  intro a ha
  obtain ⟨p, -, e⟩ := List.mem_filterMap.1 ha
  split at e
  · cases e
  · split at e
    · cases e
      exact fun _ h => h.issueTurn
    · split at e
      · cases e
        exact fun _ h => h.issueTurn
      · cases e

theorem State.selectOn_keeps (s : State) (core bay : Nat) : ChoiceKeeps (s.selectOn core bay) := by
  intro a e
  unfold State.selectOn at e
  split at e
  · cases e
  · cases e
    exact .ite (fun _ h => h.passTurn) fun _ h => h.issueTurn

/-- The bay that is chosen issues, or goes on with a pass. -/
theorem State.selectIssue_keeps (s : State) : ChoiceKeeps s.selectIssue := by
  intro a e
  obtain ⟨b, -, hb⟩ := List.exists_of_findSome?_eq_some e
  exact s.selectOn_keeps _ _ a hb

theorem ChoiceKeeps.orElse {o : Option Act} {f : Unit → Option Act} (ho : ChoiceKeeps o) (hf : ChoiceKeeps (f ())) :
    ChoiceKeeps (o.orElse f) := by
  cases o with
  | none => exact hf
  | some a => exact ho

/-- With no order given, the act is one of those above, or the cores cycle. -/
theorem Canon.defaultTurn (h : Canon s.mem) : Leads s.defaultTurn := by
  unfold State.defaultTurn
  extract_lets event choice s₁
  have hevent : ChoiceKeeps event := fun a e => s.acts_allKeep.append s.fetchActs_allKeep a (List.mem_of_find?_eq_some e)
  have hchoice : ChoiceKeeps choice := by
    unfold choice
    split
    · exact hevent.orElse s.selectIssue_keeps
    · exact .orElse s.selectIssue_keeps hevent
    · nofun
  have h₁ : Canon s₁.mem := h.timeTurn
  clear_value choice s₁
  split
  next a => exact hchoice a rfl s₁ h₁
  · exact h₁.cyclesTurn

/-- A step takes the next turn of the agenda, or the default one. -/
theorem Canon.step (h : Canon s.mem) : Leads (step s) := by
  unfold Machine.step
  split
  · exact h.defaultTurn
  · exact Canon.turn h

end Sys2Proof.Machine
end

section
/-!
PROOFS. The obligation on main memory's canonical form.
-/
namespace Sys2Proof.Machine

/-- Settles O59: whichever turn a step takes, each function it runs keeps the canonical form. -/
theorem memoryStaysCanonical : Obligations.MemoryStaysCanonical := by
  intro s u h e
  exact Leads.of_eq e (Canon.step h)

end Sys2Proof.Machine
end

section
/-!
PROOFS. Decode and encode agree (R36 to R39, R44): the fields of each operand format are read back from the word that they
make, and make the word that they are read from; so each row of the opcode map goes both ways.
-/
namespace Sys2Proof

/-! ### A word's parts, and the word from its parts (R36, R37) -/

section
variable (m : Bool) (op : Nat)

@[simp] theorem wM_encM (x : BitVec 24) : wM (encM m op x) = m := by
  unfold wM encM
  rw [BitVec.getLsbD_append, BitVec.getLsbD_append]
  simp
@[simp] theorem wOp_encM (x : BitVec 24) : wOp (encM m op x) = BitVec.ofNat 7 op := by
  unfold wOp encM
  rw [BitVec.extractLsb'_append_eq_of_le (Nat.le_refl 24), BitVec.extractLsb'_append_eq_of_add_le (Nat.le_refl 7)]
  exact BitVec.extractLsb'_eq_self

/-- The opcode of a word with any operands. -/
theorem opcode_encM {op : Nat} (h : op < 128) (m : Bool) (x : BitVec 24) : (wOp (encM m op x)).toNat = op := by
  rw [wOp_encM, BitVec.toNat_ofNat, Nat.mod_eq_of_lt h]

/-- What lies in the operand bits is read from there. -/
theorem extract_encM {k n : Nat} (h : k + n ≤ 24) (x : BitVec 24) : (encM m op x).extractLsb' k n = x.extractLsb' k n := by
  rw [encM, BitVec.extractLsb'_append_eq_of_add_le h]

@[simp] theorem wD_encM (d : Byte) (y : BitVec 16) : wD (encM m op (d ++ y)) = d :=
  (extract_encM m op (by decide) _).trans BitVec.extractLsb'_append_eq_left
theorem extract_encM_low {k n : Nat} (h : k + n ≤ 16) (d : Byte) (y : BitVec 16) :
    (encM m op (d ++ y)).extractLsb' k n = y.extractLsb' k n :=
  (extract_encM m op (by omega) _).trans (BitVec.extractLsb'_append_eq_of_add_le h)

/-- The three operand bytes: the first, and a half word of the other two. -/
theorem bytes_assoc (d a b : Byte) : (d ++ a ++ b : BitVec 24) = d ++ (a ++ b : BitVec 16) := BitVec.append_assoc

@[simp] theorem wD_bytes (d a b : Byte) : wD (encM m op (d ++ a ++ b)) = d := by rw [bytes_assoc, wD_encM]
@[simp] theorem wA_bytes (d a b : Byte) : wA (encM m op (d ++ a ++ b)) = a := by
  rw [bytes_assoc, wA, extract_encM_low m op (by decide)]
  exact BitVec.extractLsb'_append_eq_left
theorem extract_bytes {k n : Nat} (h : k + n ≤ 8) (d a b : Byte) :
    (encM m op (d ++ a ++ b)).extractLsb' k n = b.extractLsb' k n := by
  rw [bytes_assoc, extract_encM_low m op (by omega)]
  exact BitVec.extractLsb'_append_eq_of_add_le h
@[simp] theorem wB_bytes (d a b : Byte) : wB (encM m op (d ++ a ++ b)) = b :=
  (extract_bytes m op (by decide) d a b).trans BitVec.extractLsb'_eq_self

end

@[simp] theorem toFR_encFR (op : Nat) (o : FR) : toFR (encFR op o) = o := by simp [toFR, encFR]
@[simp] theorem toFF_encFF (op fn : Nat) (o : FF) : toFF (encFF op fn o) = o := by simp [toFF, encFF]
@[simp] theorem toFI_encFI (op : Nat) (o : FI) : toFI o.ext (encFI op o) = o := by simp [toFI, encFI]
@[simp] theorem toFIF_encFIF (op fn : Nat) (o : FIF) : toFIF o.ext (encFIF op fn o) = o := by simp [toFIF, encFIF]
@[simp] theorem toFK_encFK (op : Nat) (o : FK) : toFK o.ext (encFK op o) = o := by
  simp [toFK, encFK, extract_encM_low]
@[simp] theorem toFJ_encFJ (op : Nat) (o : FJ) : toFJ (encFJ op o) = o := by simp [toFJ, encFJ, extract_encM]
@[simp] theorem toFJC_encFJC (op : Nat) (o : FJC) : toFJC (encFJC op o) = o := by simp [toFJC, encFJC, extract_encM_low]
@[simp] theorem toFJM_encFJM (op : Nat) (o : FJM) : toFJM (encFJM op o) = o := by
  have hm : (o.mask ++ o.off : BitVec 24).extractLsb' 20 4 = o.mask := BitVec.extractLsb'_append_eq_left
  have ho : (o.mask ++ o.off : BitVec 24).extractLsb' 0 20 = o.off := BitVec.extractLsb'_append_eq_right
  simp [toFJM, encFJM, extract_encM, hm, ho]

/-- The last operand byte as a field of 5 bits above one of 3. -/
theorem extract_five (x : BitVec 5) (y : BitVec 3) : (x ++ y : Byte).extractLsb' 3 5 = x := BitVec.extractLsb'_append_eq_left
theorem extract_three (x : BitVec 5) (y : BitVec 3) : (x ++ y : Byte).extractLsb' 0 3 = y := BitVec.extractLsb'_append_eq_right
@[simp] theorem toFMem_encFMem (op : Nat) (o : FMem) : toFMem (encFMem op o) = o := by
  simp [toFMem, encFMem, extract_bytes, extract_five, extract_three]
@[simp] theorem toFL_encFL (op : Nat) (o : FL) : toFL (encFL op o) = o := by
  simp [toFL, encFL, extract_bytes, extract_five, extract_three]

/-- The last operand byte as a guard slot above a function of 4 bits. -/
theorem extract_high (x y : BitVec 4) : (x ++ y : Byte).extractLsb' 4 4 = x := BitVec.extractLsb'_append_eq_left
theorem extract_func (x y : BitVec 4) : (x ++ y : Byte).extractLsb' 0 4 = y := BitVec.extractLsb'_append_eq_right
@[simp] theorem toFE_encFE (op fn : Nat) (o : FE) : toFE (encFE op fn o) = o := by
  simp [toFE, encFE, extract_bytes, extract_high]
@[simp] theorem func_encFE (op fn : Nat) (o : FE) : (encFE op fn o).extractLsb' 0 4 = BitVec.ofNat 4 fn := by
  simp [encFE, extract_bytes, extract_func]

@[simp] theorem toFFence_encFFence (op fn : Nat) (o : FFence) : toFFence o.ext (encFFence op fn o) = o := by
  have hz (x : BitVec 3) (y : BitVec 5) : (x ++ y : Byte).extractLsb' 5 3 = x := BitVec.extractLsb'_append_eq_left
  have hs (x : BitVec 3) (y : BitVec 2) (z : BitVec 3) : (x ++ (y ++ z : BitVec 5) : Byte).extractLsb' 0 3 = z :=
    (BitVec.extractLsb'_append_eq_of_add_le (by decide)).trans BitVec.extractLsb'_append_eq_right
  simp [toFFence, encFFence, extract_bytes, hz, hs]
@[simp] theorem kind_encFFence (op fn : Nat) (o : FFence) : (encFFence op fn o).extractLsb' 3 2 = BitVec.ofNat 2 fn := by
  have hk (x : BitVec 3) (y : BitVec 2) (z : BitVec 3) : (x ++ (y ++ z : BitVec 5) : Byte).extractLsb' 3 2 = y :=
    (BitVec.extractLsb'_append_eq_of_add_le (by decide)).trans BitVec.extractLsb'_append_eq_left
  simp [encFFence, extract_bytes, hk]

/-- Whether a word may follow an EXT word depends on its opcode alone. -/
theorem isIK_of_opcode {w : Word} {op : Nat} {b : Bool} (h : (wOp w).toNat = op) (hb : isIK (encM false op 0) = b)
    (hop : op < 128 := by decide) : isIK w = b := by
  rw [← hb, isIK, isIK, h, opcode_encM hop]

/-! ### The words of what a word decodes to (R36 to R39) -/

section
variable {w : Word} {op fn : Nat} (e : Option ExtWord)

theorem ofNat_of_toNat {n : Nat} {x : BitVec n} {k : Nat} (h : x.toNat = k) : BitVec.ofNat n k = x := by
  rw [← h, BitVec.ofNat_toNat, BitVec.setWidth_eq]

/-- Two neighbouring fields of a word are one. -/
theorem fields_join {k n : Nat} (m : Nat) : (w.extractLsb' (k + n) m ++ w.extractLsb' k n) = w.extractLsb' k (m + n) :=
  BitVec.extractLsb'_append_extractLsb'_eq_extractLsb' rfl

/-- A word is put together again from its marker, its opcode and its operand bits; and from its operand bytes. -/
theorem encM_parts (h : (wOp w).toNat = op) : encM (wM w) op (w.extractLsb' 0 24) = w := by
  have hm : BitVec.ofBool (wM w) = w.extractLsb' 31 1 := by
    ext i hi
    obtain rfl : i = 0 := by omega
    simp [wM]
  have ho : BitVec.ofNat 7 op = w.extractLsb' 24 7 := ofNat_of_toNat h
  have hj : (w.extractLsb' 31 1 ++ w.extractLsb' 24 7 : BitVec 8) = w.extractLsb' 24 8 := fields_join 1
  rw [encM, hm, ho, hj]
  exact (fields_join (k := 0) (n := 24) 8).trans BitVec.extractLsb'_eq_self
theorem encM_bytes (h : (wOp w).toNat = op) : encM (wM w) op (wD w ++ wA w ++ wB w) = w := by
  have hd : (wD w ++ wA w : BitVec 16) = w.extractLsb' 8 16 := fields_join 8
  have hb : (w.extractLsb' 8 16 ++ wB w : BitVec 24) = w.extractLsb' 0 24 := fields_join 16
  rw [hd, hb, encM_parts h]

theorem encFR_toFR (h : (wOp w).toNat = op) : encFR op (toFR w) = w := encM_bytes h
theorem encFI_toFI (h : (wOp w).toNat = op) : encFI op (toFI e w) = w := encM_bytes h
theorem encFF_toFF (h : (wOp w).toNat = op) (hf : (wB w).toNat = fn) : encFF op fn (toFF w) = w := by
  rw [encFF, ofNat_of_toNat hf]; exact encM_bytes h
theorem encFIF_toFIF (h : (wOp w).toNat = op) (hf : (wB w).toNat = fn) : encFIF op fn (toFIF e w) = w := by
  rw [encFIF, ofNat_of_toNat hf]; exact encM_bytes h
theorem encFK_toFK (h : (wOp w).toNat = op) : encFK op (toFK e w) = w :=
  (congrArg (encM (wM w) op) (fields_join (k := 0) (n := 16) 8)).trans (encM_parts h)
theorem encFJ_toFJ (h : (wOp w).toNat = op) : encFJ op (toFJ w) = w := encM_parts h
theorem encFJC_toFJC (h : (wOp w).toNat = op) : encFJC op (toFJC w) = w :=
  (congrArg (encM (wM w) op) (fields_join (k := 0) (n := 16) 8)).trans (encM_parts h)
theorem encFJM_toFJM (h : (wOp w).toNat = op) : encFJM op (toFJM w) = w :=
  (congrArg (encM (wM w) op) (fields_join (k := 0) (n := 20) 4)).trans (encM_parts h)

/-- A word whose last operand byte is put together from fields of it. -/
theorem encM_low {b : Byte} (h : (wOp w).toNat = op) (hb : b = wB w) : encM (wM w) op (wD w ++ wA w ++ b) = w := by
  rw [hb, encM_bytes h]
theorem encFMem_toFMem (h : (wOp w).toNat = op) : encFMem op (toFMem w) = w := encM_low h (fields_join (k := 0) (n := 3) 5)
theorem encFL_toFL (h : (wOp w).toNat = op) : encFL op (toFL w) = w := encM_low h (fields_join (k := 0) (n := 3) 5)
theorem encFE_toFE (h : (wOp w).toNat = op) (hf : (w.extractLsb' 0 4).toNat = fn) : encFE op fn (toFE w) = w := by
  rw [encFE, ofNat_of_toNat hf]; exact encM_low h (fields_join (k := 0) (n := 4) 4)
theorem encFFence_toFFence (h : (wOp w).toNat = op) (hf : (w.extractLsb' 3 2).toNat = fn) :
    encFFence op fn (toFFence e w) = w := by
  have hk : (w.extractLsb' 3 2 ++ w.extractLsb' 0 3 : BitVec 5) = w.extractLsb' 0 5 := fields_join 2
  rw [encFFence, ofNat_of_toNat hf, toFFence, hk]
  exact encM_low h (fields_join (k := 0) (n := 5) 3)
theorem encFN_nullary {f : FN → Instr} {i : Instr} (h : (wOp w).toNat = op) (hi : nullary w f = .ok i) :
    i = f ⟨wM w⟩ ∧ encFN op ⟨wM w⟩ = w := by
  unfold nullary at hi
  split at hi
  next h0 => cases hi; exact ⟨rfl, (congrArg (encM (wM w) op) h0).symm.trans (encM_parts h)⟩
  · cases hi

end

/-- The words of an instruction that stands in word w, behind the EXT word e where w may have one. -/
def Spells (e : Option ExtWord) (w : Word) (i : Instr) : Prop :=
  extWf i = true ∧ encode i = if isIK w then withExt e w else [w]

theorem Spells.alone {e : Option ExtWord} {w w' : Word} {i : Instr} (hx : extWf i = true) (hk : isIK w = false)
    (hi : encode i = [w']) (hw : w' = w) : Spells e w i :=
  ⟨hx, by rw [hi, hw, hk]; rfl⟩
theorem Spells.prefixed {e : Option ExtWord} {w w' : Word} {i : Instr} (hx : extWf i = true) (hk : isIK w = true)
    (hi : encode i = withExt e w') (hw : w' = w) : Spells e w i :=
  ⟨hx, by rw [hi, hw, if_pos hk]⟩

section
variable {e : Option ExtWord} {w : Word} {i : Instr}

theorem spells_decodeIun (h : (wOp w).toNat = 0x13) (hi : decodeIun w = .ok i) : Spells e w i := by
  have hk : isIK w = false := isIK_of_opcode h (by decide)
  unfold decodeIun at hi
  split at hi <;> cases hi <;> exact .alone rfl hk rfl (encFF_toFF h ‹_›)

theorem spells_decodeFun (h : (wOp w).toNat = 0x2F) (hi : decodeFun w = .ok i) : Spells e w i := by
  have hk : isIK w = false := isIK_of_opcode h (by decide)
  unfold decodeFun at hi
  split at hi <;> cases hi <;> exact .alone rfl hk rfl (encFF_toFF h ‹_›)

theorem spells_decodeVote (h : (wOp w).toNat = 0x3B) (hi : decodeVote e w = .ok i) : Spells e w i := by
  have hk : isIK w = true := isIK_of_opcode h (by decide)
  unfold decodeVote at hi
  split at hi <;> cases hi <;> exact .prefixed rfl hk rfl (encFIF_toFIF e h ‹_›)

theorem spells_decodeFence (h : (wOp w).toNat = 0x72) (hi : decodeFence e w = .ok i) : Spells e w i := by
  have hk : isIK w = true := isIK_of_opcode h (by decide)
  unfold decodeFence at hi
  split at hi <;> cases hi <;> exact .prefixed rfl hk rfl (encFFence_toFFence e h ‹_›)

theorem spells_decodeRay (h : (wOp w).toNat = 0x7B) (hi : decodeRay w = .ok i) : Spells e w i := by
  have hk : isIK w = false := isIK_of_opcode h (by decide)
  unfold decodeRay at hi
  split at hi <;> cases hi <;> exact .alone rfl hk rfl (encFE_toFE h ‹_›)

theorem spells_decodeMat (h : (wOp w).toNat = 0x7C) (hi : decodeMat w = .ok i) : Spells e w i := by
  have hk : isIK w = false := isIK_of_opcode h (by decide)
  unfold decodeMat at hi
  split at hi <;> cases hi <;> exact .alone rfl hk rfl (encFE_toFE h ‹_›)

theorem spells_decodeEng (h : (wOp w).toNat = 0x7D) (hi : decodeEng w = .ok i) : Spells e w i := by
  have hk : isIK w = false := isIK_of_opcode h (by decide)
  unfold decodeEng at hi
  split at hi <;> cases hi <;> exact .alone rfl hk rfl (encFE_toFE h ‹_›)

theorem spells_decodeSys (h : (wOp w).toNat = 0x7E) (hi : decodeSys w = .ok i) : Spells e w i := by
  have hk : isIK w = false := isIK_of_opcode h (by decide)
  unfold decodeSys at hi
  split at hi <;> cases hi <;> exact .alone rfl hk rfl (encFE_toFE h ‹_›)

/-- What a word decodes to stands in that word: every row of the opcode map, in the map's order (arm k of the decoder is
opcode k - 1 up to 0x36, and opcode k from 0x38 on). -/
theorem spells_decodeWord (hi : decodeWord e w = .ok i) : Spells e w i := by
  unfold decodeWord at hi
  split at hi <;> rename_i h
  case h_1 | h_88 | h_91 | h_92 | h_93 | h_95 =>
    obtain ⟨rfl, hw⟩ := encFN_nullary h hi
    exact .alone rfl (isIK_of_opcode h (by decide)) rfl hw
  case h_2 | h_3 | h_4 | h_5 | h_6 | h_7 | h_8 | h_9 | h_10 | h_11 | h_12 | h_13 | h_14 | h_15 | h_16 | h_17 | h_18 |
      h_19 | h_31 | h_32 | h_33 | h_34 | h_35 | h_36 | h_37 | h_41 | h_42 | h_43 | h_44 | h_45 | h_46 | h_47 | h_49 |
      h_50 | h_51 | h_53 | h_55 | h_56 | h_57 | h_58 | h_64 | h_65 | h_66 | h_67 | h_68 | h_69 | h_70 | h_71 | h_72 |
      h_76 | h_77 | h_78 | h_79 | h_87 | h_90 | h_116 | h_117 | h_118 | h_119 | h_120 | h_121 =>
    cases hi; exact .alone rfl (isIK_of_opcode h (by decide)) rfl (encFR_toFR h)
  case h_20 => exact spells_decodeIun h hi
  case h_21 | h_22 | h_23 | h_24 | h_25 | h_26 | h_27 | h_28 | h_38 | h_39 | h_40 | h_52 | h_54 | h_60 | h_61 | h_62 |
      h_94 | h_113 | h_115 =>
    cases hi; exact .prefixed rfl (isIK_of_opcode h (by decide)) rfl (encFI_toFI e h)
  case h_29 | h_30 | h_63 | h_75 =>
    cases hi; exact .prefixed rfl (isIK_of_opcode h (by decide)) rfl (encFK_toFK e h)
  case h_48 => exact spells_decodeFun h hi
  case h_59 => exact spells_decodeVote h hi
  case h_73 | h_74 | h_101 | h_102 | h_103 | h_104 | h_105 | h_106 | h_107 | h_108 | h_111 =>
    cases hi; exact .alone rfl (isIK_of_opcode h (by decide)) rfl (encFL_toFL h)
  case h_80 | h_85 | h_89 =>
    cases hi; exact .alone rfl (isIK_of_opcode h (by decide)) rfl (encFJ_toFJ h)
  case h_81 | h_82 =>
    cases hi; exact .alone rfl (isIK_of_opcode h (by decide)) rfl (encFJC_toFJC h)
  case h_83 | h_84 | h_86 =>
    cases hi; exact .alone rfl (isIK_of_opcode h (by decide)) rfl (encFJM_toFJM h)
  case h_96 | h_97 | h_98 | h_99 | h_100 | h_109 | h_110 | h_112 | h_122 =>
    cases hi; exact .alone rfl (isIK_of_opcode h (by decide)) rfl (encFMem_toFMem h)
  case h_114 => exact spells_decodeFence h hi
  case h_123 => exact spells_decodeRay h hi
  case h_124 => exact spells_decodeMat h hi
  case h_125 => exact spells_decodeEng h hi
  case h_126 => exact spells_decodeSys h hi
  case h_127 => cases hi

theorem Spells.hasWords (h : Spells e w i) : hasWords i = true := by
  obtain ⟨-, he⟩ := h
  rw [Sys2Proof.hasWords, he]
  split
  · cases e <;> rfl
  · rfl

theorem Spells.wellFormed (h : Spells e w i) : wellFormed i = true := by
  rw [Sys2Proof.wellFormed, h.hasWords, h.1]; rfl

end

/-- What two words decode to is well formed and has exactly the words that were read. -/
theorem encode_of_decode {w0 w1 : Word} {i : Instr} {n : Nat} (h : decode w0 w1 = .ok (i, n)) :
    wellFormed i = true ∧ encode i = [w0, w1].take n := by
  unfold decode at h
  split at h
  next hop =>
    have hx : encM (wM w0) 0x7F (w0.extractLsb' 0 24) = w0 := encM_parts (congrArg BitVec.toNat hop)
    split at h
    next hk =>
      cases hd : decodeWord (some ⟨wM w0, w0.extractLsb' 0 24⟩) w1 with
      | error r => rw [hd] at h; cases h
      | ok j =>
        rw [hd] at h; cases h
        have hs := spells_decodeWord hd
        refine ⟨hs.wellFormed, hs.2.trans ?_⟩
        rw [if_pos hk, withExt, hx]; rfl
    next hk =>
      cases h
      refine ⟨by simp [wellFormed, hasWords, extWf, encode, hk], ?_⟩
      rw [encode, hx]; rfl
  next =>
    cases hd : decodeWord none w0 with
    | error r => rw [hd] at h; cases h
    | ok j =>
      rw [hd] at h; cases h
      have hs := spells_decodeWord hd
      refine ⟨hs.wellFormed, hs.2.trans ?_⟩
      split <;> rfl

/-! ### Every instruction decodes from its own words (R38, R39, R44) -/

/-- An instruction decodes from its own words, whatever follows them. -/
def DecodesBack (i : Instr) : Prop := ∀ w, decode ((encode i).getD 0 w) ((encode i).getD 1 w) = .ok (i, (encode i).length)

/-- A word that is no EXT word decodes alone. -/
theorem decode_alone {w0 w1 : Word} {i : Instr} (hop : (wOp w0).toNat ≠ 0x7F) (hi : decodeWord none w0 = .ok i) :
    decode w0 w1 = .ok (i, 1) := by
  have h : wOp w0 ≠ 0x7F#7 := fun e => hop (congrArg BitVec.toNat e)
  rw [decode, if_neg h, hi]; rfl

theorem DecodesBack.alone {i j : Instr} {m : Bool} {op : Nat} {x : BitVec 24} (he : encode i = [encM m op x]) (hop : op < 127)
    (hj : decodeWord none (encM m op x) = .ok j) (h : j = i) : DecodesBack i := by
  intro w
  subst h
  rw [he]
  exact decode_alone (w0 := encM m op x) (by rw [opcode_encM (by omega)]; omega) hj

theorem DecodesBack.prefixed {i j : Instr} {e : Option ExtWord} {m : Bool} {op : Nat} {x : BitVec 24}
    (he : encode i = withExt e (encM m op x)) (hop : op < 127) (hik : isIK (encM false op 0) = true)
    (hj : decodeWord e (encM m op x) = .ok j) (h : j = i) : DecodesBack i := by
  intro w
  subst h
  rw [he]
  cases e with
  | none => exact decode_alone (w0 := encM m op x) (by rw [opcode_encM (by omega)]; omega) hj
  | some y =>
    have hk : isIK (encM m op x) = true := isIK_of_opcode (opcode_encM (by omega) m x) hik (by omega)
    show decode (encM y.marked 0x7F y.imm) (encM m op x) = .ok (j, 2)
    rw [decode, wOp_encM, if_pos rfl, if_pos hk, wM_encM, extract_encM _ _ (by decide), BitVec.extractLsb'_eq_self, hj]; rfl

/-! One lemma per operand format: where the decoder's row for the opcode (and function) reads the format, an instruction of the
row decodes from its own words. -/

section
variable {op fn : Nat}

theorem DecodesBack.fnull {i : FN → Instr} {o : FN} (he : encode (i o) = [encFN op o]) (hop : op < 127)
    (hd : ∀ w, (wOp w).toNat = op → decodeWord none w = nullary w i) : DecodesBack (i o) := by
  refine .alone he hop ((hd _ (opcode_encM (by omega) _ _)).trans ?_) rfl
  have h0 : (encFN op o).extractLsb' 0 24 = 0#24 := (extract_encM _ _ (by decide) _).trans BitVec.extractLsb'_eq_self
  exact (if_pos h0).trans (by rw [wM_encM])

theorem DecodesBack.fr {i : FR → Instr} {o : FR} (he : encode (i o) = [encFR op o]) (hop : op < 127)
    (hd : ∀ w, (wOp w).toNat = op → decodeWord none w = .ok (i (toFR w))) : DecodesBack (i o) :=
  .alone he hop (hd _ (opcode_encM (by omega) _ _)) (congrArg i (toFR_encFR op o))

theorem DecodesBack.fj {i : FJ → Instr} {o : FJ} (he : encode (i o) = [encFJ op o]) (hop : op < 127)
    (hd : ∀ w, (wOp w).toNat = op → decodeWord none w = .ok (i (toFJ w))) : DecodesBack (i o) :=
  .alone he hop (hd _ (opcode_encM (by omega) _ _)) (congrArg i (toFJ_encFJ op o))

theorem DecodesBack.fjc {i : FJC → Instr} {o : FJC} (he : encode (i o) = [encFJC op o]) (hop : op < 127)
    (hd : ∀ w, (wOp w).toNat = op → decodeWord none w = .ok (i (toFJC w))) : DecodesBack (i o) :=
  .alone he hop (hd _ (opcode_encM (by omega) _ _)) (congrArg i (toFJC_encFJC op o))

theorem DecodesBack.fjm {i : FJM → Instr} {o : FJM} (he : encode (i o) = [encFJM op o]) (hop : op < 127)
    (hd : ∀ w, (wOp w).toNat = op → decodeWord none w = .ok (i (toFJM w))) : DecodesBack (i o) :=
  .alone he hop (hd _ (opcode_encM (by omega) _ _)) (congrArg i (toFJM_encFJM op o))

theorem DecodesBack.fmem {i : FMem → Instr} {o : FMem} (he : encode (i o) = [encFMem op o]) (hop : op < 127)
    (hd : ∀ w, (wOp w).toNat = op → decodeWord none w = .ok (i (toFMem w))) : DecodesBack (i o) :=
  .alone he hop (hd _ (opcode_encM (by omega) _ _)) (congrArg i (toFMem_encFMem op o))

theorem DecodesBack.fl {i : FL → Instr} {o : FL} (he : encode (i o) = [encFL op o]) (hop : op < 127)
    (hd : ∀ w, (wOp w).toNat = op → decodeWord none w = .ok (i (toFL w))) : DecodesBack (i o) :=
  .alone he hop (hd _ (opcode_encM (by omega) _ _)) (congrArg i (toFL_encFL op o))

/-- A function value is read back as the number it is. -/
theorem toNat_func {n : Nat} {x : BitVec n} (h : x = BitVec.ofNat n fn) (hfn : fn < 2 ^ n) : x.toNat = fn := by
  rw [h, BitVec.toNat_ofNat, Nat.mod_eq_of_lt hfn]

theorem DecodesBack.ff {i : FF → Instr} {o : FF} (he : encode (i o) = [encFF op fn o]) (hop : op < 127)
    (hfn : fn < 256) (hd : ∀ w, (wOp w).toNat = op → (wB w).toNat = fn → decodeWord none w = .ok (i (toFF w))) :
    DecodesBack (i o) :=
  .alone he hop (hd _ (opcode_encM (by omega) _ _) (toNat_func (wB_bytes ..) hfn)) (congrArg i (toFF_encFF op fn o))

theorem DecodesBack.fe {i : FE → Instr} {o : FE} (he : encode (i o) = [encFE op fn o]) (hop : op < 127)
    (hfn : fn < 16) (hd : ∀ w, (wOp w).toNat = op → (w.extractLsb' 0 4).toNat = fn → decodeWord none w = .ok (i (toFE w))) :
    DecodesBack (i o) :=
  .alone he hop (hd _ (opcode_encM (by omega) _ _) (toNat_func (func_encFE op fn o) hfn)) (congrArg i (toFE_encFE op fn o))

theorem DecodesBack.fi {i : FI → Instr} {o : FI} (he : encode (i o) = withExt o.ext (encFI op o)) (hop : op < 127)
    (hik : isIK (encM false op 0) = true) (hd : ∀ e w, (wOp w).toNat = op → decodeWord e w = .ok (i (toFI e w))) :
    DecodesBack (i o) :=
  .prefixed he hop hik (hd _ _ (opcode_encM (by omega) _ _)) (congrArg i (toFI_encFI op o))

theorem DecodesBack.fk {i : FK → Instr} {o : FK} (he : encode (i o) = withExt o.ext (encFK op o)) (hop : op < 127)
    (hik : isIK (encM false op 0) = true) (hd : ∀ e w, (wOp w).toNat = op → decodeWord e w = .ok (i (toFK e w))) :
    DecodesBack (i o) :=
  .prefixed he hop hik (hd _ _ (opcode_encM (by omega) _ _)) (congrArg i (toFK_encFK op o))

theorem DecodesBack.fif {i : FIF → Instr} {o : FIF} (he : encode (i o) = withExt o.ext (encFIF op fn o)) (hop : op < 127)
    (hfn : fn < 256) (hik : isIK (encM false op 0) = true)
    (hd : ∀ e w, (wOp w).toNat = op → (wB w).toNat = fn → decodeWord e w = .ok (i (toFIF e w))) : DecodesBack (i o) :=
  .prefixed he hop hik (hd _ _ (opcode_encM (by omega) _ _) (toNat_func (wB_bytes ..) hfn)) (congrArg i (toFIF_encFIF op fn o))

theorem DecodesBack.ffence {i : FFence → Instr} {o : FFence} (he : encode (i o) = withExt o.ext (encFFence op fn o)) (hop : op < 127)
    (hfn : fn < 4) (hik : isIK (encM false op 0) = true)
    (hd : ∀ e w, (wOp w).toNat = op → (w.extractLsb' 3 2).toNat = fn → decodeWord e w = .ok (i (toFFence e w))) : DecodesBack (i o) :=
  .prefixed he hop hik (hd _ _ (opcode_encM (by omega) _ _) (toNat_func (kind_encFFence op fn o) hfn)) (congrArg i (toFFence_encFFence op fn o))

/-- R39: a misplaced EXT word, and whatever word stands behind it. -/
theorem DecodesBack.ext {o : FExt} (h : isIK o.second = false) : DecodesBack (.ext o) := by
  intro w
  show decode (encM o.marked 0x7F o.imm) o.second = .ok (.ext o, 2)
  rw [decode, wOp_encM, if_pos rfl, h, if_neg Bool.false_ne_true, wM_encM, extract_encM _ _ (by decide),
    BitVec.extractLsb'_eq_self]

end

/-- Every instruction, by its format; an event has no words. -/
theorem decodesBack_of_wellFormed (i : Instr) (hw : wellFormed i = true) : DecodesBack i := by
  cases i
  case nop | join | ret | land | exit | yield =>
    exact .fnull rfl (by decide) fun w h => by unfold decodeWord; rw [h]; rfl
  case add | sub | mul | mulh | mad | min | max | absd | and | or | xor | andn | shl | shr | sar | rot | bfx | bfi | mov |
      movf | ceq | cne | clt | cle | cun | fadd | fsub | fmul | fma | fnma | fmin | fmax | fdot2 | idot4 | fscale | pack |
      mxscl | shfl | shflx | perm | mand | mor | mxor | mandn | mcnt | mfind | mget | mset | mexec | mloop | mxv | trace |
      rbox | jmpi | calli | icinv | promote | demote | bset | bget | bnar =>
    exact .fr rfl (by decide) fun w h => by unfold decodeWord; rw [h]; rfl
  case popc | clz | ctz | brev | not | neg | iabs | sext8 | sext16 | zext8 | zext16 =>
    exact .ff rfl (by decide) (by decide) fun w h hf => by
      unfold decodeWord; rw [h]; show decodeIun w = _; unfold decodeIun; rw [hf]; rfl
  case addi | muli | andi | ori | xori | shli | shri | sari | ceqi | clti | clei | cvt | unpk | tred | tscan | wid | bar |
      waitmon | cmaint =>
    exact .fi rfl (by decide) (by decide) fun e w h => by unfold decodeWord; rw [h]; rfl
  case movk | movkh | setmode | setmodeh =>
    exact .fk rfl (by decide) (by decide) fun e w h => by unfold decodeWord; rw [h]; rfl
  case frcp | frsq | fsqrt | fexp2 | flog2 | fsinpi | fcospi | ftanh | ffloor | fceil | ftrunc | frint | fabs | fneg |
      fclass =>
    exact .ff rfl (by decide) (by decide) fun w h hf => by
      unfold decodeWord; rw [h]; show decodeFun w = _; unfold decodeFun; rw [hf]; rfl
  case voteAny | voteAll | voteBallot =>
    exact .fif rfl (by decide) (by decide) (by decide) fun e w h hf => by
      unfold decodeWord; rw [h]; show decodeVote e w = _; unfold decodeVote; rw [hf]; rfl
  case msts | mlds | lds | sts | ldy | sty | ldl | stl | ldp | stp | latom =>
    exact .fl rfl (by decide) fun w h => by unfold decodeWord; rw [h]; rfl
  case bra | jset | call =>
    exact .fj rfl (by decide) fun w h => by unfold decodeWord; rw [h]; rfl
  case brnz | brz =>
    exact .fjc rfl (by decide) fun w h => by unfold decodeWord; rw [h]; rfl
  case brany | brnone | brm =>
    exact .fjm rfl (by decide) fun w h => by unfold decodeWord; rw [h]; rfl
  case ld | st | lda | str | ldk | atom | atagg | arm | bld =>
    exact .fmem rfl (by decide) fun w h => by unfold decodeWord; rw [h]; rfl
  case fenceFull | fenceAcq | fenceRel | fenceStrict =>
    exact .ffence rfl (by decide) (by decide) (by decide) fun e w h hf => by
      unfold decodeWord; rw [h]; show decodeFence e w = _; unfold decodeFence; rw [hf]; rfl
  case tpload | rres | rpoll | boxu | sah | npack | rast | atlnext | atldone | visrd | vrsl | samp =>
    exact .fe rfl (by decide) (by decide) fun w h hf => by
      unfold decodeWord; rw [h]; show decodeRay w = _; unfold decodeRay; rw [hf]; rfl
  case grid | ungrid | mzero | mlda | msta | mrd | mwr | mstat | mwait | macc =>
    exact .fe rfl (by decide) (by decide) fun w h hf => by
      unfold decodeWord; rw [h]; show decodeMat w = _; unfold decodeMat; rw [hf]; rfl
  case copy | copy2d | gather | scatter | coll | waitp | waitt | tlget | gres | binit | barv | bwait | bstat | yjoin |
      yleave | qres =>
    exact .fe rfl (by decide) (by decide) fun w h hf => by
      unfold decodeWord; rw [h]; show decodeEng w = _; unfold decodeEng; rw [hf]; rfl
  case sread | swrite | trap | tret | region | rpc | rpcwait | claim | release | setperf | node | emit | bkpt | tmark |
      jcadd | halt =>
    exact .fe rfl (by decide) (by decide) fun w h hf => by
      unfold decodeWord; rw [h]; show decodeSys w = _; unfold decodeSys; rw [hf]; rfl
  case ext o =>
    exact .ext (by simpa [wellFormed, extWf, hasWords, encode] using hw)
  all_goals exact absurd hw Bool.false_ne_true

/-- Settles O56, row by row of the opcode map, in both directions. -/
theorem decodeEncode : Obligations.DecodeEncode :=
  ⟨fun i w hw => decodesBack_of_wellFormed i hw w, fun _ _ _ _ h => encode_of_decode h⟩

end Sys2Proof
end

section
/-!
PROOFS. What a fetch leaves of the teams (R92): page walks and reads of code may fire monitors (R151), but every team, every
split with its MODE, every region and join record and every group is still there under its name.
-/
namespace Sys2Proof.Machine

/-- What a split is called, and its MODE. -/
def Split.outline (p : Split) : Nat × Word := (p.uid, p.mode)

/-- A team by its names, its splits, and the MODEs that its splits, its region, its join records and SSTAT_LO hold. -/
structure TeamOutline where
  id : Nat
  group : Nat
  splits : List (Nat × Word)
  deferred : List (Nat × Word)
  handler : Option (Nat × Word)
  region : Option Word
  joins : List Word
  sstatLo : Word

def Team.outline (t : Team) : TeamOutline :=
  { id := t.id, group := t.group, splits := t.splits.map Split.outline, deferred := t.deferred.map Split.outline,
    handler := t.handler.map Split.outline, region := t.region.map (·.mode), joins := t.joins.map (·.2.smode),
    sstatLo := t.sstatLo }

/-- Two states have the same teams in outline, the same groups by name, and have given out the same identifiers. -/
def Alike (s u : State) : Prop :=
  u.teams.map Team.outline = s.teams.map Team.outline ∧ u.groups.map (·.id) = s.groups.map (·.id) ∧ u.nextId = s.nextId

theorem Alike.refl (s : State) : Alike s s := ⟨rfl, rfl, rfl⟩

/-! ### Teams -/

theorem Team.modSplit_outline (t : Team) (uid : Nat) (f : Split → Split) (hf : ∀ p, (f p).outline = p.outline) :
    (t.modSplit uid f).outline = t.outline := by
  have h : (Split.outline ∘ fun p => if p.uid = uid then f p else p) = Split.outline := by
    funext p
    dsimp only [Function.comp]
    split
    · exact hf p
    · rfl
  simp only [Team.outline, Team.modSplit, List.map_map, Option.map_map, h]

@[simp] theorem Team.put_outline (t : Team) (f : RFile) (r : Nat) (vals : List (Nat × Nat)) : (t.put f r vals).outline = t.outline := by
  cases f <;> rfl

@[simp] theorem Team.markWritten_outline (t : Team) (f : RFile) (r : Nat) : (t.markWritten f r).outline = t.outline := by
  have h : (Region.mode ∘ fun q : Region => if q.written.contains (f, r) then q else { q with written := q.written ++ [(f, r)] }) =
      Region.mode := by
    funext q
    dsimp only [Function.comp]
    split <;> rfl
  simp only [Team.outline, Team.markWritten, Option.map_map, h]

@[simp] theorem Team.writeOn_outline (t : Team) (owner ew : Nat) (f : RFile) (r : Nat) (bits : LaneMask) (vals : List (Nat × Nat)) :
    (t.writeOn owner ew f r bits vals).outline = t.outline := by
  have h : ((t.put f r vals).markWritten f r).outline = t.outline := by rw [Team.markWritten_outline, Team.put_outline]
  unfold Team.writeOn
  split
  · rfl
  · dsimp only
    repeat' split
    all_goals exact h

theorem Team.wake_outline (t : Team) (uid reason : Nat) : (t.wake uid reason).outline = t.outline := by
  unfold Team.wake
  split
  · rfl
  split
  · rfl
  · rw [Team.modSplit_outline _ _ _ (by intro p; rfl)]
    exact t.writeOn_outline ..

theorem Team.fire_outline (t : Team) (uid : Nat) : (t.fire uid).outline = t.outline := by
  have h : (t.modSplit uid fun q => { q with mon := .fired }).outline = t.outline := t.modSplit_outline _ _ fun _ => rfl
  unfold Team.fire
  split
  · rfl
  dsimp only
  split
  · split
    · exact (Team.wake_outline ..).trans h
    · exact h
  · rfl

/-! ### The state -/

variable {s₀ s : State} {who : Asker} {writer : Agent} {write drop : Bool} {cells : List (Nat × Byte)} {ks : List Nat}
variable {line k cc asid va pte core : Nat}

/-- The state that a pair binds. -/
theorem Alike.of_fst {α : Type} {r : State × α} {u : State} {a : α} (e : r = (u, a)) (h : Alike s₀ r.1) : Alike s₀ u := by
  subst e; exact h
theorem Alike.foldl {α : Type} {f : State → α → State} {l : List α} (h : Alike s₀ s) (hf : ∀ u a, Alike s₀ u → Alike s₀ (f u a)) :
    Alike s₀ (l.foldl f s) := foldl_holds f (Alike s₀) hf l s h

theorem Alike.foldl_fst {α β : Type} {f : State × β → α → State × β} {r : State × β} {l : List α} (h : Alike s₀ r.1)
    (hf : ∀ q a, Alike s₀ q.1 → Alike s₀ (f q a).1) : Alike s₀ (l.foldl f r).1 :=
  foldl_holds f (fun q => Alike s₀ q.1) hf l r h

theorem Alike.modTeam {id : Nat} {f : Team → Team} (h : Alike s₀ s) (hf : ∀ t, (f t).outline = t.outline) :
    Alike s₀ (s.modTeam id f) := by
  obtain ⟨ht, hrest⟩ := h
  refine ⟨?_, hrest⟩
  rw [← ht, State.modTeam_teams, List.map_map]
  refine List.map_congr_left fun t _ => ?_
  dsimp only [Function.comp]
  split
  · exact hf t
  · rfl

theorem Alike.bankAsk (h : Alike s₀ s) : Alike s₀ (s.bankAsk line ks write).1 := by
  unfold State.bankAsk
  split
  · exact h
  · dsimp only
    repeat' split
    all_goals exact h

theorem Alike.recall (h : Alike s₀ s) : Alike s₀ (s.recall line drop) := by
  unfold State.recall
  split <;> exact h

theorem Alike.unclaim (h : Alike s₀ s) : Alike s₀ (s.unclaim who) := by
  unfold State.unclaim
  split <;> exact h

theorem Alike.slcEvict (h : Alike s₀ s) : Alike s₀ (s.slcEvict line).1 := by
  unfold State.slcEvict
  dsimp only
  split
  · exact h
  split
  · exact h.recall
  split
  · exact h
  split
  · exact h
  split
  · exact h
  · exact h.bankAsk

theorem Alike.slcRoom (h : Alike s₀ s) : Alike s₀ (s.slcRoom line).1 := by
  unfold State.slcRoom
  split
  · exact h
  split
  · exact h.slcEvict
  · exact h

theorem Alike.slcFill (h : Alike s₀ s) : Alike s₀ (s.slcFill line ks).1 := by
  unfold State.slcFill
  dsimp only
  split
  next e => exact .of_fst e h.slcRoom
  next u e =>
    have h : Alike s₀ u := .of_fst e h.slcRoom
    split
    · exact h
    split
    next v e =>
      have h : Alike s₀ v := .of_fst e h.bankAsk
      exact h
    · exact h.bankAsk

theorem Alike.slcDir {core : Option Nat} (h : Alike s₀ s) : Alike s₀ (s.slcDir line write core).1 := by
  unfold State.slcDir
  dsimp only
  split
  · exact h.recall
  repeat' split
  all_goals exact h

theorem Alike.slcAsk {core : Option Nat} (h : Alike s₀ s) : Alike s₀ (s.slcAsk line ks write core who).1 := by
  unfold State.slcAsk
  split
  · exact h
  split
  next u e =>
    have h : Alike s₀ u := .of_fst e h.slcDir
    exact h
  next u e =>
    have h : Alike s₀ u := .of_fst e h.slcDir
    split
    next v e =>
      have h : Alike s₀ v := .of_fst e h.slcFill
      exact h
    · exact h.slcFill

theorem Alike.fireLine (h : Alike s₀ s) : Alike s₀ (s.fireLine line) := by
  unfold State.fireLine
  split
  · exact Alike.foldl h fun _ _ h => h.modTeam fun t => t.fire_outline _
  · exact h

theorem Alike.slcMark (h : Alike s₀ s) : Alike s₀ (s.slcMark line ks) := by
  unfold State.slcMark
  split
  · exact h
  · exact h.bankAsk

theorem Alike.clearPoison {sp : Space} (h : Alike s₀ s) : Alike s₀ (s.clearPoison sp cells) := by
  obtain ⟨q, e⟩ := s.clearPoison_eq sp cells
  rw [e]; exact h

theorem Alike.slcWrite (h : Alike s₀ s) : Alike s₀ (s.slcWrite cells) := by
  unfold State.slcWrite
  extract_lets lines s₁ s₂ s₃
  have h₁ : Alike s₀ s₁ := by
    obtain ⟨q, e⟩ := s.wrCells_glob cells
    rw [show s₁ = _ from e]; exact h
  have h₂ : Alike s₀ s₂ := h₁.foldl fun _ _ h => h.slcMark
  exact Alike.foldl h₂ fun _ _ h => h.fireLine

theorem Alike.slcSectorWrite {data : Nat} {poison : Bool} (h : Alike s₀ s) : Alike s₀ (s.slcSectorWrite line k data poison) := by
  unfold State.slcSectorWrite
  dsimp only
  split <;> exact h.slcWrite

theorem Alike.cleanL2 (h : Alike s₀ s) : Alike s₀ (s.cleanL2 line).1 := by
  unfold State.cleanL2
  dsimp only
  split
  · exact h
  split
  · exact h
  split
  · exact h.slcAsk
  · exact h.slcAsk.foldl fun _ _ h => h.slcSectorWrite

theorem Alike.l2Room (h : Alike s₀ s) : Alike s₀ (s.l2Room line).1 := by
  unfold State.l2Room
  dsimp only
  split
  · exact h
  split
  · split
    next u e =>
      have h : Alike s₀ u := .of_fst e h.cleanL2
      exact h
    · exact h.cleanL2
  · exact h

theorem Alike.needL2 (h : Alike s₀ s) : Alike s₀ (s.needL2 line k).1 := by
  unfold State.needL2
  dsimp only
  split
  · exact h
  split
  next e => exact .of_fst e h.l2Room
  next u e =>
    have h : Alike s₀ u := .of_fst e h.l2Room
    split <;> exact h.slcAsk

theorem Alike.needAll {f : State → Nat → State × Bool} (h : Alike s₀ s) (hf : ∀ u n, Alike s₀ u → Alike s₀ (f u n).1) :
    Alike s₀ (s.needAll ks f).1 :=
  h.foldl_fst fun _ _ h => hf _ _ h

/-- A page walk goes down one level at a time. -/
theorem Alike.walkTables {levels : List (Nat × Nat)} {table : Nat} (h : Alike s₀ s) :
    Alike s₀ (s.walkTables asid va levels table).1 := by
  induction levels generalizing s table with
  | nil => exact h
  | cons level rest ih =>
    unfold State.walkTables
    extract_lets +onlyGivenNames a
    split
    · exact h
    split
    · exact h
    split
    next u _ e =>
      have hu : Alike s₀ u := .of_fst e h.slcAsk
      split
      · exact hu
      split
      · exact hu
      extract_lets x
      split
      · exact hu
      · exact hu
      · exact ih hu

theorem Alike.missed {sp : Space} (h : Alike s₀ s) : Alike s₀ (s.missed sp line writer) := by
  unfold State.missed
  split <;> exact h

theorem Alike.pteOr {bit : Nat} (h : Alike s₀ s) : Alike s₀ (s.pteOr pte bit who).1 := by
  unfold State.pteOr
  dsimp only
  split
  · exact h
  split
  · exact h.slcAsk.unclaim
  · exact h.slcAsk.missed.slcWrite

theorem Alike.walk (h : Alike s₀ s) : Alike s₀ (s.walk asid va).1 := by
  unfold State.walk
  dsimp only
  split
  · exact h
  split
  next e => exact .of_fst e h.walkTables
  next e => exact .of_fst e h.walkTables
  next e => exact .of_fst e h.walkTables
  next u _ _ _ e =>
    have h : Alike s₀ u := .of_fst e h.walkTables
    split <;> exact h.pteOr

theorem Alike.translate {core : Option Nat} (h : Alike s₀ s) : Alike s₀ (s.translate core asid va).1 := by
  unfold State.translate
  dsimp only
  split
  · exact h
  split
  · split <;> exact h
  split
  next u _ e =>
    have h : Alike s₀ u := .of_fst e h.walk
    repeat' split
    all_goals exact h
  · exact h.walk

theorem Alike.codeLine (h : Alike s₀ s) : Alike s₀ (s.codeLine cc line).1 := by
  unfold State.codeLine
  split
  · split
    next u _ e =>
      have h : Alike s₀ u := .of_fst e (h.needAll fun _ _ h => h.needL2)
      split
      · split <;> exact h
      · exact h
  · split
    next u _ e =>
      have h : Alike s₀ u := .of_fst e h.slcAsk
      split <;> exact h

theorem Alike.fetch (h : Alike s₀ s) : Alike s₀ (s.fetch core asid va).1 := by
  unfold State.fetch
  dsimp only
  split
  · exact h
  split
  next e => exact .of_fst e h.translate
  next e => exact .of_fst e h.translate
  next u _ e =>
    have h : Alike s₀ u := .of_fst e h.translate
    iterate 6 (split; · exact h)
    split
    next e => exact .of_fst e h.codeLine
    next v _ _ e =>
      have h : Alike s₀ v := .of_fst e h.codeLine
      exact h

theorem Alike.fetchPair {t : Team} (h : Alike s₀ s) : Alike s₀ (s.fetchPair t asid va).1 := by
  unfold State.fetchPair
  split
  · exact h
  split
  next u _ e =>
    have h : Alike s₀ u := .of_fst e h.fetch
    split
    · split
      next e => exact (Alike.of_fst e h.fetch).modTeam fun _ => rfl
      next e => exact .of_fst e h.fetch
    · exact h.modTeam fun _ => rfl
  next e => exact .of_fst e h.fetch

end Sys2Proof.Machine
end

section
/-!
PROOFS. Every step answers a next state: the events. An instruction that has words issues, so it faults only where no split
does; an event never does (R45, R350, R353).
-/
namespace Sys2Proof.Machine

/-- An outcome is a next state. -/
def Goes (r : Host.Outcome State Fault Refusal) : Prop := ∃ u, r = .next u

theorem goes_next (u : State) : Goes (.next u) := ⟨u, rfl⟩

theorem goes_issue {i : Instr} {s : State} {body : State → Ctx → Res} (h : gate i s ≠ .noIssuer) : Goes (issue i s body) :=
  (issue_cases i s body).resolve_left fun q => h q.1

theorem withExt_ne_nil (e : Option ExtWord) (w : Word) : withExt e w ≠ [] := by
  cases e <;> exact List.cons_ne_nil _ _

theorem goes_execSlcRequest (e : EvFlightLine) (s : State) : Goes (execSlcRequest e s) := by
  unfold execSlcRequest
  repeat' split
  all_goals exact goes_next _

theorem goes_execL1Invalidation (e : EvCoreLine) (s : State) : Goes (execL1Invalidation e s) := by
  unfold execL1Invalidation
  repeat' split
  all_goals exact goes_next _

theorem goes_execFenceComplete (e : EvSplit) (s : State) : Goes (execFenceComplete e s) := by
  unfold execFenceComplete
  extract_lets mine held
  clear_value held mine
  split
  · split
    · exact goes_next _
    · split <;> exact goes_next _
  split
  · exact goes_next _
  split
  · exact goes_next _
  extract_lets waiting
  split
  extract_lets
  repeat' split
  all_goals exact goes_next _

theorem goes_execWaitmonTimeout (e : EvSplit) (s : State) : Goes (execWaitmonTimeout e s) := by
  unfold execWaitmonTimeout
  repeat' split
  all_goals exact goes_next _

theorem goes_execPageWalkComplete (e : EvWalk) (s : State) : Goes (execPageWalkComplete e s) := by
  unfold execPageWalkComplete
  repeat' split
  all_goals exact goes_next _

theorem goes_execFaultReply (e : EvReply) (s : State) : Goes (execFaultReply e s) := by
  unfold execFaultReply
  repeat' split
  all_goals exact goes_next _

theorem goes_execParkedReplay (e : EvSplit) (s : State) : Goes (execParkedReplay e s) := by
  unfold execParkedReplay
  repeat' first | split | extract_lets
  all_goals exact goes_next _

theorem goes_execTranslationInvalidation (e : EvInv) (s : State) : Goes (execTranslationInvalidation e s) := by
  unfold execTranslationInvalidation
  repeat' split
  all_goals exact goes_next _

theorem goes_execInvalidationAck (s : State) : Goes (execInvalidationAck s) := by
  unfold execInvalidationAck
  repeat' split
  all_goals exact goes_next _

theorem goes_execSnoopResponse (e : EvSnoop) (s : State) : Goes (execSnoopResponse e s) := by
  unfold execSnoopResponse
  repeat' split
  all_goals exact goes_next _

theorem goes_execFrameCleanComplete (s : State) : Goes (execFrameCleanComplete s) := by
  unfold execFrameCleanComplete
  repeat' split
  all_goals exact goes_next _

theorem goes_execCmaintComplete (e : EvFlight) (s : State) : Goes (execCmaintComplete e s) := by
  unfold execCmaintComplete
  repeat' first | split | extract_lets
  all_goals exact goes_next _

theorem goes_execIcinvComplete (e : EvSplit) (s : State) : Goes (execIcinvComplete e s) := by
  unfold execIcinvComplete
  repeat' split
  all_goals exact goes_next _

theorem goes_execBankAccess (e : EvBankAccess) (s : State) : Goes (execBankAccess e s) := by
  unfold execBankAccess
  repeat' first | split | extract_lets
  all_goals exact goes_next _

theorem goes_execPerBankRefresh (e : EvBank) (s : State) : Goes (execPerBankRefresh e s) :=
  goes_next _

theorem goes_execBankSegmentRequest (e : EvBank) (s : State) : Goes (execBankSegmentRequest e s) := by
  unfold execBankSegmentRequest
  repeat' first | split | extract_lets
  all_goals exact goes_next _

theorem goes_execSegmentWritebackDone (e : EvBank) (s : State) : Goes (execSegmentWritebackDone e s) := by
  unfold execSegmentWritebackDone
  repeat' first | split | extract_lets
  all_goals exact goes_next _

theorem goes_execSegmentCopyDone (e : EvBank) (s : State) : Goes (execSegmentCopyDone e s) := by
  unfold execSegmentCopyDone
  repeat' first | split | extract_lets
  all_goals exact goes_next _

theorem goes_execEngineTransfer (e : EvEngineCmd) (s : State) : Goes (execEngineTransfer e s) := by
  unfold execEngineTransfer
  repeat' split
  all_goals exact goes_next _

theorem goes_execEngineCommandComplete (e : EvEngineCmd) (s : State) : Goes (execEngineCommandComplete e s) := by
  unfold execEngineCommandComplete
  repeat' split
  all_goals exact goes_next _

theorem goes_execYjoinComplete (e : EvYard) (s : State) : Goes (execYjoinComplete e s) := by
  unfold execYjoinComplete
  repeat' first | split | extract_lets
  all_goals exact goes_next _

theorem goes_execYleaveComplete (e : EvGroup) (s : State) : Goes (execYleaveComplete e s) := by
  unfold execYleaveComplete
  repeat' split
  all_goals exact goes_next _

theorem goes_execGridTake (e : EvTeam) (s : State) : Goes (execGridTake e s) := by
  unfold execGridTake
  repeat' first | split | extract_lets
  all_goals exact goes_next _

theorem goes_execUngridComplete (e : EvTeam) (s : State) : Goes (execUngridComplete e s) := by
  unfold execUngridComplete
  repeat' split
  all_goals exact goes_next _

theorem goes_execTokenIdleRelease (e : EvTeam) (s : State) : Goes (execTokenIdleRelease e s) := by
  unfold execTokenIdleRelease
  repeat' split
  all_goals exact goes_next _

theorem goes_execMatrixCommandStart (e : EvEngine) (s : State) : Goes (execMatrixCommandStart e s) := by
  unfold execMatrixCommandStart
  repeat' first | split | extract_lets
  all_goals exact goes_next _

theorem goes_execMloopStep (e : EvEngineCmd) (s : State) : Goes (execMloopStep e s) := by
  unfold execMloopStep
  repeat' first | split | extract_lets
  all_goals exact goes_next _

theorem goes_execMatrixCommandFinish (e : EvEngineCmd) (s : State) : Goes (execMatrixCommandFinish e s) := by
  unfold execMatrixCommandFinish
  repeat' split
  all_goals exact goes_next _

theorem goes_execMxvFinish (e : EvSplit) (s : State) : Goes (execMxvFinish e s) := by
  unfold execMxvFinish
  repeat' first | split | extract_lets
  all_goals exact goes_next _

theorem goes_execRboxFinish (e : EvSplit) (s : State) : Goes (execRboxFinish e s) := by
  unfold execRboxFinish
  repeat' first | split | extract_lets
  all_goals exact goes_next _

theorem goes_execTploadSlotLoad (e : EvGroup) (s : State) : Goes (execTploadSlotLoad e s) := by
  unfold execTploadSlotLoad
  repeat' first | split | extract_lets
  all_goals exact goes_next _

theorem goes_execRayStart (e : EvGroup) (s : State) : Goes (execRayStart e s) := by
  unfold execRayStart
  repeat' first | split | extract_lets
  all_goals exact goes_next _

theorem goes_execRayMicroOpStep (e : EvRay) (s : State) : Goes (execRayMicroOpStep e s) := by
  unfold execRayMicroOpStep
  repeat' split
  all_goals exact goes_next _

theorem goes_execRastTriangle (e : EvGroup) (s : State) : Goes (execRastTriangle e s) := by
  unfold execRastTriangle
  split
  · exact goes_next _
  split
  · exact goes_next _
  split
  · exact goes_next _
  extract_lets s₁ g₁ fetched
  clear_value fetched
  repeat' first | split | extract_lets
  all_goals exact goes_next _

theorem goes_execRequestPassSample (e : EvGroup) (s : State) : Goes (execRequestPassSample e s) := by
  unfold execRequestPassSample
  split
  · exact goes_next _
  split
  · exact goes_next _
  extract_lets k
  split
  · exact goes_next _
  split
  · split
    · exact goes_next _
    extract_lets key seen req
    clear_value req
    repeat' first | split | extract_lets
    all_goals exact goes_next _
  · exact goes_next _

theorem goes_execVrslLatch (e : EvGroup) (s : State) : Goes (execVrslLatch e s) := by
  unfold execVrslLatch
  repeat' split
  all_goals exact goes_next _

theorem goes_execClaimGrant (e : EvQuad) (s : State) : Goes (execClaimGrant e s) := by
  unfold execClaimGrant
  repeat' split
  all_goals exact goes_next _

theorem goes_execSplitRotation (e : EvTeam) (s : State) : Goes (execSplitRotation e s) := by
  unfold execSplitRotation
  repeat' split
  all_goals exact goes_next _

theorem goes_execSplitReload (e : EvTeam) (s : State) : Goes (execSplitReload e s) := by
  unfold execSplitReload
  split
  · exact goes_next _
  extract_lets left
  clear_value left
  split
  · exact goes_next _
  split <;> exact goes_next _

theorem goes_execTeamGranuleReturn (e : EvTeam) (s : State) : Goes (execTeamGranuleReturn e s) := by
  unfold execTeamGranuleReturn
  repeat' split
  all_goals exact goes_next _

theorem goes_execGroupEnd (e : EvGroup) (s : State) : Goes (execGroupEnd e s) := by
  unfold execGroupEnd
  repeat' split
  all_goals exact goes_next _

theorem goes_execSpawnWrite (e : EvSpawn) (s : State) : Goes (execSpawnWrite e s) := by
  unfold execSpawnWrite
  repeat' split
  all_goals exact goes_next _

theorem goes_execNodeDispatch (e : EvNode) (s : State) : Goes (execNodeDispatch e s) := by
  unfold execNodeDispatch
  split
  · exact goes_next _
  split
  · exact goes_next _
  split
  · repeat' split
    all_goals exact goes_next _
  split
  · exact goes_next _
  split
  extract_lets +onlyGivenNames raw
  split
  extract_lets +onlyGivenNames jca block
  clear_value jca block
  iterate 3 split
  extract_lets +onlyGivenNames words rs
  clear_value rs
  split
  · exact goes_next _
  split
  · exact goes_next _
  extract_lets +onlyGivenNames recs w
  clear_value recs w
  split <;> exact goes_next _

theorem goes_execTileStaging (e : EvNode) (s : State) : Goes (execTileStaging e s) := by
  unfold execTileStaging
  repeat' split
  all_goals exact goes_next _

theorem goes_execGroupPlacement (e : EvNode) (s : State) : Goes (execGroupPlacement e s) := by
  unfold execGroupPlacement
  repeat' split
  all_goals exact goes_next _

theorem goes_execNodeComplete (e : EvNode) (s : State) : Goes (execNodeComplete e s) := by
  unfold execNodeComplete
  repeat' split
  all_goals exact goes_next _

theorem goes_execLevelMove (e : EvCore) (s : State) : Goes (execLevelMove e s) := by
  unfold execLevelMove
  repeat' first | split | extract_lets
  all_goals exact goes_next _

theorem goes_execDroopTrigger (e : EvDroop) (s : State) : Goes (execDroopTrigger e s) := by
  unfold execDroopTrigger
  repeat' split
  all_goals exact goes_next _

theorem goes_execDroopStretchEnd (e : EvCore) (s : State) : Goes (execDroopStretchEnd e s) := by
  unfold execDroopStretchEnd
  repeat' split
  all_goals exact goes_next _

theorem goes_execDroopHalvingEnd (e : EvCore) (s : State) : Goes (execDroopHalvingEnd e s) := by
  unfold execDroopHalvingEnd
  repeat' split
  all_goals exact goes_next _

theorem goes_execBayPowerGate (e : EvBay) (s : State) : Goes (execBayPowerGate e s) := by
  unfold execBayPowerGate
  repeat' split
  all_goals exact goes_next _

theorem goes_execBayWakeComplete (e : EvQuad) (s : State) : Goes (execBayWakeComplete e s) := by
  unfold execBayWakeComplete
  split
  · exact goes_next _
  extract_lets left
  clear_value left
  split <;> exact goes_next _

theorem goes_execCorePowerGate (e : EvCore) (s : State) : Goes (execCorePowerGate e s) := by
  unfold execCorePowerGate
  repeat' split
  all_goals exact goes_next _

theorem goes_execSkinTemperatureInterval (e : EvSkin) (s : State) : Goes (execSkinTemperatureInterval e s) := by
  unfold execSkinTemperatureInterval
  repeat' split
  all_goals exact goes_next _

theorem goes_execGovernorEstimate (e : EvGovernor) (s : State) : Goes (execGovernorEstimate e s) := by
  unfold execGovernorEstimate
  repeat' split
  all_goals exact goes_next _

theorem goes_execRtimerExpiry (e : EvTeam) (s : State) : Goes (execRtimerExpiry e s) := by
  unfold execRtimerExpiry
  repeat' split
  all_goals exact goes_next _

theorem goes_execWallDeadlineExpiry (e : EvTeam) (s : State) : Goes (execWallDeadlineExpiry e s) := by
  unfold execWallDeadlineExpiry
  repeat' split
  all_goals exact goes_next _

theorem goes_execAsyncTrapEntry (e : EvTeam) (s : State) : Goes (execAsyncTrapEntry e s) := by
  unfold execAsyncTrapEntry
  repeat' split
  all_goals exact goes_next _

theorem goes_execPoisonedRegisterRead (e : EvPoison) (s : State) : Goes (execPoisonedRegisterRead e s) := by
  unfold execPoisonedRegisterRead
  repeat' split
  all_goals exact goes_next _

theorem goes_execTeamStop (e : EvStop) (s : State) : Goes (execTeamStop e s) := by
  unfold execTeamStop
  repeat' split
  all_goals exact goes_next _

theorem goes_execTeamRestore (e : EvTeam) (s : State) : Goes (execTeamRestore e s) := by
  unfold execTeamRestore
  repeat' first | split | extract_lets
  all_goals exact goes_next _

theorem goes_execGroupEviction (e : EvGroup) (s : State) : Goes (execGroupEviction e s) := by
  unfold execGroupEviction
  repeat' split
  all_goals exact goes_next _

theorem goes_execGroupRestore (e : EvGroupCore) (s : State) : Goes (execGroupRestore e s) := by
  unfold execGroupRestore
  repeat' split
  all_goals exact goes_next _

theorem goes_execPartitionHalt (e : EvCtx) (s : State) : Goes (execPartitionHalt e s) := by
  unfold execPartitionHalt
  repeat' first | split | extract_lets
  all_goals exact goes_next _

theorem goes_execPartitionSwap (e : EvCtx) (s : State) : Goes (execPartitionSwap e s) := by
  unfold execPartitionSwap
  repeat' split
  all_goals exact goes_next _

theorem goes_execCtxCreate (e : EvCtxCfg) (s : State) : Goes (execCtxCreate e s) := by
  unfold execCtxCreate
  repeat' first | split | extract_lets
  all_goals exact goes_next _

theorem goes_execCtxSet (e : EvCtxCfg) (s : State) : Goes (execCtxSet e s) := by
  unfold execCtxSet
  repeat' first | split | extract_lets
  all_goals exact goes_next _

theorem goes_execCtxDestroy (e : EvCtx) (s : State) : Goes (execCtxDestroy e s) := by
  unfold execCtxDestroy
  repeat' split
  all_goals exact goes_next _

theorem goes_execCoreRetirement (e : EvCore) (s : State) : Goes (execCoreRetirement e s) := by
  unfold execCoreRetirement
  repeat' first | split | extract_lets
  all_goals exact goes_next _

theorem goes_execMemoryTrainingComplete (e : EvTraining) (s : State) : Goes (execMemoryTrainingComplete e s) := by
  unfold execMemoryTrainingComplete
  repeat' split
  all_goals exact goes_next _

theorem goes_execFwgo (e : EvRegValue) (s : State) : Goes (execFwgo e s) := by
  unfold execFwgo
  repeat' split
  all_goals exact goes_next _

theorem goes_execFirmwareVerification (s : State) : Goes (execFirmwareVerification s) := by
  unfold execFirmwareVerification
  repeat' split
  all_goals exact goes_next _

theorem goes_execCorePowerUp (e : EvCore) (s : State) : Goes (execCorePowerUp e s) := by
  unfold execCorePowerUp
  repeat' split
  all_goals exact goes_next _

theorem goes_execGetMeasurements (e : EvIndex) (s : State) : Goes (execGetMeasurements e s) := by
  unfold execGetMeasurements
  repeat' split
  all_goals exact goes_next _

theorem goes_execIdeKmKeySet (e : EvIndex) (s : State) : Goes (execIdeKmKeySet e s) := by
  unfold execIdeKmKeySet
  repeat' split
  all_goals exact goes_next _

theorem goes_execLockInterfaceRequest (e : EvIndex) (s : State) : Goes (execLockInterfaceRequest e s) := by
  unfold execLockInterfaceRequest
  repeat' split
  all_goals exact goes_next _

theorem goes_execGetDeviceInterfaceReport (e : EvIndex) (s : State) : Goes (execGetDeviceInterfaceReport e s) := by
  unfold execGetDeviceInterfaceReport
  repeat' split
  all_goals exact goes_next _

theorem goes_execStartInterfaceRequest (e : EvIndex) (s : State) : Goes (execStartInterfaceRequest e s) := by
  unfold execStartInterfaceRequest
  repeat' split
  all_goals exact goes_next _

theorem goes_execStopInterfaceRequest (e : EvIndex) (s : State) : Goes (execStopInterfaceRequest e s) := by
  unfold execStopInterfaceRequest
  repeat' split
  all_goals exact goes_next _

theorem goes_execFrozenConfigurationWrite (e : EvIndex) (s : State) : Goes (execFrozenConfigurationWrite e s) := by
  unfold execFrozenConfigurationWrite
  repeat' split
  all_goals exact goes_next _

theorem goes_execIdeIntegrityFailure (e : EvIndex) (s : State) : Goes (execIdeIntegrityFailure e s) := by
  unfold execIdeIntegrityFailure
  repeat' first | split | extract_lets
  all_goals exact goes_next _

theorem goes_execStopreqSet (s : State) : Goes (execStopreqSet s) := by
  unfold execStopreqSet
  repeat' split
  all_goals exact goes_next _

theorem goes_execStopreqClear (s : State) : Goes (execStopreqClear s) := by
  unfold execStopreqClear
  repeat' split
  all_goals exact goes_next _

theorem goes_execHaltdbgClear (s : State) : Goes (execHaltdbgClear s) := by
  unfold execHaltdbgClear
  repeat' split
  all_goals exact goes_next _

theorem goes_execDropsClear (e : EvRegValue) (s : State) : Goes (execDropsClear e s) := by
  unfold execDropsClear
  repeat' split
  all_goals exact goes_next _

theorem goes_execChargeWindowAging (e : EvCore) (s : State) : Goes (execChargeWindowAging e s) := by
  unfold execChargeWindowAging
  repeat' split
  all_goals exact goes_next _

theorem goes_execIdleBayCycle (e : EvBay) (s : State) : Goes (execIdleBayCycle e s) := by
  unfold execIdleBayCycle
  repeat' split
  all_goals exact goes_next _

/-- An instruction of words needs an issuer; an event needs nothing. -/
theorem exec_goes {i : Instr} {s : State} (h : encode i ≠ [] → gate i s ≠ .noIssuer) : Goes (exec i s) := by
  cases i
  case loadDataReturn | storePerformed | monitorRegistration | hostReadShared | hostReadForOwnership | hostWrite |
      hostAtomic | frameClean | engineCommandStart | tokenGrant | rastCommandStart | requestPassStart | levelMoveComplete |
      coreWakeComplete | rpcReply | powerOnReset | registerWrite =>
    exact ⟨_, rfl⟩
  case slcRequest => exact goes_execSlcRequest _ s
  case l1Invalidation => exact goes_execL1Invalidation _ s
  case fenceComplete => exact goes_execFenceComplete _ s
  case waitmonTimeout => exact goes_execWaitmonTimeout _ s
  case pageWalkComplete => exact goes_execPageWalkComplete _ s
  case faultReply => exact goes_execFaultReply _ s
  case parkedReplay => exact goes_execParkedReplay _ s
  case translationInvalidation => exact goes_execTranslationInvalidation _ s
  case invalidationAck => exact goes_execInvalidationAck s
  case snoopResponse => exact goes_execSnoopResponse _ s
  case frameCleanComplete => exact goes_execFrameCleanComplete s
  case cmaintComplete => exact goes_execCmaintComplete _ s
  case icinvComplete => exact goes_execIcinvComplete _ s
  case bankAccess => exact goes_execBankAccess _ s
  case perBankRefresh => exact goes_execPerBankRefresh _ s
  case bankSegmentRequest => exact goes_execBankSegmentRequest _ s
  case segmentWritebackDone => exact goes_execSegmentWritebackDone _ s
  case segmentCopyDone => exact goes_execSegmentCopyDone _ s
  case engineTransfer => exact goes_execEngineTransfer _ s
  case engineCommandComplete => exact goes_execEngineCommandComplete _ s
  case yjoinComplete => exact goes_execYjoinComplete _ s
  case yleaveComplete => exact goes_execYleaveComplete _ s
  case gridTake => exact goes_execGridTake _ s
  case ungridComplete => exact goes_execUngridComplete _ s
  case tokenIdleRelease => exact goes_execTokenIdleRelease _ s
  case matrixCommandStart => exact goes_execMatrixCommandStart _ s
  case mloopStep => exact goes_execMloopStep _ s
  case matrixCommandFinish => exact goes_execMatrixCommandFinish _ s
  case mxvFinish => exact goes_execMxvFinish _ s
  case rboxFinish => exact goes_execRboxFinish _ s
  case tploadSlotLoad => exact goes_execTploadSlotLoad _ s
  case rayStart => exact goes_execRayStart _ s
  case rayMicroOpStep => exact goes_execRayMicroOpStep _ s
  case rastTriangle => exact goes_execRastTriangle _ s
  case requestPassSample => exact goes_execRequestPassSample _ s
  case vrslLatch => exact goes_execVrslLatch _ s
  case claimGrant => exact goes_execClaimGrant _ s
  case splitRotation => exact goes_execSplitRotation _ s
  case splitReload => exact goes_execSplitReload _ s
  case teamGranuleReturn => exact goes_execTeamGranuleReturn _ s
  case groupEnd => exact goes_execGroupEnd _ s
  case spawnWrite => exact goes_execSpawnWrite _ s
  case nodeDispatch => exact goes_execNodeDispatch _ s
  case tileStaging => exact goes_execTileStaging _ s
  case groupPlacement => exact goes_execGroupPlacement _ s
  case nodeComplete => exact goes_execNodeComplete _ s
  case levelMove => exact goes_execLevelMove _ s
  case droopTrigger => exact goes_execDroopTrigger _ s
  case droopStretchEnd => exact goes_execDroopStretchEnd _ s
  case droopHalvingEnd => exact goes_execDroopHalvingEnd _ s
  case bayPowerGate => exact goes_execBayPowerGate _ s
  case bayWakeComplete => exact goes_execBayWakeComplete _ s
  case corePowerGate => exact goes_execCorePowerGate _ s
  case skinTemperatureInterval => exact goes_execSkinTemperatureInterval _ s
  case governorEstimate => exact goes_execGovernorEstimate _ s
  case rtimerExpiry => exact goes_execRtimerExpiry _ s
  case wallDeadlineExpiry => exact goes_execWallDeadlineExpiry _ s
  case asyncTrapEntry => exact goes_execAsyncTrapEntry _ s
  case poisonedRegisterRead => exact goes_execPoisonedRegisterRead _ s
  case teamStop => exact goes_execTeamStop _ s
  case teamRestore => exact goes_execTeamRestore _ s
  case groupEviction => exact goes_execGroupEviction _ s
  case groupRestore => exact goes_execGroupRestore _ s
  case partitionHalt => exact goes_execPartitionHalt _ s
  case partitionSwap => exact goes_execPartitionSwap _ s
  case ctxCreate => exact goes_execCtxCreate _ s
  case ctxSet => exact goes_execCtxSet _ s
  case ctxDestroy => exact goes_execCtxDestroy _ s
  case coreRetirement => exact goes_execCoreRetirement _ s
  case memoryTrainingComplete => exact goes_execMemoryTrainingComplete _ s
  case fwgo => exact goes_execFwgo _ s
  case firmwareVerification => exact goes_execFirmwareVerification s
  case corePowerUp => exact goes_execCorePowerUp _ s
  case getMeasurements => exact goes_execGetMeasurements _ s
  case ideKmKeySet => exact goes_execIdeKmKeySet _ s
  case lockInterfaceRequest => exact goes_execLockInterfaceRequest _ s
  case getDeviceInterfaceReport => exact goes_execGetDeviceInterfaceReport _ s
  case startInterfaceRequest => exact goes_execStartInterfaceRequest _ s
  case stopInterfaceRequest => exact goes_execStopInterfaceRequest _ s
  case frozenConfigurationWrite => exact goes_execFrozenConfigurationWrite _ s
  case ideIntegrityFailure => exact goes_execIdeIntegrityFailure _ s
  case stopreqSet => exact goes_execStopreqSet s
  case stopreqClear => exact goes_execStopreqClear s
  case haltdbgClear => exact goes_execHaltdbgClear s
  case dropsClear => exact goes_execDropsClear _ s
  case chargeWindowAging => exact goes_execChargeWindowAging _ s
  case idleBayCycle => exact goes_execIdleBayCycle _ s
  case addi | muli | andi | ori | xori | shli | shri | sari | movk | movkh | ceqi | clti | clei | cvt | unpk | voteAny |
      voteAll | voteBallot | tred | tscan | wid | setmode | setmodeh | bar | waitmon | fenceFull | fenceAcq | fenceRel |
      fenceStrict | cmaint =>
    exact goes_issue (h (withExt_ne_nil _ _))
  all_goals exact goes_issue (h (List.cons_ne_nil _ _))

end Sys2Proof.Machine
end

section
/-!
PROOFS. What the device does with no order given: each act is an event or a turn of the agenda, so what the events and the turns
leave true, a step leaves true (R295, R331).
-/
namespace Sys2Proof.Machine

/-- An act is an event that happens. -/
def IsEvent (a : Act) : Prop := ∃ i, encode i = [] ∧ a = exec i

theorem IsEvent.of (i : Instr) (h : encode i = [] := by rfl) : IsEvent (exec i) := ⟨i, h, rfl⟩

/-- An act is an event, or a turn that an agenda could hold. -/
def Performs (a : Act) : Prop := IsEvent a ∨ ∃ t, a = fun s => s.turn t

theorem Performs.event (i : Instr) (h : encode i = [] := by rfl) : Performs (exec i) := .inl (.of i h)
theorem Performs.turn (t : Turn) : Performs fun s => s.turn t := .inr ⟨t, rfl⟩

variable {K : Act → Prop} {l l₁ l₂ : List Act} {a b : Act} {o : Option Act}

/-- Each act of a list is of a kind. -/
def Each (K : Act → Prop) (l : List Act) : Prop := ∀ a ∈ l, K a

/-- The act that is chosen, if there is one, is of a kind. -/
def Chosen (K : Act → Prop) (o : Option Act) : Prop := ∀ a, o = some a → K a

theorem Each.nil : Each K [] := nofun
theorem Each.cons (ha : K a) (hl : Each K l) : Each K (a :: l) := List.forall_mem_cons.2 ⟨ha, hl⟩
theorem Each.one (ha : K a) : Each K [a] := .cons ha .nil
theorem Each.append (h₁ : Each K l₁) (h₂ : Each K l₂) : Each K (l₁ ++ l₂) := List.forall_mem_append.2 ⟨h₁, h₂⟩
theorem Each.flatMap {α : Type} {l : List α} {f : α → List Act} (hf : ∀ x, Each K (f x)) : Each K (l.flatMap f) := by
  intro a ha
  obtain ⟨x, -, hx⟩ := List.mem_flatMap.1 ha
  exact hf x a hx
theorem Each.map {α : Type} {l : List α} {f : α → Act} (hf : ∀ x, K (f x)) : Each K (l.map f) := by
  intro a ha
  obtain ⟨x, -, rfl⟩ := List.mem_map.1 ha
  exact hf x
theorem Each.ite {p : Prop} [Decidable p] (h₁ : Each K l₁) (h₂ : Each K l₂) : Each K (if p then l₁ else l₂) := by
  split
  · exact h₁
  · exact h₂
theorem Each.find? {p : Act → Bool} (h : Each K l) : Chosen K (l.find? p) := fun a e => h a (List.mem_of_find?_eq_some e)
theorem Chosen.orElse {f : Unit → Option Act} (ho : Chosen K o) (hf : Chosen K (f ())) : Chosen K (o.orElse f) := by
  cases o with
  | none => exact hf
  | some a => exact ho
theorem Performs.ite {p : Prop} [Decidable p] (ha : Performs a) (hb : Performs b) : Performs (if p then a else b) := by
  split
  · exact ha
  · exact hb

/-! ### Each list of acts -/

theorem State.dueActs_areEvents (s : State) (core : Nat) : Each IsEvent (s.dueActs core) := by
  refine .append (.append (.append (.flatMap fun t => ?_) (.flatMap fun q => ?_)) ?_) ?_
  · refine .append (.append (.append ?_ ?_) ?_) ?_
    · exact .ite .nil (.one (.of (.splitRotation _)))
    · exact .ite .nil (.one (.of (.wallDeadlineExpiry _)))
    · exact .ite .nil (.one (.of (.asyncTrapEntry _)))
    · exact .ite (.one (.of (.tokenIdleRelease _))) .nil
  · exact .ite .nil (.one (.of (.claimGrant _)))
  · split
    · exact .flatMap fun b => .ite (.one (.of (.bayPowerGate _))) .nil
    · exact .nil
  · exact .ite .nil (.one (.of .tokenGrant))

theorem State.due_isEvent (s : State) (core : Nat) : Chosen IsEvent (s.due core) := (s.dueActs_areEvents core).find?

theorem Flight.acts_perform (f : Flight) : Each Performs f.acts := by
  unfold Flight.acts
  split
  · exact .one (.event (.monitorRegistration _))
  · exact .one (.event (.cmaintComplete _))
  · exact .nil
  · exact .ite (.one (.event (.loadDataReturn _))) (.one (.event (.storePerformed _)))

theorem Team.acts_perform (t : Team) : Each Performs t.acts := by
  refine .append (.flatMap fun p => ?_) ?_
  · exact .cons (.event (.fenceComplete _)) <| .cons (.event (.icinvComplete _)) <| .cons (.event (.waitmonTimeout _)) <|
      .cons (.event (.parkedReplay _)) <| .cons (.event (.mxvFinish _)) <| .one (.event (.rboxFinish _))
  · exact .cons (.event (.wallDeadlineExpiry _)) <| .cons (.event (.asyncTrapEntry _)) <| .cons (.event (.gridTake _)) <|
      .cons (.event (.ungridComplete _)) <| .cons (.event (.tokenIdleRelease _)) <| .cons (.event (.splitRotation _)) <|
      .cons (.event (.teamGranuleReturn _)) <| .cons (.event (.teamStop _)) <| .cons (.event (.teamStop _)) <|
      .cons (.event (.teamStop _)) <| .cons (.event (.teamStop _)) <| .one (.event (.teamRestore _))

theorem engActs_perform (gid : Nat) (e : Nat × EngCtx) : Each Performs (engActs gid e) := by
  refine .append ?_ (.flatMap fun c => ?_)
  · exact .cons (.event (.engineCommandStart _)) <| .one (.event (.matrixCommandStart _))
  · exact .cons (.event (.engineTransfer _)) <| .cons (.event (.mloopStep _)) <| .cons (.event (.matrixCommandFinish _)) <|
      .one (.event (.engineCommandComplete _))

theorem Group.acts_perform (g : Group) : Each Performs g.acts := by
  refine .append (.append (.append (.append (.flatMap fun e => engActs_perform g.id e) ?_) ?_) ?_) ?_
  · exact .cons (.event (.tploadSlotLoad _)) <| .one (.event (.rayStart _))
  · exact .map fun _ => .event (.rayMicroOpStep _)
  · exact .cons (.event (.rastCommandStart _)) <| .cons (.event (.rastTriangle _)) <| .cons (.event (.requestPassStart _)) <|
      .cons (.event (.requestPassSample _)) <| .cons (.event (.vrslLatch _)) <| .cons (.event (.yleaveComplete _)) <|
      .cons (.event (.groupEnd _)) <| .one (.event (.groupEviction _))
  · exact .map fun _ => .event (.groupRestore _)

/-- What needs nothing from outside: events, queued adds, host requests and trace records. -/
theorem State.acts_perform (s : State) : Each Performs s.acts := by
  refine .append (.append (.append (.append (.append (.append (.append (.append (.append (.append (.append
    (.map fun _ => .event (.l1Invalidation _)) (.flatMap Flight.acts_perform)) (.map fun a => .turn (.joinAdd a.id)))
    (.map fun q => .turn (.host q.1))) (.map fun q => .turn (.ring q.1))) (.flatMap Team.acts_perform))
    (.flatMap Group.acts_perform)) (.flatMap fun b => ?_)) (.map fun _ => .event (.yjoinComplete _))) (.flatMap fun n => ?_))
    (.flatMap fun c => ?_)) ?_
  · exact .append (.ite (.one (.event (.perBankRefresh _))) .nil) <| .cons (.event (.bankSegmentRequest _)) <|
      .cons (.event (.segmentWritebackDone _)) <| .one (.event (.segmentCopyDone _))
  · exact .cons (.event (.nodeDispatch _)) <| .cons (.event (.tileStaging _)) <| .cons (.event (.groupPlacement _)) <|
      .one (.event (.nodeComplete _))
  · refine .append (.append (.map fun _ => .event (.claimGrant _)) ?_) ?_
    · exact .cons (.event (.levelMove _)) <| .cons (.event (.levelMoveComplete _)) <| .one (.event (.coreWakeComplete _))
    · exact .ite (.one (.event (.coreRetirement _))) .nil
  · exact .cons (.event .firmwareVerification) <| .cons (.event (.corePowerUp _)) <| .cons (.event .invalidationAck) <|
      .one (.event .frameCleanComplete)

/-- A split that may issue takes its turn. -/
theorem State.fetchActs_perform (s : State) : Each Performs s.fetchActs := by
  refine .flatMap fun t => ?_
  intro a ha
  obtain ⟨p, -, e⟩ := List.mem_filterMap.1 ha
  split at e
  · cases e
  · split at e
    · cases e
      exact .turn (.issue t.id p.uid)
    · split at e
      · cases e
        exact .turn (.issue t.id p.uid)
      · cases e

theorem State.selectOn_performs (s : State) (core bay : Nat) : Chosen Performs (s.selectOn core bay) := by
  intro a e
  unfold State.selectOn at e
  split at e
  · cases e
  · cases e
    exact .ite (.turn (.pass core bay)) (.turn (.issue _ _))

/-- The bay that is chosen issues, or goes on with a pass. -/
theorem State.selectIssue_performs (s : State) : Chosen Performs s.selectIssue := by
  intro a e
  obtain ⟨b, -, hb⟩ := List.exists_of_findSome?_eq_some e
  exact s.selectOn_performs _ _ a hb

/-! ### From the events and the turns to a step -/

/-- Where P holds, each event and each turn answers with Q; a next state answers with Q just where it has P. The agenda itself does
not matter to P. -/
structure Steps (P : State → Prop) (Q : Host.Outcome State Fault Refusal → Prop) : Prop where
  next : ∀ u, Q (.next u) ↔ P u
  event : ∀ i s, encode i = [] → P s → Q (exec i s)
  turn : ∀ t s, P s → Q (State.turn s t)
  agenda : ∀ s ts, P s → P { s with agenda := ts }

variable {P : State → Prop} {Q : Host.Outcome State Fault Refusal → Prop} {s : State}

theorem Steps.performs (h : Steps P Q) (ha : Performs a) (hs : P s) : Q (a s) := by
  obtain ⟨i, hi, rfl⟩ | ⟨t, rfl⟩ := ha
  · exact h.event i s hi hs
  · exact h.turn t s hs

/-- Each core that may goes on to its next cycle. -/
theorem Steps.cyclesTurn (h : Steps P Q) (hs : P s) : P s.cyclesTurn := by
  refine foldl_holds _ P (fun u c hu => ?_) _ _ hs
  have hc : Q (u.cycleTurn c.id) := h.turn (.cycle c.id) u hu
  split
  next e => exact (h.next _).1 (e ▸ hc)
  · exact hu

/-- With no order given, the act is one of those above, or the cores cycle. -/
theorem Steps.defaultTurn (h : Steps P Q) (hs : P s) : Q s.defaultTurn := by
  unfold State.defaultTurn
  extract_lets event choice s₁
  have hevent : Chosen Performs event := (s.acts_perform.append s.fetchActs_perform).find?
  have hchoice : Chosen Performs choice := by
    unfold choice
    split
    · exact hevent.orElse s.selectIssue_performs
    · exact .orElse s.selectIssue_performs hevent
    · nofun
  have h₁ : P s₁ := (h.next _).1 (h.turn (.time 1) s hs)
  clear_value choice s₁
  split
  next a => exact h.performs (hchoice a rfl) h₁
  · exact (h.next _).2 (h.cyclesTurn h₁)

theorem Steps.step (h : Steps P Q) (hs : P s) : Q (step s) := by
  unfold Machine.step
  split
  · exact h.defaultTurn hs
  · exact h.turn _ _ (h.agenda s _ hs)

end Sys2Proof.Machine
end

section
/-!
PROOFS. The obligation that every step answers a next state: the split whose instruction is fetched is still there when it issues,
so the one fault, an instruction without an issuer, never comes.
-/
namespace Sys2Proof.Machine

/-- What a name finds, in outline, is found in the outlines. -/
theorem find?_outline {α β : Type} (f : α → β) (p : β → Bool) {l l' : List α} (h : l'.map f = l.map f) :
    (l'.find? fun x => p (f x)).map f = (l.find? fun x => p (f x)).map f := by
  rw [← Function.comp_def p f, ← List.find?_map, ← List.find?_map, h]

theorem Team.split?_outline {t t' : Team} (h : t'.outline = t.outline) (uid : Nat) :
    (t'.split? uid).map Split.outline = (t.split? uid).map Split.outline := by
  simp only [Team.outline, TeamOutline.mk.injEq] at h
  obtain ⟨-, -, hs, hd, hh, -, -, -⟩ := h
  refine find?_outline Split.outline (fun q => decide (q.1 = uid)) ?_
  simp only [List.map_append, hs, hd, ← Option.toList_map, hh]

variable {s u : State} {t : Team} {p : Split} {g : Group} {tid uid : Nat}

theorem Alike.team?_outline (h : Alike s u) (tid : Nat) : (u.team? tid).map Team.outline = (s.team? tid).map Team.outline :=
  find?_outline Team.outline (fun o => decide (o.id = tid)) h.1

theorem Alike.group?_id (h : Alike s u) (gid : Nat) : (u.group? gid).map (·.id) = (s.group? gid).map (·.id) :=
  find?_outline Group.id (fun n => decide (n = gid)) h.2.1

theorem State.team?_id {s : State} (h : s.team? tid = some t) : t.id = tid := by
  simpa using List.find?_some h
theorem Team.split?_uid (h : t.split? uid = some p) : p.uid = uid := by
  simpa using List.find?_some h

/-- A state like one in which a split, its team and its group are has an issuer for that split's instruction. -/
theorem Alike.gate_issuer (h : Alike s u) (ht : s.team? tid = some t) (hp : t.split? uid = some p)
    (hg : s.group? t.group = some g) (i : Instr) : gate i { u with cur := some (tid, uid) } ≠ .noIssuer := by
  have hu := h.team?_outline tid
  rw [ht, Option.map_some, Option.map_eq_some_iff] at hu
  obtain ⟨t', ht', ho⟩ := hu
  have hq := Team.split?_outline ho uid
  rw [hp, Option.map_some, Option.map_eq_some_iff] at hq
  obtain ⟨p', hp', -⟩ := hq
  have hgrp : t'.group = t.group := congrArg TeamOutline.group ho
  have hv := h.group?_id t.group
  rw [hg, Option.map_some, Option.map_eq_some_iff, ← hgrp] at hv
  obtain ⟨g', hg', -⟩ := hv
  obtain rfl := State.team?_id ht'
  obtain rfl := Team.split?_uid hp'
  exact Machine.gate_issuer i _ t' p' g' rfl ht' hp' hg'

/-- An instruction that a fetch gives has its issuer. -/
theorem State.fetchNext_issuer {s : State} {i : Instr} (h : s.fetchNext tid uid = .run i u) : gate i u ≠ .noIssuer := by
  unfold State.fetchNext at h
  split at h
  · cases h
  next t ht =>
  split at h
  next p g hp hg =>
    split at h
    · cases h
    extract_lets c va at h
    split at h
    next v w0 w1 e =>
      split at h
      next j n _ =>
        cases h
        exact Alike.gate_issuer (.of_fst e (Alike.refl s).fetchPair) ht hp hg i
      · cases h
    · cases h
  · cases h

theorem goes_issueOne (s : State) (t : Team) (p : Split) : Goes (s.issueOne t p) := by
  unfold State.issueOne
  split
  · exact goes_next _
  next i u e =>
    have hi : Goes (exec i u) := exec_goes fun _ => State.fetchNext_issuer e
    obtain ⟨v, hv⟩ := hi
    rw [hv]
    split
    · exact goes_next _
    extract_lets won
    split <;> exact goes_next _

theorem goes_event {i : Instr} (h : encode i = []) (s : State) : Goes (exec i s) := exec_goes fun hn => absurd h hn

theorem goes_due {s : State} {core : Nat} {a : Act} (e : s.due core = some a) : Goes (a s) := by
  obtain ⟨i, hi, rfl⟩ := s.due_isEvent core a e
  exact goes_event hi s

theorem goes_issueTurn (s : State) (tid uid : Nat) : Goes (s.issueTurn tid uid) := by
  unfold State.issueTurn
  split
  · exact goes_next _
  split
  next e => exact goes_due e
  · exact goes_next _
  · exact goes_issueOne ..

theorem goes_cycleTurn (s : State) (core : Nat) : Goes (s.cycleTurn core) := by
  unfold State.cycleTurn
  split
  next e => exact goes_due e
  · exact goes_next _

theorem goes_eventTurn (s : State) (i : Instr) : Goes (s.eventTurn i) := by
  unfold State.eventTurn
  split
  · exact goes_next _
  next h =>
  have hi : Goes (exec i s) := goes_event (by simpa using h) s
  split
  · split
    · exact hi
    · exact goes_next _
  · exact hi

/-- Of the turns only an issue, an event and a cycle run an instruction or an event. -/
theorem goes_turn (t : Turn) (s : State) : Goes (s.turn t) := by
  cases t with
  | issue tid uid => exact goes_issueTurn s tid uid
  | event i => exact goes_eventTurn s i
  | cycle core => exact goes_cycleTurn s core
  | _ => exact goes_next _

/-- Settles O58: each event and each turn answers a next state, so each step does. -/
theorem everyStepGoesOn : Obligations.EveryStepGoesOn := fun _ =>
  Steps.step (P := fun _ => True)
    { next := fun u => iff_true_intro (goes_next u)
      event := fun _ _ h _ => goes_event h _
      turn := fun t s _ => goes_turn t s
      agenda := fun _ _ _ => trivial } trivial

end Sys2Proof.Machine
end

section
/-!
PROOFS. The obligations on reset, on the words that the spec works out, and on what a step runs.
-/
namespace Sys2Proof.Machine

/-- Settles O54: each part of the reset state is written out in its definition. -/
theorem resetState : Obligations.ResetState := by
  refine ⟨rfl, rfl, rfl, rfl, ?_, rfl, rfl, rfl, rfl, rfl, fun _ => rfl, rfl, rfl, rfl, rfl, rfl, rfl, fun _ => rfl, rfl, ?_⟩
  · decide
  · unfold State.Legal
    decide

/-- Settles O55: the decoder computes each of them. -/
theorem workedWords : Obligations.WorkedWords := by
  refine ⟨?_, ?_, ?_, ?_, ?_, ?_, ?_⟩ <;> rfl

variable {s s₁ s₂ u : State} {t : Team} {p : Split} {g : Group} {i : Instr} {w0 w1 : Word} {wo : Option Word} {asid va : Nat}

/-! ### What is fetched -/

/-- R97: the loop buffer gives the words that it holds. -/
theorem State.fetchPair_loop {l : LoopEnt}
    (hl : t.loop.find? (fun l => decide (l.asid = asid) && decide (l.va = va % 2 ^ 48)) = some l) (hb : l.bad = false) :
    s.fetchPair t asid va = (s, .ok (l.w0, l.w1)) := by
  simp only [State.fetchPair, hl, hb, Bool.false_eq_true, if_false]

/-- R39: a word that is not EXT stands alone. -/
theorem State.fetchPair_one (hl : t.loop.find? (fun l => decide (l.asid = asid) && decide (l.va = va % 2 ^ 48)) = none)
    (hf : s.fetch t.core asid va = (s₁, .ok w0)) (hw : wOp w0 ≠ 0x7F) : (s.fetchPair t asid va).2 = .ok (w0, none) := by
  simp only [State.fetchPair, hl, hf, isExt0, hw, decide_false, Bool.false_eq_true, if_false]

/-- R39: EXT comes with the word behind it. -/
theorem State.fetchPair_two (hl : t.loop.find? (fun l => decide (l.asid = asid) && decide (l.va = va % 2 ^ 48)) = none)
    (hf : s.fetch t.core asid va = (s₁, .ok w0)) (hw : wOp w0 = 0x7F) (hf' : s₁.fetch t.core asid (va + 4) = (s₂, .ok w1)) :
    (s.fetchPair t asid va).2 = .ok (w0, some w1) := by
  simp only [State.fetchPair, hl, hf, hf', isExt0, hw, decide_true, if_true]

/-- The instruction that the words at a split's PC decode to, with that split as its issuer. -/
theorem State.fetchNext_run {n : Nat} (ht : s.team? t.id = some t) (hp : t.split? p.uid = some p) (hg : s.group? t.group = some g)
    (hi : s.issuable t p = true) (hf : s.fetchPair t g.asid (g.codeBase + p.pc.toNat) = (s₁, .ok (w0, wo)))
    (hd : decode w0 (wo.getD 0) = .ok (i, n)) : s.fetchNext t.id p.uid = .run i { s₁ with cur := some (t.id, p.uid) } := by
  simp only [State.fetchNext, ht, hp, hg, hi, hf, hd, Bool.not_true, Bool.false_eq_true, if_false]

/-! ### What a turn runs -/

/-- With nothing due and no split that goes first, a split's turn is its own. -/
theorem State.issueTurn_own (ht : s.team? t.id = some t) (hp : t.split? p.uid = some p) (hd : s.due t.core = none)
    (hf : s.firstOf t p = none) : s.issueTurn t.id p.uid = s.issueOne t p := by
  simp only [State.issueTurn, ht, hp, hd, hf, Option.getD_none]

theorem State.issueOne_blocked (hr : s.fetchNext t.id p.uid = .run i u) (hb : p.st = .blocked) : s.issueOne t p = exec i u := by
  simp only [State.issueOne, hr, hb, if_true]

/-- Bays of the split's passes may issue. -/
def State.openFor (s : State) (i : Instr) (t : Team) (p : Split) : Bool :=
  (s.core? t.core).any fun k => (passesOf i p.exec t.size).any fun q => k.openBay (4 * t.quad + q.1)

/-- An instruction begins: its passes issue on the bays that it has won. -/
theorem State.issueOne_begins {v : State} (hr : s.fetchNext t.id p.uid = .run i u) (hb : p.st ≠ .blocked) (hl : t.late p = false)
    (hw : s.wonBays i t p ≠ [] ∨ s.openFor i t p = false) (hv : exec i u = .next v) :
    s.issueOne t p = .next (v.passOn s t.core (t.id, p.uid) (s.wonBays i t p)) := by
  have hgo : (t.late p || (decide (s.wonBays i t p = []) && s.openFor i t p)) = false := by
    simp only [hl, Bool.false_or, Bool.and_eq_false_iff, decide_eq_false_iff_not]
    exact hw
  unfold State.openFor at hgo
  simp only [State.issueOne, hr, hb, if_false, hgo, Bool.false_eq_true, hv]

/-- An instruction waits. -/
theorem State.issueOne_waits (hr : s.fetchNext t.id p.uid = .run i u) (hb : p.st ≠ .blocked)
    (hw : (s.wonBays i t p = [] ∧ s.openFor i t p = true) ∨ t.late p = true) : s.issueOne t p = .next s := by
  have hstay : (t.late p || (decide (s.wonBays i t p = []) && s.openFor i t p)) = true := by
    simp only [Bool.or_eq_true, Bool.and_eq_true, decide_eq_true_eq]
    exact hw.symm
  unfold State.openFor at hstay
  simp only [State.issueOne, hr, hb, if_false, hstay, if_true]

/-- An event whose cycles are free happens. -/
theorem State.eventTurn_exec (he : encode i = []) (hf : ∀ c k, s.cyclesOf i = some (c, k) → s.freeFor c k = true) :
    s.eventTurn i = exec i s := by
  unfold State.eventTurn
  rw [if_neg (by simp [he])]
  split
  next c k e => rw [if_pos (hf c k e)]
  · rfl

theorem step_turn {τ : Turn} {ts : List Turn} (h : s.agenda = τ :: ts) : step s = State.turn { s with agenda := ts } τ := by
  unfold step
  rw [h]

/-- Settles O57: the turn that stands first in the agenda is the split's or the event's, and it runs what the words decode to. -/
theorem stepRunsDecoded : Obligations.StepRunsDecoded := by
  intro s t p g ts i n s₁ w0 wo s₀ u open'
  refine ⟨fun ha ht hp hg hd hi hf hc hfirst => ?_, fun va hl hf => ⟨State.fetchPair_one hl hf, fun s₂ w1 hw hf' =>
    State.fetchPair_two hl hf hw hf'⟩, fun va l => State.fetchPair_loop, fun ha he hfree => ?_⟩
  · have hrun : s₀.fetchNext t.id p.uid = .run i u := State.fetchNext_run ht hp hg hi hf hc
    have hstep : step s = s₀.issueOne t p := (step_turn ha).trans (State.issueTurn_own ht hp hd hfirst)
    rw [hstep]
    exact ⟨State.issueOne_blocked hrun, fun hb hl hw v hv => State.issueOne_begins hrun hb hl hw hv,
      fun hb hw => State.issueOne_waits hrun hb hw⟩
  · exact (step_turn ha).trans (State.eventTurn_exec he hfree)

end Sys2Proof.Machine
end

section
/-!
PROOFS. The frame of an instruction that completes: what `still` looks past, how an update of a team passes through it, and the
frame of what an instruction's own effect leaves when its split goes on.
-/
namespace Sys2Proof.Machine

variable {s v : State} {t : Team} {p : Split} {g : Group} {i : Instr} {c : Ctx} {k uid : Nat}

/-! ### Updates seen without what issuing uses up -/

/-- Two updates of a team in turn are one. -/
theorem State.modTeam_modTeam (s : State) (k : Nat) (f h : Team → Team) (hf : ∀ x, (f x).id = x.id) :
    (s.modTeam k f).modTeam k h = s.modTeam k fun x => h (f x) := by
  have e : ∀ x : Team, (if (if x.id = k then f x else x).id = k then h (if x.id = k then f x else x) else if x.id = k then f x else x) =
      if x.id = k then h (f x) else x := by
    intro x
    by_cases hx : x.id = k
    · simp only [hx, if_true, hf]
    · simp only [hx, if_false]
  simp only [State.modTeam, List.map_map, Function.comp_def, e]

theorem Team.still_modSplit (t : Team) (uid : Nat) {f f' : Split → Split} (h : ∀ q, (f q).still = f' q.still) :
    (t.modSplit uid f).still = t.still.modSplit uid f' := by
  have e : (Split.still ∘ fun q => if q.uid = uid then f q else q) = (fun q => if q.uid = uid then f' q else q) ∘ Split.still := by
    funext q
    have hu : q.still.uid = q.uid := rfl
    simp only [Function.comp, hu]
    split
    · exact h q
    · rfl
  simp only [Team.still, Team.modSplit, List.map_map, Option.map_map, e]

/-- A split's update that leaves nothing to see leaves the team as it was. -/
theorem Team.modSplit_self (t : Team) (uid : Nat) : t.modSplit uid (fun q => q) = t := by
  have e : (fun q : Split => if q.uid = uid then q else q) = fun q => q := funext fun q => ite_self q
  simp only [Team.modSplit, e, List.map_id', Option.map_id']

@[simp] theorem Team.still_settle (t : Team) (uid : Nat) : (t.settle uid).still = t.still := by
  unfold Team.settle
  split
  · rfl
  · split <;> rfl

@[simp] theorem Team.settle_id (t : Team) (uid : Nat) : (t.settle uid).id = t.id := by
  unfold Team.settle
  split
  · rfl
  · split <;> rfl

@[simp] theorem Team.settle_priv (t : Team) (uid : Nat) : (t.settle uid).priv = t.priv := by
  unfold Team.settle
  split
  · rfl
  · split <;> rfl

theorem State.still_modTeam (s : State) (k : Nat) {f f' : Team → Team} (h : ∀ x, (f x).still = f' x.still) :
    (s.modTeam k f).still = s.still.modTeam k f' := by
  have e : (Team.still ∘ fun x => if x.id = k then f x else x) = (fun x => if x.id = k then f' x else x) ∘ Team.still := by
    funext x
    have hi : x.still.id = x.id := rfl
    simp only [Function.comp, hi]
    split
    · exact h x
    · rfl
  simp only [State.still, State.modTeam, List.map_map, e]

/-- An update that only changes what `still` looks past. -/
theorem State.still_modTeam_same (s : State) (k : Nat) {f : Team → Team} (h : ∀ x, (f x).still = x.still) :
    (s.modTeam k f).still = s.still := by
  have e : (fun x : Team => if x.id = k then x else x) = id := funext fun x => ite_self x
  rw [s.still_modTeam k (f' := fun x => x) h]
  simp only [State.modTeam, e, List.map_id]

theorem State.still_modSplit (s : State) (k uid : Nat) {f f' : Split → Split} (h : ∀ q, (f q).still = f' q.still) :
    (s.modSplit k uid f).still = s.still.modSplit k uid f' :=
  s.still_modTeam k fun x => x.still_modSplit uid h

@[simp] theorem State.still_account (s : State) (c : Ctx) : (s.account c).still = s.still := by
  have hcore : ∀ q, (s.modCore c.core fun k => { k with passes := k.passes ++ q }).still = s.still := by
    intro q
    have e : (Core.still ∘ fun k => if k.id = c.core then { k with passes := k.passes ++ q } else k) = Core.still := by
      funext k
      simp only [Function.comp]
      split <;> rfl
    simp only [State.still, State.modCore, List.map_map, e]
  unfold State.account State.book
  split
  · rfl
  · rw [State.still_modTeam_same _ _ (by intro; rfl)]
    exact hcore _

theorem State.still_advance (s : State) (c : Ctx) : (s.advance c).still = s.still.modTeam c.tid c.passes :=
  s.still_modSplit _ _ fun _ => rfl

/-! ### The state in which an instruction's own effect begins -/

/-- What happens to the team of an instruction that issues. -/
def Team.begins (t : Team) (i : Instr) (uid : Nat) : Team :=
  (if isMarked i then t.settle uid else t).modSplit uid fun q => { q with exempt := false, landCheck := false }

@[simp] theorem Team.begins_id (t : Team) (i : Instr) (uid : Nat) : (t.begins i uid).id = t.id := by
  unfold Team.begins
  split
  · exact t.settle_id uid
  · rfl

@[simp] theorem Team.begins_priv (t : Team) (i : Instr) (uid : Nat) : (t.begins i uid).priv = t.priv := by
  unfold Team.begins
  split
  · exact t.settle_priv uid
  · rfl

@[simp] theorem Team.begins_raw (t : Team) (i : Instr) (uid : Nat) (f : RFile) (r l : Nat) :
    (t.begins i uid).raw f r l = t.raw f r l := by
  unfold Team.begins
  rw [Team.raw_modSplit]
  split
  · exact t.raw_settle ..
  · rfl

@[simp] theorem Team.begins_still (t : Team) (i : Instr) (uid : Nat) : (t.begins i uid).still = t.still := by
  unfold Team.begins
  rw [Team.still_modSplit _ _ (f' := fun q => q) (by intro; rfl), Team.modSplit_self]
  split
  · exact t.still_settle uid
  · rfl

theorem issueState_eq (i : Instr) (s : State) (t : Team) (p : Split) :
    issueState i s t p = { s.modTeam t.id (·.begins i p.uid) with nonce := s.nonce + 1 } := rfl

theorem issueState_still (i : Instr) (s : State) (t : Team) (p : Split) : (issueState i s t p).still = s.still :=
  s.still_modTeam_same t.id fun x => x.begins_still i p.uid

theorem issueState_rdByte (i : Instr) (s : State) (t : Team) (p : Split) (sp : Space) (a : Nat) :
    (issueState i s t p).rdByte sp a = s.rdByte sp a := by
  rw [issueState_eq]
  refine Eq.trans ?_ (s.rdByte_modTeam t.id (·.begins i p.uid) (fun x => x.begins_id i p.uid) (fun x => x.begins_priv i p.uid) sp a)
  cases sp <;> rfl

/-- A team's registers after an update that keeps its name. -/
theorem State.reg_modTeam (s : State) (k : Nat) {f : Team → Team} (hi : ∀ x, (f x).id = x.id) {id : Nat} {x : RFile} {r l : Nat}
    (h : id ≠ k ∨ ∀ y, s.team? k = some y → (f y).raw x r l = y.raw x r l) : (s.modTeam k f).reg id x r l = s.reg id x r l := by
  unfold State.reg
  by_cases hk : id = k
  · subst hk
    rw [State.modTeam_find s id f hi]
    cases ht : s.team? id with
    | none => rfl
    | some y => exact h.resolve_left (fun n => n rfl) y ht
  · rw [State.modTeam_find_other s k id f hi hk]

theorem issueState_reg (i : Instr) (s : State) (t : Team) (p : Split) (id : Nat) (f : RFile) (r l : Nat) :
    (issueState i s t p).reg id f r l = s.reg id f r l :=
  s.reg_modTeam t.id (fun x => x.begins_id i p.uid) (.inr fun y _ => y.begins_raw ..)

/-! ### The context of an instruction that issues -/

/-- A write of registers keeps a team's outline, so its name. -/
theorem Team.write_outline (t : Team) (owner ew : Nat) (f : RFile) (r : Nat) (vals : List (Nat × Nat)) :
    (t.write owner ew f r vals).outline = t.outline := t.writeOn_outline ..

theorem Team.writeBits_outline (t : Team) (owner r : Nat) (lanes x : LaneMask) : (t.writeBits owner r lanes x).outline = t.outline :=
  t.writeOn_outline ..

theorem State.arriving_outline (s : State) (t : Team) : (s.arriving t).outline = t.outline := by
  refine foldl_keeps _ Team.outline (fun x a => ?_) _ _
  split
  · dsimp only
    split
    · rfl
    · rfl
    · refine foldl_keeps _ Team.outline (fun x c => ?_) _ _
      split
      · rfl
      · exact x.writeBits_outline ..
    · exact foldl_keeps _ Team.outline (fun x c => x.write_outline ..) _ _
  · rfl

@[simp] theorem issueTeam_id (i : Instr) (s : State) (t : Team) (p : Split) : (issueTeam i s t p).id = t.id := by
  have h : (s.arriving t).id = t.id := congrArg TeamOutline.id (s.arriving_outline t)
  unfold issueTeam
  split
  · exact (Team.settle_id ..).trans h
  split
  · rfl
  · exact h

@[simp] theorem issueCtx_tid (i : Instr) (s : State) (t : Team) (p : Split) (g : Group) : (issueCtx i s t p g).tid = t.id :=
  issueTeam_id ..
theorem issueCtx_uid (i : Instr) (s : State) (t : Team) (p : Split) (g : Group) : (issueCtx i s t p g).uid = p.uid := rfl
theorem issueCtx_sp (i : Instr) (s : State) (t : Team) (p : Split) (g : Group) : (issueCtx i s t p g).sp = p := rfl

/-! ### Frames -/

/-- The frame of an instruction that completes, from that of its own effect. -/
theorem Frame.done {dest : List (RFile × Nat)} {eff : Team → Team} (hc : c.tid = k) (hi : ∀ x, (eff x).id = x.id)
    (hv : Frame s v k dest eff) : Frame s (finish s c (.done v)) k dest fun x => c.passes (eff x) := by
  obtain ⟨hb, hr, hs⟩ := hv
  subst hc
  refine ⟨fun sp a => (finish_done_rdByte s c v sp a).trans (hb sp a),
    fun id f r l h => (finish_done_reg s c v id f r l).trans (hr id f r l h), ?_⟩
  rw [finish_done, State.still_account, State.still_advance, hs, ← s.modTeam_modTeam c.tid eff c.passes hi]
  exact (State.still_modTeam _ _ fun x => x.still_modSplit c.uid (f' := Split.goOn c.len) fun _ => rfl).symm

/-- An instruction that only goes on. -/
theorem passesBy_of_done (hr : Ready i s t p g) (he : exec i s = issue i s fun s _ => .done s) :
    ∃ u, PassesBy i s u t (issueCtx i s t p g) := by
  refine ⟨_, he.trans (issue_ready i s t p g _ hr), ?_⟩
  refine Frame.done (eff := fun x => x) (issueCtx_tid ..) (fun _ => rfl) ⟨issueState_rdByte i s t p, fun id f r l _ => issueState_reg i s t p id f r l, ?_⟩
  rw [issueState_still, s.still_modTeam_same t.id fun _ => rfl]

/-- An effect on the issuing split alone. -/
theorem frame_modSplit (i : Instr) (s : State) (t : Team) (p : Split) {f : Split → Split} (hf : ∀ q, (f q).still = f q.still) :
    Frame s ((issueState i s t p).modSplit t.id p.uid f) t.id [] fun y => y.modSplit p.uid f := by
  refine ⟨fun sp a => ?_, fun id x r l _ => ?_, ?_⟩
  · rw [State.modSplit_rdByte, issueState_rdByte]
  · rw [State.modSplit_reg, issueState_reg]
  · rw [State.still_modSplit _ _ _ hf, issueState_still]
    exact (s.still_modSplit _ _ hf).symm

/-- A write of MODE that MODE may take. -/
theorem setMode_frame {x : Word} (hx : modeReserved x = false) :
    Frame s (finish s (issueCtx i s t p g) (setMode (issueState i s t p) (issueCtx i s t p g) x)) t.id []
      fun y => (issueCtx i s t p g).passes (y.modSplit p.uid fun q => { q with mode := x }) := by
  rw [setMode, if_neg (by simp [hx]), issueCtx_tid, issueCtx_uid]
  exact Frame.done (issueCtx_tid ..) (fun _ => rfl) (frame_modSplit i s t p fun _ => rfl)

end Sys2Proof.Machine
end

section
/-!
PROOFS. The obligation on SETMODE, SETMODEH, NOP and LAND.
-/
namespace Sys2Proof.Machine

/-- Settles O13: SETMODE and SETMODEH write MODE and go on; NOP and LAND only go on. -/
theorem modeNopLand : Obligations.ModeNopLand := by
  refine ⟨fun o s t p g => ⟨fun x hx hr hok => ?_, fun x hx hr hok => ?_⟩, fun o s t p g =>
    ⟨fun hr => passesBy_of_done hr rfl, fun hr => passesBy_of_done hr rfl⟩⟩
  · refine ⟨_, issue_ready (.setmode o) s t p g _ hr, ?_⟩
    have hx' : (match o.ext with
        | some _ => BitVec.ofNat 32 (immK o)
        | none => BitVec.ofNat 32 (p.mode.toNat / 65536 * 65536 + o.k.toNat)) = x := by
      rw [hx]
      unfold immK
      cases o.ext <;> rfl
    subst hx'
    exact setMode_frame hok
  · exact ⟨_, issue_ready (.setmodeh o) s t p g _ hr, hx ▸ setMode_frame (hx ▸ hok)⟩

end Sys2Proof.Machine
end

section
/-!
PROOFS. A precise trap that is taken (R353, R356): what flushing parked accesses and discarding speculation leave of the teams, the
team that enters its handler, and a trap that an instruction raises.
-/
namespace Sys2Proof.Machine

/-! ### What a trap's entry reads of a team -/

/-- What shows a split in a trap record. -/
def Split.face (p : Split) : Nat × LaneMask × Word × Nat := (p.uid, p.own, p.mode, p.slot)

/-- A team without its registers, its accesses and the state of its splits. -/
structure TeamFace where
  id : Nat
  present : LaneMask
  trapv : Word
  sstatHi : Word
  priv : List (Nat × Byte)
  splits : List (Nat × LaneMask × Word × Nat)
  deferred : List (Nat × LaneMask × Word × Nat)
  handler : Option (Nat × LaneMask × Word × Nat)

def Team.face (t : Team) : TeamFace :=
  { id := t.id, present := t.present, trapv := t.trapv, sstatHi := t.sstatHi, priv := t.priv, splits := t.splits.map Split.face,
    deferred := t.deferred.map Split.face, handler := t.handler.map Split.face }

variable {s u v : State} {t y : Team} {p f : Split} {g : Group} {i : Instr} {tid uid : Nat}

theorem Team.modSplit_face (t : Team) (uid : Nat) {f : Split → Split} (hf : ∀ p, (f p).face = p.face) :
    (t.modSplit uid f).face = t.face := by
  have h : (Split.face ∘ fun p => if p.uid = uid then f p else p) = Split.face := by
    funext p
    dsimp only [Function.comp]
    split
    · exact hf p
    · rfl
  simp only [Team.face, Team.modSplit, List.map_map, Option.map_map, h]

@[simp] theorem Team.writeOn_face (t : Team) (owner ew : Nat) (f : RFile) (r : Nat) (bits : LaneMask) (vals : List (Nat × Nat)) :
    (t.writeOn owner ew f r bits vals).face = t.face := by
  have h : ((t.put f r vals).markWritten f r).face = t.face := by cases f <;> rfl
  unfold Team.writeOn
  split
  · rfl
  · dsimp only
    repeat' split
    all_goals exact h

@[simp] theorem Team.land_face (t : Team) (tok owner : Nat) (f : RFile) (r : Nat) (vals : List (Nat × Nat)) (path : Option Nat) :
    (t.land tok owner f r vals path).face = t.face := by
  unfold Team.land
  extract_lets bits up olds t₁ t₂ before
  have h : t₂.face = t.face := t₁.writeOn_face ..
  split <;> exact h

@[simp] theorem Team.mark_face (t : Team) (marks : List (RFile × Nat × Nat)) : (t.mark marks).face = t.face := by
  unfold Team.mark
  split <;> rfl

@[simp] theorem Team.deliver_face (t : Team) (tok : Nat) (f : RFile) (vals : List (Nat × List (Nat × Nat))) (path : Option Nat) :
    (t.deliver tok f vals path).face = t.face := by
  unfold Team.deliver
  exact foldl_keeps _ Team.face (fun x c => x.land_face ..) vals t

theorem Team.face_split? (h : y.face = t.face) (uid : Nat) : (y.split? uid).map Split.face = (t.split? uid).map Split.face := by
  simp only [Team.face, TeamFace.mk.injEq] at h
  obtain ⟨-, -, -, -, -, hs, hd, hh⟩ := h
  refine find?_outline Split.face (fun q => decide (q.1 = uid)) ?_
  simp only [List.map_append, hs, hd, ← Option.toList_map, hh]

theorem Team.face_owned (h : y.face = t.face) : y.owned = t.owned := by
  have e : ∀ x : Team, x.owned = (x.live.map Split.face).foldl (fun a q => a ||| q.2.1) 0 := fun x => by
    rw [List.foldl_map]; rfl
  simp only [Team.face, TeamFace.mk.injEq] at h
  obtain ⟨-, -, -, -, -, hs, hd, -⟩ := h
  rw [e, e, Team.live, Team.live, List.map_append, List.map_append, hs, hd]

theorem Team.face_deferred (h : y.face = t.face) (uid : Nat) :
    (y.deferred.any fun q => decide (q.uid = uid)) = t.deferred.any fun q => decide (q.uid = uid) := by
  have e : ∀ l : List Split, (l.any fun q => decide (q.uid = uid)) = (l.map Split.face).any fun q => decide (q.1 = uid) :=
    fun l => by rw [List.any_map]; rfl
  rw [e, e, show y.deferred.map Split.face = t.deferred.map Split.face from congrArg TeamFace.deferred h]

/-! ### What changes no face and no byte -/

/-- Two states have the same teams on the face of it, and the same bytes. -/
def SameFaces (s u : State) : Prop :=
  u.teams.map Team.face = s.teams.map Team.face ∧ u.mem = s.mem ∧ u.loft = s.loft ∧ u.groups = s.groups

theorem SameFaces.refl (s : State) : SameFaces s s := ⟨rfl, rfl, rfl, rfl⟩
theorem SameFaces.trans (h : SameFaces s u) (h' : SameFaces u v) : SameFaces s v :=
  ⟨h'.1.trans h.1, h'.2.1.trans h.2.1, h'.2.2.1.trans h.2.2.1, h'.2.2.2.trans h.2.2.2⟩

theorem SameFaces.team? (h : SameFaces s u) (tid : Nat) : (u.team? tid).map Team.face = (s.team? tid).map Team.face :=
  find?_outline Team.face (fun o => decide (o.id = tid)) h.1

/-- The same name finds a team with the same face. -/
theorem SameFaces.team (h : SameFaces s u) (ht : s.team? tid = some t) : ∃ y, u.team? tid = some y ∧ y.face = t.face := by
  have e := h.team? tid
  rw [ht, Option.map_some, Option.map_eq_some_iff] at e
  exact e

theorem SameFaces.rdByte (h : SameFaces s u) (sp : Space) (a : Nat) : u.rdByte sp a = s.rdByte sp a := by
  obtain ⟨hm, hl, hg⟩ := h.2
  cases sp with
  | glob => simp only [State.rdByte, hm]
  | loft => simp only [State.rdByte, hl]
  | win k => simp only [State.rdByte, State.group?, hg]
  | priv k =>
    have e : ∀ w : State, w.rdByte (.priv k) a = (((w.team? k).map Team.face).map fun o => sget 0 o.priv a).getD 0 := by
      intro w
      simp only [State.rdByte]
      cases w.team? k <;> rfl
    rw [e, e, h.team? k]

theorem SameFaces.modTeam (h : SameFaces s u) (id : Nat) {f : Team → Team} (hf : ∀ x, (f x).face = x.face) :
    SameFaces s (u.modTeam id f) := by
  refine ⟨?_, h.2⟩
  rw [← h.1, State.modTeam_teams, List.map_map]
  refine List.map_congr_left fun x _ => ?_
  dsimp only [Function.comp]
  split
  · exact hf x
  · rfl

theorem SameFaces.modSplit (h : SameFaces s u) (tid uid : Nat) {f : Split → Split} (hf : ∀ q, (f q).face = q.face) :
    SameFaces s (u.modSplit tid uid f) := h.modTeam tid fun x => x.modSplit_face uid hf

theorem SameFaces.flushParked (h : SameFaces s u) (tid : Nat) : SameFaces s (u.flushParked tid) := by
  refine foldl_holds _ (SameFaces s) (fun w f hw => ?_) _ _ h
  split
  · exact hw
  · refine hw.modTeam tid fun x => ?_
    rw [Team.mark_face]
    exact foldl_keeps _ Team.face (fun x c => x.land_face ..) _ x

theorem SameFaces.endFlight (h : SameFaces s u) (f : Flight) : SameFaces s (u.endFlight f) := by
  unfold State.endFlight
  dsimp only
  split
  · exact h
  · refine h.modTeam _ fun x => ?_
    rw [Team.mark_face, Team.deliver_face]

theorem SameFaces.abandonFlight (h : SameFaces s u) (fid : Nat) : SameFaces s (u.abandonFlight fid) := by
  unfold State.abandonFlight
  split
  · exact h
  next f _ =>
    have hf : SameFaces s (u.modFlight fid fun _ => f.unparked) := h
    dsimp only
    split
    · exact hf.endFlight _
    · exact h

theorem SameFaces.discardFence (h : SameFaces s u) (tid uid : Nat) : SameFaces s (u.discardFence tid uid) := by
  unfold State.discardFence
  split
  · exact h
  split
  · exact h
  split
  · exact h
  · extract_lets s₁ s₂
    have h₁ : SameFaces s s₁ := h
    have h₂ : SameFaces s s₂ := by
      unfold s₂
      split
      · exact h₁.abandonFlight _
      · exact h₁
    exact h₂.modSplit _ _ fun q => rfl

theorem SameFaces.leaveQueues (h : SameFaces s u) (tid : Nat) (tokens : Bool) : SameFaces s (u.leaveQueues tid tokens) := h

theorem issueState_sameFaces (i : Instr) (s : State) (t : Team) (p : Split) : SameFaces s (issueState i s t p) := by
  refine (SameFaces.refl s).modTeam t.id (f := (·.begins i p.uid)) fun x => ?_
  have hs : (if isMarked i then x.settle p.uid else x).face = x.face := by
    split
    · unfold Team.settle
      split
      · rfl
      · split <;> rfl
    · rfl
  rw [Team.begins, Team.modSplit_face _ _ (by intro; rfl)]
  exact hs

end Sys2Proof.Machine
end

section
/-!
PROOFS. A trap that an instruction raises at its own effect is taken (R353, R356).
-/
namespace Sys2Proof.Machine

variable {s u : State} {t y : Team} {p f : Split} {g : Group} {i : Instr} {tid uid code detail : Nat} {lanes : LaneMask} {skip : Bool}
variable {epc : Word}

/-! ### What is left alone where nothing is cut short -/

theorem State.flushParked_same (h : ∀ f ∈ s.flights, f.team = tid → f.parked = false) : s.flushParked tid = s := by
  have e : (s.flights.filter fun f => decide (f.team = tid) && f.onlyParked && !f.returned && !f.kind.whole) = [] := by
    refine List.filter_eq_nil_iff.2 fun f hf => ?_
    by_cases hft : f.team = tid
    · simp [Flight.onlyParked, h f hf hft]
    · simp [hft]
  unfold State.flushParked
  rw [e]
  rfl

theorem State.discardFence_same (ht : s.team? tid = some t) (hp : ∀ q, t.split? uid = some q → q.fence = none) :
    s.discardFence tid uid = s := by
  unfold State.discardFence
  rw [ht, Option.bind_some]
  split
  · rfl
  next q hq =>
  rw [hp q hq]

/-! ### The entry into the handler -/

/-- The state in which a trap of a team enters its handler: its other splits have given up their speculation, and it has left its
queues. -/
def State.readyToTrap (s : State) (tid uid : Nat) (t : Team) : State :=
  let u := t.live.foldl (fun s p => if p.uid = uid then s else s.discardFence tid p.uid) s
  (u.leaveQueues tid (!(u.cellWork t))).fresh.2

theorem State.readyToTrap_sameFaces (s : State) (tid uid : Nat) (t : Team) : SameFaces s (s.readyToTrap tid uid t) := by
  refine foldl_holds _ (SameFaces s) (fun w q hw => ?_) _ _ (.refl s)
  split
  · exact hw
  · exact hw.discardFence ..

/-- With no speculation of another split to give up, the team is the same. -/
theorem State.readyToTrap_team (ht : s.team? tid = some t) (hq : ∀ q ∈ t.live, q.uid ≠ uid → ∀ r, t.split? q.uid = some r → r.fence = none) :
    (s.readyToTrap tid uid t).team? tid = some t := by
  have e : ∀ l : List Split, (∀ q ∈ l, q ∈ t.live) →
      l.foldl (fun s p => if p.uid = uid then s else s.discardFence tid p.uid) s = s := by
    intro l
    induction l with
    | nil => intro _; rfl
    | cons q l ih =>
      intro hl
      have hs : (if q.uid = uid then s else s.discardFence tid q.uid) = s := by
        split
        · rfl
        · exact State.discardFence_same ht (hq q (hl q List.mem_cons_self) ‹_›)
      rw [List.foldl_cons, hs]
      exact ih fun r hr => hl r (List.mem_cons_of_mem _ hr)
  unfold State.readyToTrap
  rw [e _ fun _ h => h]
  exact ht

theorem State.takeTrap_eq (ht : s.team? tid = some t) (hp : t.split? uid = some p) (hd : t.depth ≤ 1) :
    ∃ new, s.takeTrap tid uid code detail lanes skip epc false = (s.readyToTrap tid uid t).modTeam tid fun x =>
      x.enterHandler p ((s.readyToTrap tid uid t).shownSlot x p) code detail lanes skip epc new := by
  unfold State.takeTrap
  simp only [ht, hp, show ¬ 2 ≤ t.depth by omega, if_false]
  exact ⟨_, rfl⟩

/-- What the team is that has entered its handler. -/
theorem Team.enterHandler_face {slot new : Nat} (hy : y.face = t.face) (hf : f.face = p.face) (hs : slot = p.slot) :
    let x := y.enterHandler f slot code detail lanes skip epc new
    ∃ h, x.handler = some h ∧ x.cause = BitVec.ofNat 32 (detail % 65536 * 65536 + code) ∧ x.epc = epc ∧ x.sstatLo = p.mode ∧
      x.sstatHi = BitVec.ofNat 32 ((t.depth + 1) * 16 + (if skip then 8 else 0) + (if t.depth = 1 then 0 else p.slot)) ∧
      sget 0 x.m 15 = lanes &&& t.present ∧ h.pc = t.trapv ∧ h.mode = 0 ∧ h.own = t.owned ∧ h.exec = t.owned := by
  intro x
  have hown := Team.face_owned hy
  have hdepth : y.depth = t.depth := by
    unfold Team.depth
    rw [show y.sstatHi = t.sstatHi from congrArg TeamFace.sstatHi hy]
  have hpres : y.present = t.present := congrArg TeamFace.present hy
  have htrapv : y.trapv = t.trapv := congrArg TeamFace.trapv hy
  have hmode : f.mode = p.mode := congrArg (fun q => q.2.2.1) hf
  refine ⟨_, rfl, rfl, rfl, hmode, ?_, ?_, htrapv, rfl, hown, hown⟩
  · simp only [x, Team.enterHandler, Team.markWritten, hdepth, hs, decide_eq_true_eq]
  · exact (sget_sset_same ..).trans (congrArg (lanes &&& ·) hpres)

/-- What the entry saves: m15 at depth 0, the depth-1 set at a nested entry. -/
theorem Team.enterHandler_saves (y : Team) (f : Split) (slot new : Nat) :
    (y.depth = 0 → (y.enterHandler f slot code detail lanes skip epc new).m15save = sget 0 y.m 15) ∧
    (y.depth = 1 → (y.enterHandler f slot code detail lanes skip epc new).saved1 =
      some ⟨y.cause, y.epc, y.sstatLo, y.sstatHi, sget 0 y.m 15⟩) := by
  refine ⟨fun h => ?_, fun h => ?_⟩ <;> simp only [Team.enterHandler, Team.markWritten, h, Team.settleAll] <;> rfl

/-! ### The trap of an instruction -/

/-- Beside the split, issuing changes of a team only which reads are ordered behind its writes. -/
theorem Team.begins_eq (t : Team) (i : Instr) (uid : Nat) : ∃ l, t.begins i uid =
    ({ t with unset := l } : Team).modSplit uid fun q => { q with exempt := false, landCheck := false } := by
  unfold Team.begins Team.settle
  repeat' split
  all_goals exact ⟨_, rfl⟩

/-- The state in which an instruction raises its trap: what is done is written, and no load is kept for a replay. -/
def raiseState (i : Instr) (s : State) (t : Team) (p : Split) : State :=
  ((issueState i s t p).flushParked t.id).modSplit t.id p.uid fun q => { q with caps := [] }

theorem raiseState_sameFaces (i : Instr) (s : State) (t : Team) (p : Split) : SameFaces s (raiseState i s t p) :=
  ((issueState_sameFaces i s t p).flushParked _).modSplit _ _ fun _ => rfl

/-- The team of an instruction that issues. -/
theorem issueState_team (i : Instr) (p : Split) (ht : s.team? t.id = some t) :
    (issueState i s t p).team? t.id = some (t.begins i p.uid) := by
  have h := s.modTeam_find t.id (·.begins i p.uid) fun x => x.begins_id i p.uid
  rw [ht] at h
  exact h

theorem Team.begins_split? (i : Instr) (hp : t.split? uid = some p) :
    (t.begins i uid).split? uid = some { p with exempt := false, landCheck := false } := by
  obtain ⟨l, e⟩ := t.begins_eq i uid
  have hl : ({ t with unset := l } : Team).split? uid = some p := hp
  rw [e, Team.modSplit_find _ _ _ (by intro; rfl), hl, Option.map_some]

/-- Nothing stands before the trap. -/
theorem raise_issueState (h : Ready i s t p g) (hc : CanTrap s t p g code) :
    (issueState i s t p).raise t.id p.uid code detail lanes skip epc =
      some ((raiseState i s t p).takeTrap t.id p.uid code detail lanes skip epc false) := by
  obtain ⟨⟨-, ht, hp, hg, -⟩, -⟩ := h
  obtain ⟨hout, hfence, -, hdbg⟩ := hc
  have hg' : (issueState i s t p).group? (t.begins i p.uid).group = some g := by
    obtain ⟨l, e⟩ := t.begins_eq i p.uid
    rw [e]; exact hg
  have hout' : (issueState i s t p).outstanding (t.begins i p.uid) = false := by
    obtain ⟨l, e⟩ := t.begins_eq i p.uid
    rw [e]; exact hout
  have hstop : (decide (159 ≤ code ∧ code ≤ 161) && (issueState i s t p).dbg.haltdbg &&
      decide ((issueState i s t p).dbg.asid = g.asid)) = false := by
    have hd : (issueState i s t p).dbg = s.dbg := rfl
    rw [hd]
    rcases hdbg with h | h | h | h
    · simp [show ¬ 159 ≤ code by omega]
    · simp [show ¬ code ≤ 161 by omega]
    · simp [h]
    · simp [h]
  unfold State.raise
  simp only [issueState_team i p ht, Team.begins_split? i hp, hg', hout', hfence, hstop, raiseState]
  simp

/-- The team that the trap finds is the one that issued, where nothing of it is cut short. -/
theorem raiseState_team (i : Instr) (p : Split) (ht : s.team? t.id = some t)
    (hf : ∀ f ∈ s.flights, f.team = t.id → f.parked = false) :
    (raiseState i s t p).team? t.id = some ((t.begins i p.uid).modSplit p.uid fun q => { q with caps := [] }) := by
  unfold raiseState
  rw [State.flushParked_same (s := issueState i s t p) hf]
  have h := (issueState i s t p).modTeam_find t.id (fun x => x.modSplit p.uid fun q => { q with caps := [] }) fun _ => rfl
  rw [issueState_team i p ht] at h
  exact h

end Sys2Proof.Machine
end

section
/-!
PROOFS. The trap that an instruction raises, as `TakesTrap` puts it.
-/
namespace Sys2Proof.Machine

variable {s u : State} {t : Team} {p : Split} {g : Group} {i : Instr} {code detail : Nat} {lanes : LaneMask} {skip : Bool}

/-! ### Booking -/

/-- Whatever an instruction charges, its passes change no team but as `State.account_team` says, and no byte. -/
theorem State.book_team (s : State) (c : Ctx) (n k : Nat) : (s.book c n).team? k = (s.account c).team? k := by
  unfold State.account State.book
  split <;> rfl

theorem State.book_rdByte (s : State) (c : Ctx) (n : Nat) (sp : Space) (a : Nat) : (s.book c n).rdByte sp a = s.rdByte sp a := by
  rw [← s.account_rdByte c sp a]
  unfold State.account State.book
  split
  · rfl
  · cases sp <;> rfl

/-- Booking passes undoes no trap. -/
theorem TakesTrap.book {epc : Word} (h : TakesTrap s u t p code detail lanes skip epc) (c : Ctx) (n : Nat) :
    TakesTrap s (u.book c n) t p code detail lanes skip epc := by
  obtain ⟨⟨x, hd, hx, hrest⟩, hb⟩ := h
  refine ⟨?_, fun sp a => (u.book_rdByte c n sp a).trans (hb sp a)⟩
  rw [State.book_team, State.account_team, hx, Option.map_some]
  split
  · exact ⟨_, hd, rfl, hrest⟩
  · exact ⟨_, hd, rfl, hrest⟩

/-! ### The trap -/

/-- A handler split is the one that issues, so no other split is called as it is. -/
theorem Team.split?_live_fence (h : ∀ q, t.handler = some q → q.uid = p.uid) (hf : ∀ q ∈ t.live, q.fence = none) {uid : Nat}
    (hu : uid ≠ p.uid) {q : Split} (hq : t.split? uid = some q) : q.fence = none := by
  have hm : q ∈ t.handler.toList ++ t.splits ++ t.deferred := List.mem_of_find?_eq_some hq
  have hid : q.uid = uid := Team.split?_uid hq
  rw [List.append_assoc, List.mem_append] at hm
  rcases hm with hm | hm
  · exact absurd ((h q (by simpa using hm)).symm.trans hid) (Ne.symm hu)
  · exact hf q hm

/-- A split's update does not reach what another name finds. -/
theorem Team.modSplit_find_other (t : Team) {uid k : Nat} (f : Split → Split) (hf : ∀ p, (f p).uid = p.uid) (hk : k ≠ uid) :
    (t.modSplit uid f).split? k = t.split? k := by
  have h := find_map_other Split.uid uid k f hf hk (t.handler.toList ++ t.splits ++ t.deferred)
  unfold Team.split? Team.modSplit
  rw [← h]
  cases t.handler <;> simp

/-- A split that may issue is not deferred, and is the handler split where there is one. -/
theorem State.issuable_split (hi : s.issuable t p = true) :
    (t.deferred.any fun q => decide (q.uid = p.uid)) = false ∧ ∀ q, t.handler = some q → q.uid = p.uid := by
  simp only [State.issuable, Bool.and_eq_true, Bool.not_eq_true'] at hi
  obtain ⟨⟨-, hd⟩, hh⟩ := hi
  refine ⟨hd, fun q hq => ?_⟩
  simpa only [hq, decide_eq_true_eq] using hh

/-- Where nothing of the team is cut short, its mask registers and its trap registers come to the entry as they were. -/
theorem readyToTrap_sameTeam {t₁ y : Team} (ht : s.team? t.id = some t) (hh : ∀ q, t.handler = some q → q.uid = p.uid)
    (hpark : ∀ f ∈ s.flights, f.team = t.id → f.parked = false) (hfence : ∀ q ∈ t.live, q.fence = none)
    (ht₁ : (raiseState i s t p).team? t.id = some t₁)
    (hy : ((raiseState i s t p).readyToTrap t.id p.uid t₁).team? t.id = some y) :
    y.m = t.m ∧ y.cause = t.cause ∧ y.epc = t.epc ∧ y.sstatLo = t.sstatLo ∧ y.sstatHi = t.sstatHi := by
  obtain ⟨l, el⟩ := t.begins_eq i p.uid
  have hteam := raiseState_team i p ht hpark
  rw [ht₁, Option.some.injEq] at hteam
  have hother : ∀ uid, uid ≠ p.uid → t₁.split? uid = t.split? uid := by
    intro uid hn
    rw [hteam, el, Team.modSplit_find_other _ _ (by intro; rfl) hn, Team.modSplit_find_other _ _ (by intro; rfl) hn]
    rfl
  have hsame := State.readyToTrap_team (uid := p.uid) ht₁ fun q _ hn r hr =>
    Team.split?_live_fence hh hfence hn (hother _ hn ▸ hr)
  rw [hy, Option.some.injEq] at hsame
  rw [hsame, hteam, el]
  exact ⟨rfl, rfl, rfl, rfl, rfl⟩

/-- A precise trap of a ready instruction, as it is entered. -/
theorem takesTrap_of_ready (h : Ready i s t p g) (hc : CanTrap s t p g code) :
    TakesTrap s ((raiseState i s t p).takeTrap t.id p.uid code detail lanes skip p.pc false) t p code detail lanes skip p.pc := by
  obtain ⟨⟨-, ht, hp, -, hi, -⟩, -⟩ := h
  obtain ⟨-, -, hd, -⟩ := hc
  obtain ⟨hdef, hhandler⟩ := State.issuable_split hi
  have hraise := raiseState_sameFaces i s t p
  obtain ⟨t₁, ht₁, hf₁⟩ := hraise.team ht
  have hp₁ := Team.face_split? hf₁ p.uid
  rw [hp, Option.map_some, Option.map_eq_some_iff] at hp₁
  obtain ⟨p₁, hp₁, hfp⟩ := hp₁
  have hd₁ : t₁.depth ≤ 1 := by
    rwa [Team.depth, show t₁.sstatHi = t.sstatHi from congrArg TeamFace.sstatHi hf₁]
  obtain ⟨new, e⟩ := State.takeTrap_eq (code := code) (detail := detail) (lanes := lanes) (skip := skip) (epc := p.pc) ht₁ hp₁ hd₁
  have hready := hraise.trans ((raiseState i s t p).readyToTrap_sameFaces t.id p.uid t₁)
  obtain ⟨y, hy, hfy⟩ := hready.team ht
  have hsame := fun hpark hfence => readyToTrap_sameTeam ht hhandler hpark hfence ht₁ hy
  generalize (raiseState i s t p).readyToTrap t.id p.uid t₁ = w at e hready hy
  have hslot : w.shownSlot y p₁ = p.slot := by
    unfold State.shownSlot
    rw [show p₁.uid = p.uid from congrArg (·.1) hfp, Team.face_deferred hfy, hdef]
    exact congrArg (·.2.2.2) hfp
  have hu := w.modTeam_find t.id (fun x => x.enterHandler p₁ (w.shownSlot x p₁) code detail lanes skip p.pc new) fun _ => rfl
  rw [hy, Option.map_some] at hu
  obtain ⟨hd', h1, h2, h3, h4, h5, h6, h7, h8, h9, h10⟩ :=
    Team.enterHandler_face (code := code) (detail := detail) (lanes := lanes) (skip := skip) (epc := p.pc) (new := new) hfy hfp hslot
  rw [e]
  refine ⟨⟨_, hd', hu, h1, h2, h3, h4, h5, h6, h7, h8, h9, h10, fun hpark hfence => ?_⟩, fun sp a => ?_⟩
  · obtain ⟨hm, hcause, hepc, hlo, hhi⟩ := hsame hpark hfence
    have hsaves := Team.enterHandler_saves (code := code) (detail := detail) (lanes := lanes) (skip := skip) (epc := p.pc) y p₁
      (w.shownSlot y p₁) new
    rwa [hm, hcause, hepc, hlo, hhi, show y.depth = t.depth by rw [Team.depth, hhi, Team.depth]] at hsaves
  · refine (w.rdByte_modTeam t.id _ ?_ ?_ sp a).trans (hready.rdByte sp a)
    · intro; rfl
    · intro; rfl

/-- A trap that a ready instruction raises at its own effect is taken. -/
theorem takesTrap_finish (h : Ready i s t p g) (hc : CanTrap s t p g code) (detail : Nat) (lanes : LaneMask) (skip : Bool) :
    TakesTrap s (finish s (issueCtx i s t p g) (.trap (issueState i s t p) code detail lanes skip)) t p code detail lanes skip p.pc := by
  have ht := takesTrap_of_ready (detail := detail) (lanes := lanes) (skip := skip) h hc
  unfold finish
  simp only [issueCtx_tid, issueCtx_uid, issueCtx_sp, raise_issueState h hc]
  split
  · exact ht.book ..
  · exact ht.book ..

end Sys2Proof.Machine
end

section
/-!
PROOFS. The obligation on SREAD and SWRITE.
-/
namespace Sys2Proof.Machine

variable {s u v : State} {t : Team} {p : Split} {g : Group} {i : Instr} {c : Ctx} {tid : Nat}

/-! ### Register results -/

@[simp] theorem Team.write_still (t : Team) (owner ew : Nat) (f : RFile) (r : Nat) (vals : List (Nat × Nat)) :
    (t.write owner ew f r vals).still = t.still := by
  have hw : ∀ q : Region, ({ (if q.written.contains (f, r) then q else { q with written := q.written ++ [(f, r)] }) with written := [] } : Region) =
      { q with written := [] } := by
    intro q
    split <;> rfl
  have h : ((t.put f r vals).markWritten f r).still = t.still := by
    have hr : (((t.put f r vals).markWritten f r).region.map fun q => ({ q with written := [] } : Region)) =
        t.region.map fun q => { q with written := [] } := by
      cases f <;> simp only [Team.markWritten, Team.put, Option.map_map, Function.comp_def, hw]
    unfold Team.still
    rw [hr]
    cases f <;> rfl
  unfold Team.write Team.writeOn
  split
  · rfl
  · dsimp only
    repeat' split
    all_goals exact h

@[simp] theorem Team.write_id (t : Team) (owner ew : Nat) (f : RFile) (r : Nat) (vals : List (Nat × Nat)) :
    (t.write owner ew f r vals).id = t.id := congrArg TeamFace.id (t.writeOn_face ..)
@[simp] theorem Team.write_priv (t : Team) (owner ew : Nat) (f : RFile) (r : Nat) (vals : List (Nat × Nat)) :
    (t.write owner ew f r vals).priv = t.priv := congrArg TeamFace.priv (t.writeOn_face ..)

/-- A v or g field is a register of its file. -/
theorem State.wrField_eq (s : State) (c : Ctx) (x ew : Nat) (vals : List (Nat × Nat)) :
    s.wrField c x ew vals = s.modTeam c.tid fun t => t.write c.uid ew (fieldReg x).1 (fieldReg x).2 vals := by
  unfold State.wrField fieldReg
  split <;> rfl

/-- Beside its own register a result changes nothing. -/
theorem Frame.wrField {eff : Team → Team} {x ew : Nat} {vals : List (Nat × Nat)} (hc : c.tid = tid) (h : Frame s v tid [] eff) :
    Frame s (v.wrField c x ew vals) tid [fieldReg x] eff := by
  obtain ⟨hb, hr, hs⟩ := h
  rw [State.wrField_eq, hc]
  refine ⟨fun sp a => ?_, fun id f r l hd => ?_, ?_⟩
  · refine (v.rdByte_modTeam tid _ ?_ ?_ sp a).trans (hb sp a)
    · intro y; exact y.write_id ..
    · intro y; exact y.write_priv ..
  · refine (v.reg_modTeam tid (fun y => y.write_id ..) ?_).trans (hr id f r l (.inr (List.not_mem_nil)))
    refine hd.imp_right fun hn y _ => y.raw_write_other _ _ _ _ _ _ _ _ (.inl ?_)
    exact fun e => hn (e ▸ List.mem_singleton_self _)
  · rw [v.still_modTeam_same tid fun y => y.write_still .., hs]

/-- R28: what a register result leaves in its field, in the lanes that compute. -/
theorem State.field_wrField {d : Byte} {val l : Nat} (hc : c.tid = tid) (ht : s.team? tid = some t) (hl : l ∈ c.computing d) :
    (s.wrField c d.toNat 32 ((c.computing d).map fun l => (l, val))).field tid d.toNat l = val % 2 ^ 32 := by
  have hu := s.modTeam_find tid (fun t => t.write c.uid 32 (fieldReg d.toNat).1 (fieldReg d.toNat).2 ((c.computing d).map fun l => (l, val)))
    fun y => y.write_id ..
  rw [ht, Option.map_some] at hu
  unfold State.field State.reg
  rw [State.wrField_eq, hc, hu]
  unfold Ctx.computing at hl ⊢
  by_cases hd : d.toNat < 192
  · simp only [hd, if_true, fieldReg] at hl ⊢
    have hlt : l < 1024 := by
      have hb := (List.mem_filter.1 hl).2
      exact BitVec.lt_of_getLsbD hb
    refine Team.raw_write_v _ _ _ _ _ _ _ hlt (List.mem_map_of_mem hl) ?_
    rw [List.map_map]
    exact (List.nodup_range.filter _).map fun _ _ e => e
  · simp only [hd, if_false, fieldReg, List.map_cons, List.map_nil]
    exact Team.raw_write_g ..

/-! ### SREAD -/

/-- R48: the high words that a split has latched, after it has read a special register. -/
def Split.latched (idx : Nat) (hi : Nat → Option Word) (q : Split) : Split :=
  { q with latCycle := if idx = 0x06 then hi 0x07 else if idx = 0x07 then none else q.latCycle
           latTime := if idx = 0x08 then hi 0x09 else if idx = 0x09 then none else q.latTime
           latPsig := if idx = 0x16 then hi 0x17 else if idx = 0x17 then none else q.latPsig }

theorem State.latch_eq (s : State) (c : Ctx) (idx : Nat) :
    s.latch c idx = s.modSplit c.tid c.uid (Split.latched idx fun k => some (BitVec.ofNat 32 (s.special c k))) := by
  unfold State.latch
  extract_lets hi
  refine congrArg (s.modSplit c.tid c.uid) (funext fun q => ?_)
  unfold Split.latched
  split
  case h_7 h1 h2 h3 h4 h5 h6 => rw [if_neg h1, if_neg h2, if_neg h3, if_neg h4, if_neg h5, if_neg h6]
  all_goals rfl

theorem State.sreadValue_eq (s : State) (c : Ctx) (idx : Nat) :
    s.sreadValue c idx = match idx, c.sp.latCycle, c.sp.latTime, c.sp.latPsig with
      | 0x07, some w, _, _ => w.toNat
      | 0x09, _, some w, _ => w.toNat
      | 0x17, _, _, some w => w.toNat
      | _, _, _, _ => s.special c idx := by
  unfold State.sreadValue
  split
  · cases c.sp.latCycle <;> rfl
  · cases c.sp.latTime <;> rfl
  · cases c.sp.latPsig <;> rfl
  next h1 h2 h3 =>
    split
    · exact absurd rfl h1
    · exact absurd rfl h2
    · exact absurd rfl h3
    · rfl

/-! ### SWRITE -/

/-- R46, R48: the special registers of a team after a write that is accepted. -/
theorem Team.setSpecial_eq (t : Team) (idx : Nat) (x : Word) : t.setSpecial idx x = { t with
    rtimer := if idx = 0x0C then x else t.rtimer
    wdlLo := if idx = 0x0D then x else t.wdlLo
    wdl := if idx = 0x0E then x.toNat * 2 ^ 32 + t.wdlLo.toNat else t.wdl
    cause := if idx = 0x0F then x else t.cause
    epc := if idx = 0x10 then x else t.epc
    sstatLo := if idx = 0x11 then x else t.sstatLo
    sstatHi := if idx = 0x12 then x else t.sstatHi
    sticky := if idx = 0x18 then (((t.sticky &&& ~~~x) ||| t.raised) &&& 0x33F) ||| (x &&& 0x1F0000) else t.sticky } := by
  unfold Team.setSpecial
  split
  case h_9 h1 h2 h3 h4 h5 h6 h7 h8 =>
    rw [if_neg h1, if_neg h2, if_neg h3, if_neg h4, if_neg h5, if_neg h6, if_neg h7, if_neg h8]
  all_goals rfl

/-- The split goes on behind an instruction, and keeps no load for a replay. -/
def Split.goneOn (len : Nat) (q : Split) : Split :=
  { q with pc := q.pc + BitVec.ofNat 32 len, st := .ready, busy := none, caps := [] }

/-- The team that an instruction of the effect `f` on it leaves when it completes. -/
theorem finish_done_team (i : Instr) (p : Split) (g : Group) (ht : s.team? t.id = some t) {f : Team → Team}
    (hf : ∀ x, (f x).id = x.id) :
    ∃ k, (finish s (issueCtx i s t p g) (.done ((issueState i s t p).modTeam t.id f))).team? t.id =
      some { (f (t.begins i p.uid)).modSplit p.uid (Split.goneOn (issueCtx i s t p g).len) with lastSlot := k } := by
  have h := (issueState i s t p).modTeam_find t.id f hf
  rw [issueState_team i p ht, Option.map_some] at h
  have ha := ((issueState i s t p).modTeam t.id f).modTeam_find t.id
    (fun x => x.modSplit p.uid (Split.goneOn (issueCtx i s t p g).len)) fun _ => rfl
  rw [h, Option.map_some] at ha
  have hadv : (((issueState i s t p).modTeam t.id f).advance (issueCtx i s t p g)).team? t.id =
      some ((f (t.begins i p.uid)).modSplit p.uid (Split.goneOn (issueCtx i s t p g).len)) := by
    unfold State.advance State.modSplit
    rw [issueCtx_tid, issueCtx_uid]
    exact ha
  rw [finish_done, State.account_team, hadv, Option.map_some]
  split
  · exact ⟨_, rfl⟩
  · exact ⟨_, rfl⟩

/-- R46, R48: what SWRITE writes: MODE of the split, or a special register of the team. -/
def Team.swritten (idx uid : Nat) (x : Word) (t : Team) : Team :=
  if idx = 0 then t.modSplit uid fun q => { q with mode := x } else t.setSpecial idx x

theorem Team.swritten_id (t : Team) (idx uid : Nat) (x : Word) : (t.swritten idx uid x).id = t.id := by
  unfold Team.swritten
  split
  · rfl
  · rw [Team.setSpecial_eq]

theorem Team.swritten_priv (t : Team) (idx uid : Nat) (x : Word) : (t.swritten idx uid x).priv = t.priv := by
  unfold Team.swritten
  split
  · rfl
  · rw [Team.setSpecial_eq]

theorem Team.swritten_raw (t : Team) (idx uid : Nat) (x : Word) (f : RFile) (r l : Nat) :
    (t.swritten idx uid x).raw f r l = t.raw f r l := by
  unfold Team.swritten
  split
  · exact t.raw_modSplit ..
  · rw [Team.setSpecial_eq]
    cases f <;> rfl

/-- The special registers that it leaves. -/
theorem Team.swritten_specials (t : Team) (idx uid : Nat) (x : Word) :
    (t.swritten idx uid x).rtimer = (if idx = 0x0C then x else t.rtimer) ∧
    (t.swritten idx uid x).wdlLo = (if idx = 0x0D then x else t.wdlLo) ∧
    (t.swritten idx uid x).wdl = (if idx = 0x0E then x.toNat * 2 ^ 32 + t.wdlLo.toNat else t.wdl) ∧
    (t.swritten idx uid x).cause = (if idx = 0x0F then x else t.cause) ∧
    (t.swritten idx uid x).epc = (if idx = 0x10 then x else t.epc) ∧
    (t.swritten idx uid x).sstatLo = (if idx = 0x11 then x else t.sstatLo) ∧
    (t.swritten idx uid x).sstatHi = (if idx = 0x12 then x else t.sstatHi) ∧
    (t.swritten idx uid x).sticky =
      (if idx = 0x18 then (((t.sticky &&& ~~~x) ||| t.raised) &&& 0x33F) ||| (x &&& 0x1F0000) else t.sticky) ∧
    (t.swritten idx uid x).rcount = t.rcount ∧ (t.swritten idx uid x).regpc = t.regpc ∧
    (t.swritten idx uid x).trapv = t.trapv ∧ (t.swritten idx uid x).gran = t.gran ∧
    (t.swritten idx uid x).present = t.present := by
  unfold Team.swritten
  by_cases h : idx = 0
  · subst h
    exact ⟨rfl, rfl, rfl, rfl, rfl, rfl, rfl, rfl, rfl, rfl, rfl, rfl, rfl⟩
  · rw [if_neg h, Team.setSpecial_eq]
    exact ⟨rfl, rfl, rfl, rfl, rfl, rfl, rfl, rfl, rfl, rfl, rfl, rfl, rfl⟩

/-- MODE of the split that issues. -/
theorem Team.swritten_split? {idx uid : Nat} {x : Word} {q : Split} (hq : t.split? uid = some q) :
    ∃ r, (t.swritten idx uid x).split? uid = some r ∧ r.mode = if idx = 0 then x else q.mode := by
  unfold Team.swritten
  by_cases h : idx = 0
  · simp only [h, if_true]
    rw [Team.modSplit_find _ _ _ (by intro; rfl), hq]
    exact ⟨_, rfl, rfl⟩
  · simp only [h, if_false]
    rw [Team.setSpecial_eq]
    exact ⟨q, hq, rfl⟩

/-- R49: an SWRITE that is accepted. -/
theorem execSwrite_accepts {o : FE} (hr : Ready (.swrite o) s t p g)
    (hro : (BitVec.ofNat 32 ((issueCtx (.swrite o) s t p g).g o.a) ^^^
      BitVec.ofNat 32 ((issueState (.swrite o) s t p).special (issueCtx (.swrite o) s t p g) o.d.toNat)) &&&
      ~~~(BitVec.ofNat 32 (writable o.d.toNat)) = 0)
    (hm : o.d.toNat = 0 → modeReserved (BitVec.ofNat 32 ((issueCtx (.swrite o) s t p g).g o.a)) = false) :
    exec (.swrite o) s = .next (finish s (issueCtx (.swrite o) s t p g) (.done ((issueState (.swrite o) s t p).modTeam t.id
      (Team.swritten o.d.toNat p.uid (BitVec.ofNat 32 ((issueCtx (.swrite o) s t p g).g o.a)))))) := by
  refine (issue_ready (.swrite o) s t p g _ hr).trans ?_
  dsimp only
  rw [if_neg (by simp [hro]), issueCtx_tid, issueCtx_uid]
  by_cases h0 : o.d.toNat = 0
  · rw [if_pos h0, if_neg (by simp [hm h0])]
    have e : ∀ x : Word, Team.swritten o.d.toNat p.uid x = fun y => y.modSplit p.uid fun q => { q with mode := x } :=
      fun x => funext fun y => if_pos h0
    rw [e]
    rfl
  · rw [if_neg h0]
    have e : ∀ x : Word, Team.swritten o.d.toNat p.uid x = fun y => y.setSpecial o.d.toNat x := fun x => funext fun y => if_neg h0
    rw [e]

/-! ### The obligation -/

theorem finish_done_field (s : State) (c : Ctx) (v : State) (k x l : Nat) : (finish s c (.done v)).field k x l = v.field k x l := by
  unfold State.field
  rw [finish_done_reg, finish_done_reg]

/-- R46, R48: what SREAD gives and latches. -/
theorem sread_spec (o : FE) (hr : Ready (.sread o) s t p g) :
    let c := issueCtx (.sread o) s t p g
    let s₀ := issueState (.sread o) s t p
    ∃ u, exec (.sread o) s = .next u ∧
      (∀ l ∈ c.computing o.d, u.field t.id o.d.toNat l = s₀.sreadValue c o.a.toNat % 2 ^ 32) ∧
      Frame s u t.id [fieldReg o.d.toNat] fun x =>
        c.passes (x.modSplit p.uid (Split.latched o.a.toNat fun k => some (BitVec.ofNat 32 (s₀.special c k)))) := by
  intro c s₀
  have hc : c.tid = t.id := issueCtx_tid ..
  have he : exec (.sread o) s = .next (finish s c (.done ((s₀.latch c o.a.toNat).wrField c o.d.toNat 32
      ((c.computing o.d).map fun l => (l, s₀.sreadValue c o.a.toNat))))) := issue_ready (.sread o) s t p g _ hr
  rw [State.latch_eq, hc, show c.uid = p.uid from rfl] at he
  refine ⟨_, he, fun l hl => ?_, ?_⟩
  · have hteam := s₀.modTeam_find t.id (fun x => x.modSplit p.uid
      (Split.latched o.a.toNat fun k => some (BitVec.ofNat 32 (s₀.special c k)))) fun _ => rfl
    rw [issueState_team _ p hr.1.2.1, Option.map_some] at hteam
    rw [finish_done_field]
    exact State.field_wrField hc hteam hl
  · exact Frame.done hc (fun _ => rfl) (Frame.wrField hc (frame_modSplit _ s t p fun _ => rfl))

/-- Settles O23: SREAD writes its field and latches; an accepted SWRITE writes one special register; the others trap. -/
theorem specialRegisters : Obligations.SpecialRegisters := by
  refine ⟨fun o s t p g => ⟨fun hr => ?_, fun hr => ?_⟩, fun o s t p g hr => ?_⟩
  · obtain ⟨u, he, hv, hf⟩ := sread_spec o hr
    refine ⟨u, he, fun l hl => ?_, hf⟩
    rw [hv l hl, State.sreadValue_eq]
    rfl
  · intro c x hro hm
    have ht : s.team? t.id = some t := hr.1.2.1
    have hp : t.split? p.uid = some p := hr.1.2.2.1
    obtain ⟨k, hu⟩ := finish_done_team (.swrite o) p g ht fun y => y.swritten_id o.d.toNat p.uid x
    obtain ⟨l, el⟩ := t.begins_eq (.swrite o) p.uid
    obtain ⟨q, hq, hqm⟩ := Team.swritten_split? (idx := o.d.toNat) (x := x) (Team.begins_split? (.swrite o) hp)
    refine ⟨_, _, execSwrite_accepts hr hro hm, fun sp a => ?_, fun id f r l => ?_, hu, ?_, ?_⟩
    · rw [finish_done_rdByte]
      exact ((issueState (.swrite o) s t p).rdByte_modTeam t.id _ (fun y => y.swritten_id ..) (fun y => y.swritten_priv ..) sp a).trans
        (issueState_rdByte ..)
    · rw [finish_done_reg]
      exact ((issueState (.swrite o) s t p).reg_modTeam t.id (fun y => y.swritten_id ..) (.inr fun y _ => y.swritten_raw ..)).trans
        (issueState_reg ..)
    · have hq' := ((t.begins (.swrite o) p.uid).swritten o.d.toNat p.uid x).modSplit_find p.uid
        (Split.goneOn (issueCtx (.swrite o) s t p g).len) fun _ => rfl
      rw [hq, Option.map_some] at hq'
      exact ⟨_, hq', hqm⟩
    · have h := (t.begins (.swrite o) p.uid).swritten_specials o.d.toNat p.uid x
      rw [el] at h ⊢
      exact h
  · intro c x changes hc
    refine ⟨fun h => ?_, fun h h0 hx => ?_⟩
    · refine ⟨_, issue_ready (.swrite o) s t p g _ hr, ?_⟩
      dsimp only
      rw [if_pos h]
      exact takesTrap_finish hr hc ..
    · have hc' : CanTrap s t p g 14 := ⟨hc.1, hc.2.1, hc.2.2.1, .inl (by omega)⟩
      refine ⟨_, issue_ready (.swrite o) s t p g _ hr, ?_⟩
      dsimp only
      rw [if_neg h, if_pos h0, if_pos hx]
      exact takesTrap_finish hr hc' ..

end Sys2Proof.Machine
end

section
/-!
PROOFS. The obligation on levels, droop, gates, the ladder and the timers: first what a cycle of a core does to the core and to its
teams, then what the governor leaves.
-/
namespace Sys2Proof.Machine

variable {s : State} {k : Core} {t : Team} {core : Nat}

/-! ### A cycle of a core -/

/-- What a wake and the passes that issue leave alone. -/
def Core.pace (k : Core) : Nat × Nat × Droop × List Pass × List (Nat × Nat) × Nat := (k.id, k.cycle, k.droop, k.passes, k.charges, k.level)

@[simp] theorem Core.wakeBay_pace (k : Core) (quad : Nat) (need : Nat → Bool) : (k.wakeBay quad need).pace = k.pace := by
  unfold Core.wakeBay
  dsimp only
  split <;> rfl

/-- A fold that chooses between its value and the next element ends in one of them. -/
theorem foldl_choice_mem {α : Type} {f : α → α → α} (hf : ∀ a x, f a x = a ∨ f a x = x) (l : List α) (a : α) :
    l.foldl f a ∈ a :: l := by
  induction l generalizing a with
  | nil => exact List.mem_singleton_self a
  | cons x l ih =>
    rw [List.foldl_cons]
    rcases hf a x with h | h <;> rw [h]
    · exact List.cons_subset_cons a (List.subset_cons_self x l) (ih a)
    · exact List.mem_cons_of_mem a (ih x)

/-- Only a gated bay is woken. -/
theorem Core.wakeBay_gate (k : Core) (quad b : Nat) (need : Nat → Bool) (h : (sget {} k.bays b).gate ≠ .gated) :
    (sget {} (k.wakeBay quad need).bays b).gate = (sget {} k.bays b).gate := by
  unfold Core.wakeBay
  extract_lets bay mine waking
  split
  next x xs _ hx =>
    extract_lets y
    have hy : (sget {} k.bays y).gate = .gated := by
      have hm : y ∈ mine.filter fun b => decide ((bay b).gate = .gated) && need b := by
        rw [hx]
        refine foldl_choice_mem (fun a x => ?_) xs x
        split
        · exact .inr rfl
        · exact .inl rfl
      simpa using And.left (by simpa using (List.mem_filter.1 hm).2)
    rw [sget_sset, if_neg]
    rintro rfl
    exact h hy
  · rfl

@[simp] theorem Core.issuePass_gate (k : Core) (lcren : Bool) (p : Pass) (b : Nat) :
    (sget {} (k.issuePass lcren p).bays b).gate = (sget {} k.bays b).gate := by
  unfold Core.issuePass
  dsimp only
  rw [sget_sset]
  split
  next h => exact congrArg (fun i => (sget {} k.bays i).gate) h.symm
  · rfl

@[simp] theorem Core.sweep_gate (k : Core) (lcren : Bool) (held : Nat → Bool) (b : Nat) :
    (sget {} (k.sweep lcren held).bays b).gate = (sget {} k.bays b).gate := by
  unfold Core.sweep
  generalize List.range 16 = l
  refine foldl_keeps _ (fun c : Core => (sget {} c.bays b).gate) (fun c x => ?_) l k
  split
  next p _ =>
    split
    · exact c.issuePass_gate lcren p b
    · rfl
  · rfl

/-- What no pass that issues changes. -/
theorem Core.sweep_keeps (k : Core) (lcren : Bool) (held : Nat → Bool) :
    (k.sweep lcren held).id = k.id ∧ (k.sweep lcren held).cycle = k.cycle ∧ (k.sweep lcren held).droop = k.droop := by
  have h : ((k.sweep lcren held).id, (k.sweep lcren held).cycle, (k.sweep lcren held).droop) = (k.id, k.cycle, k.droop) := by
    unfold Core.sweep
    refine foldl_keeps _ (fun c : Core => (c.id, c.cycle, c.droop)) (fun c x => ?_) _ k
    split
    · split <;> rfl
    · rfl
  simpa only [Prod.mk.injEq] using h

/-- R292: with no synchronising instruction nothing issues at the start of a cycle. -/
theorem Core.sweep_none (k : Core) (lcren : Bool) (held : Nat → Bool) (h : ∀ p ∈ k.passes, p.sync = false) : k.sweep lcren held = k := by
  unfold Core.sweep
  refine foldl_holds _ (fun c => c = k) (fun c b hc => ?_) _ k rfl
  subst hc
  rw [List.find?_eq_none.2 fun p hp => by simp [h p hp]]

theorem sget_foldl_sset {α : Type} [DecidableEq α] (d : α) (f : Nat → α) (m : List (Nat × α)) (n i : Nat) :
    sget d ((List.range n).foldl (fun l b => sset d l b (f b)) m) i = if i < n then f i else sget d m i := by
  induction n with
  | zero => rfl
  | succ n ih =>
    rw [List.range_succ, List.foldl_append, List.foldl_cons, List.foldl_nil, sget_sset, ih]
    split
    next h => rw [h, if_pos (Nat.lt_succ_self n)]
    next h =>
      split
      · rw [if_pos (by omega)]
      · rw [if_neg (by omega)]

/-- R344: a cycle of a bay's gate. -/
def Gate.tick (g : Gate) : Gate := match g with | .waking k => if 1 < k then .waking (k - 1) else .awake | g => g

/-- What a cycle makes of a core. -/
structure Core.Ticked (k k' : Core) : Prop where
  id : k'.id = k.id
  cycle : k'.cycle = k.cycle + 1
  droop : k'.droop = k.droop.tick
  gate : ∀ b < 16, (sget {} k.bays b).gate.tick ≠ .gated → (sget {} k'.bays b).gate = (sget {} k.bays b).gate.tick
  charges : (∀ p ∈ k.passes, p.sync = false) → k'.charges = (if k.gridCharge = 0 then [] else [(k.cycle, k.gridCharge)]) ++
    k.charges.filter fun q => decide (k.cycle < q.1 + 256)

theorem Core.wakeBays_pace (k : Core) (need : Nat → Bool) (l : List Nat) :
    (l.foldl (fun (c : Core) q => c.wakeBay q need) k).pace = k.pace :=
  foldl_keeps _ Core.pace (fun c q => c.wakeBay_pace q need) l k

theorem Core.wakeBays_gate (k : Core) (need : Nat → Bool) (l : List Nat) (b : Nat) (h : (sget {} k.bays b).gate ≠ .gated) :
    (sget {} (l.foldl (fun (c : Core) q => c.wakeBay q need) k).bays b).gate = (sget {} k.bays b).gate :=
  foldl_holds _ (fun c : Core => (sget {} c.bays b).gate = (sget {} k.bays b).gate)
    (fun c q hc => (c.wakeBay_gate q b need (hc ▸ h)).trans hc) l k rfl

theorem State.cycleOn_core (s : State) (c : Nat) (hk : s.core? c = some k) :
    ∃ k', (s.cycleOn c).core? c = some k' ∧ k.Ticked k' := by
  unfold State.cycleOn
  extract_lets next
  have hnext : ∀ x : Core, x.Ticked (next x) := by
    intro x
    unfold next
    extract_lets l₁ c₁
    have hp := c₁.wakeBays_pace (s.bayWanted c) (List.range 4)
    have hg := c₁.wakeBays_gate (s.bayWanted c) (List.range 4)
    generalize (List.range 4).foldl (fun (c₂ : Core) q => c₂.wakeBay q (s.bayWanted c)) c₁ = c₂ at hp hg
    simp only [Core.pace, Prod.mk.injEq] at hp
    obtain ⟨hid, hcycle, hdroop, hpasses, hcharges, -⟩ := hp
    obtain ⟨hid', hcycle', hdroop'⟩ := c₂.sweep_keeps s.dbg.lcren fun q => (s.gridder c q).isSome
    have hbay : ∀ b < 16, sget {} c₁.bays b = (sget {} x.bays b).tick (s.bayWanted c b) := by
      intro b hb
      exact (sget_foldl_sset {} (fun b => (sget {} x.bays b).tick (s.bayWanted c b)) x.bays 16 b).trans (if_pos hb)
    refine ⟨hid'.trans hid, hcycle'.trans hcycle, hdroop'.trans hdroop, fun b hb hn => ?_, fun hs => ?_⟩
    · have hgate : (sget {} c₁.bays b).gate = (sget {} x.bays b).gate.tick := by rw [hbay b hb]; rfl
      rw [Core.sweep_gate, hg b (hgate ▸ hn), hgate]
    · rw [Core.sweep_none _ _ _ (hpasses ▸ hs), hcharges]
  have h := find_map_id Core.id c next (fun x => (hnext x).id) s.cores
  refine ⟨next k, ?_, hnext k⟩
  exact h.trans (congrArg (Option.map next) hk)

/-! ### Cycles of a core -/

theorem State.passCycles_succ (s : State) (c n : Nat) : s.passCycles c (n + 1) = (s.cycleOn c).passCycles c n := rfl

/-- What n cycles make of the cycle count and of the droop. -/
theorem State.passCycles_core (n c : Nat) (hk : s.core? c = some k) :
    ∃ k', (s.passCycles c n).core? c = some k' ∧ k'.cycle = k.cycle + n ∧ k'.droop = Droop.tick^[n] k.droop := by
  induction n generalizing s k with
  | zero => exact ⟨k, hk, rfl, rfl⟩
  | succ n ih =>
    obtain ⟨k₁, hk₁, ht⟩ := s.cycleOn_core c hk
    obtain ⟨k', hk', hc, hd⟩ := ih hk₁
    refine ⟨k', hk', ?_, ?_⟩
    · rw [hc, ht.cycle]; omega
    · rw [hd, ht.droop, Function.iterate_succ_apply]

/-- R343: the stretched cycles end in halved ones. -/
theorem Droop.tick_stretched (n : Nat) : Droop.tick^[n + 1] (.stretched (n + 1)) = .halved 64 := by
  induction n with
  | zero => rfl
  | succ n ih =>
    have h : Droop.tick (.stretched (n + 1 + 1)) = .stretched (n + 1) := by simp [Droop.tick]
    rw [Function.iterate_succ_apply, h, ih]

/-- R343: the halved cycles end. -/
theorem Droop.tick_halved (n : Nat) : Droop.tick^[n + 1] (.halved (n + 1)) = .none := by
  induction n with
  | zero => rfl
  | succ n ih =>
    have h : Droop.tick (.halved (n + 1 + 1)) = .halved (n + 1) := by simp [Droop.tick]
    rw [Function.iterate_succ_apply, h, ih]

/-- R344: a bay that wakes is awake after the cycles that are left. -/
theorem State.passCycles_wakes {b : Nat} (n c : Nat) (hk : s.core? c = some k) (hb : b < 16)
    (hg : (sget {} k.bays b).gate = .waking (n + 1)) :
    ∃ k', (s.passCycles c (n + 1)).core? c = some k' ∧ (sget {} k'.bays b).gate = .awake := by
  induction n generalizing s k with
  | zero =>
    obtain ⟨k₁, hk₁, ht⟩ := s.cycleOn_core c hk
    have htick : (sget {} k.bays b).gate.tick = .awake := by rw [hg]; rfl
    exact ⟨k₁, hk₁, (ht.gate b hb (by simp [htick])).trans htick⟩
  | succ n ih =>
    obtain ⟨k₁, hk₁, ht⟩ := s.cycleOn_core c hk
    have htick : (sget {} k.bays b).gate.tick = .waking (n + 1) := by
      rw [hg]; simp [Gate.tick]
    exact ih hk₁ ((ht.gate b hb (by simp [htick])).trans htick)

/-! ### Cycles of a team -/

/-- What a resident cycle makes of a team. -/
structure Team.Ticked (t t' : Team) : Prop where
  id : t'.id = t.id
  core : t'.core = t.core
  residence : t'.residence = t.residence
  cycle : t'.cycle = t.cycle + 1
  rtimer : t'.rtimer = if t.rtimer = 0 then 0 else t.rtimer - 1
  async : t'.async = if t.rtimer = 1 && !(t.async.contains 321) then t.async ++ [321] else t.async

theorem State.cycleOn_ticks (s : State) (ht : s.team? t.id = some t) (hr : t.residence = .resident) :
    ∃ t', (s.cycleOn t.core).team? t.id = some t' ∧ t.Ticked t' := by
  have h := find_map_team s.teams (fun t' =>
    if t'.core = t.core then (t'.tick (s.gridBusy t')).unlost (match s.core? t.core with
      | some c => ((List.range 4).map (4 * t'.quad + ·)).filter c.openBay
      | none => []) else t') (fun x => by split <;> simp) t.id
  have hfound : (s.cycleOn t.core).team? t.id = some ((t.tick (s.gridBusy t)).unlost (match s.core? t.core with
      | some c => ((List.range 4).map (4 * t.quad + ·)).filter c.openBay
      | none => [])) := by
    refine h.trans ((congrArg (Option.map _) ht).trans ?_)
    rw [Option.map_some, if_pos rfl]
  have htick : t.Ticked (t.tick (s.gridBusy t)) := by
    unfold Team.tick
    rw [if_pos hr]
    exact ⟨rfl, rfl, rfl, rfl, rfl, rfl⟩
  have hunlost : ∀ l, t.Ticked ((t.tick (s.gridBusy t)).unlost l) := by
    intro l
    unfold Team.unlost
    dsimp only
    split
    · exact htick
    · exact ⟨htick.id, htick.core, htick.residence, htick.cycle, htick.rtimer, htick.async⟩
  exact ⟨_, hfound, hunlost _⟩

/-- R47: RTIMER counts down to 0, and leaves its trap. -/
theorem State.passCycles_rtimer (n : Nat) (ht : s.team? t.id = some t) (hr : t.residence = .resident) (hn : t.rtimer.toNat = n + 1) :
    ∃ x, (s.passCycles t.core (n + 1)).team? t.id = some x ∧ x.rtimer = 0 ∧ 321 ∈ x.async ∧ x.cycle = t.cycle + (n + 1) := by
  induction n generalizing s t with
  | zero =>
    obtain ⟨x, hx, hid, -, -, hcycle, hrt, ha⟩ := s.cycleOn_ticks ht hr
    have h1 : t.rtimer = 1 := by bv_omega
    refine ⟨x, hx, ?_, ?_, hcycle⟩
    · rw [hrt, h1]; rfl
    · rw [ha, h1]
      by_cases hc : 321 ∈ t.async <;> simp [hc]
  | succ n ih =>
    obtain ⟨x, hx, hid, hcore, hres, hcycle, hrt, -⟩ := s.cycleOn_ticks ht hr
    have h0 : t.rtimer ≠ 0 := by rintro h; rw [h] at hn; simp at hn
    have hn' : x.rtimer.toNat = n + 1 := by rw [hrt, if_neg h0]; bv_omega
    obtain ⟨y, hy, h1, h2, h3⟩ := ih (s := s.cycleOn t.core) (t := x) (hid ▸ hx) (hres.trans hr) hn'
    rw [hid, hcore] at hy
    exact ⟨y, hy, h1, h2, by rw [h3, hcycle]; omega⟩

/-! ### The governor -/

/-- R341: the token queue changes of the governor only what waits and what is free. -/
theorem State.grantHead_gov (s : State) : ∃ q f, s.grantHead.gov = { s.gov with queue := q, free := f } ∧ s.grantHead.cores = s.cores := by
  unfold State.grantHead
  split
  · exact ⟨_, _, rfl, rfl⟩
  split
  · exact ⟨_, _, rfl, rfl⟩
  · dsimp only
    split
    · exact ⟨_, _, rfl, rfl⟩
    split
    · exact ⟨_, _, rfl, rfl⟩
    · exact ⟨_, _, rfl, rfl⟩

/-- R349: the pool that the levers allow. -/
def Gov.allowed (g : Gov) : Nat := match g.rung4 with | some r => min g.powerPool r | none => g.powerPool

/-- R349: what a new pool leaves of the governor. -/
theorem State.repool_gov (s : State) : ∃ q f, s.repool.gov = { s.gov with queue := q, free := f, pool := s.gov.allowed } ∧
    s.repool.cores = s.cores := by
  unfold State.repool
  extract_lets s₁ p
  have h : ∃ q f, s₁.gov = { s.gov with queue := q, free := f } ∧ s₁.cores = s.cores := by
    refine foldl_holds _ (fun u : State => ∃ q f, u.gov = { s.gov with queue := q, free := f } ∧ u.cores = s.cores)
      (fun u _ hu => ?_) _ s ⟨_, _, rfl, rfl⟩
    obtain ⟨q, f, hg, hc⟩ := hu
    obtain ⟨q', f', hg', hc'⟩ := u.grantHead_gov
    exact ⟨q', f', by rw [hg', hg], hc'.trans hc⟩
  obtain ⟨q, f, hg, hc⟩ := h
  have hp : p = s.gov.allowed := by
    unfold p Gov.allowed
    rw [hg] <;> rfl
  split
  next he => exact ⟨q, f, by rw [← hp, he, hg], hc⟩
  · refine ⟨q, p - s₁.tokensHeld, ?_, hc⟩
    simp only [Gov.setPool, hg, hp]
    rfl

@[simp] theorem State.fallFrom_gov (s before : State) : (s.fallFrom before).gov = s.gov := rfl

theorem State.fallFrom_cores {s before : State} {th : Nat} (h : ∀ c ∈ s.cores, c.threshold = th) :
    ∀ c ∈ (s.fallFrom before).cores, c.threshold = th := by
  intro c hc
  obtain ⟨x, hx, rfl⟩ := List.mem_map.1 hc
  split
  · exact h x hx
  · split
    · exact h x hx
    · exact h x hx

/-- R347: what an interval that has passed leaves of the governor. -/
theorem execSkin_gov (x : Option Int) (hdue : ∀ l, s.gov.sampled = some l → l + s.gov.interval ≤ s.time) :
    ∃ u q f p, exec (.skinTemperatureInterval ⟨x⟩) s = .next u ∧ u.gov = { s.gov.read s.time x with queue := q, free := f, pool := p } := by
  have he : exec (.skinTemperatureInterval ⟨x⟩) s = .next ({ s with gov := s.gov.read s.time x }.repool.fallFrom s) := by
    change execSkinTemperatureInterval ⟨x⟩ s = _
    unfold execSkinTemperatureInterval
    split
    next l hl => rw [if_neg (by have := hdue l hl; omega)]
    · rfl
  obtain ⟨q, f, hg, -⟩ := State.repool_gov { s with gov := s.gov.read s.time x }
  exact ⟨_, q, f, _, he, by rw [State.fallFrom_gov, hg]⟩

/-- R346, R347: the first rung is entered. -/
theorem Gov.read_above {g : Gov} {now : Nat} {x : Int} (hx : g.limit < x) (h0 : g.step = 0) :
    (g.read now (some x)).step = 1 ∧ (g.read now (some x)).missing = 0 ∧
      (g.read now (some x)).rscale = max (g.rscale - 16) (min 64 g.rscale) := by
  simp [Gov.read, Gov.skin, hx, h0, Gov.notch, Gov.rung, Gov.setRung]

/-- R347: a notch back up on the first rung. -/
theorem Gov.read_below {g : Gov} {now : Nat} {x : Int} (hx : x < g.limit - (g.hysteresis : Int)) (hn : ¬ g.limit < x) (h1 : g.step = 1) :
    (g.read now (some x)).rscale = min 128 (g.rscale + 16) ∧
      (g.read now (some x)).step = if min 128 (g.rscale + 16) = 128 then 0 else 1 := by
  by_cases hs : min 128 (g.rscale + 16) = 128 <;> simp [Gov.read, Gov.skin, hx, hn, h1, Gov.rung, Gov.setRung, hs]

/-- R347: a reading is missing, and the rung stays. -/
theorem Gov.read_none {g : Gov} {now : Nat} (h : g.missing < 3) :
    (g.read now none).missing = g.missing + 1 ∧ (g.read now none).step = g.step := by
  have hm : min 4 (g.missing + 1) = g.missing + 1 := by omega
  simp only [Gov.read, hm]
  rw [if_neg (by omega)]
  exact ⟨rfl, rfl⟩

/-! ### The events -/

/-- An event that changes one core. -/
theorem State.modCore_core {f : Core → Core} (c : Nat) (hk : s.core? c = some k) (hf : ∀ x, (f x).id = x.id) :
    (s.modCore c f).core? c = some (f k) := by
  rw [State.modCore_find s c f hf, hk, Option.map_some]

theorem levelMove_spec {c : Nat} (hk : s.core? c = some k) (hon : k.power = .on) (hm : k.moving = none) (ht : s.target c ≠ k.level)
    (hu : s.urgentFirst c = false) (hg : ∀ g ∈ s.groupsOn c, s.inRun g = false) :
    ∃ u k', exec (.levelMove ⟨c⟩) s = .next u ∧ u.core? c = some k' ∧ k'.moving = some (s.target c) ∧ k'.level = k.level := by
  have hidle : (s.groupsOn c).all (fun g => !(s.inRun g)) = true := List.all_eq_true.2 fun g h => by simp [hg g h]
  refine ⟨_, _, ?_, s.modCore_core (f := fun k => { k with moving := some (s.target c) }) c hk fun _ => rfl, rfl, rfl⟩
  change execLevelMove ⟨c⟩ s = _
  simp [execLevelMove, hk, hon, hm, ht, hu, hidle]

theorem levelMoveComplete_spec {c l : Nat} (hk : s.core? c = some k) (hm : k.moving = some l) :
    ∃ u k', exec (.levelMoveComplete ⟨c⟩) s = .next u ∧ u.core? c = some k' ∧ k'.moving = none ∧ k'.level = l := by
  refine ⟨_, _, rfl, s.modCore_core c hk fun x => ?_, ?_, ?_⟩
  · split <;> rfl
  · rw [hm]
  · rw [hm]

theorem droopTrigger_stretches {c mv : Nat} (hk : s.core? c = some k) (h0 : s.drpthr ≠ 0) (hmv : s.drpthr * 5 ≤ mv)
    (hs : ∀ n, k.droop ≠ .stretched n) :
    ∃ u k', exec (.droopTrigger ⟨c, mv⟩) s = .next u ∧ u.core? c = some k' ∧ k'.droop = .stretched 7 := by
  have he : exec (.droopTrigger ⟨c, mv⟩) s = .next (s.modCore c fun k => match k.droop with | .stretched _ => k | _ => { k with droop := .stretched 7 }) :=
    if_neg (by simp only [h0, false_or]; omega)
  refine ⟨_, _, he, s.modCore_core c hk fun x => ?_, ?_⟩
  · split <;> rfl
  · cases hd : k.droop with
    | stretched n => exact absurd hd (hs n)
    | _ => rfl

/-- Cycles pass until a droop sequence is over. -/
theorem droopEnd_spec {c n : Nat} {i : Instr} (hk : s.core? c = some k) (hn : 0 < n) (he : exec i s = .next (s.passCycles c n))
    {d : Droop} (hd : ∀ m, n = m + 1 → Droop.tick^[m + 1] k.droop = d) :
    ∃ u k', exec i s = .next u ∧ u.core? c = some k' ∧ k'.droop = d ∧ k'.cycle = k.cycle + n := by
  obtain ⟨m, rfl⟩ : ∃ m, n = m + 1 := ⟨n - 1, by omega⟩
  obtain ⟨k', hk', hc, hdroop⟩ := State.passCycles_core (m + 1) c hk
  exact ⟨_, k', he, hk', hdroop.trans (hd m rfl), hc⟩

theorem bayPowerGate_spec {c b : Nat} (hk : s.core? c = some k) (hb : b < 16) (hg : s.gridder c (b / 4) = none)
    (ha : (sget {} k.bays b).gate = .awake) (hi : 1024 ≤ (sget {} k.bays b).idle) :
    ∃ u k', exec (.bayPowerGate ⟨c, b⟩) s = .next u ∧ u.core? c = some k' ∧ (sget {} k'.bays b).gate = .gated := by
  refine ⟨_, _, if_pos ⟨hb, by rw [hg]; rfl⟩, s.modCore_core c hk fun x => ?_, ?_⟩
  · dsimp only
    split <;> rfl
  · dsimp only
    rw [if_pos ⟨ha, hi⟩, sget_sset_same]

theorem bayWakeComplete_spec {c q b n : Nat} (hk : s.core? c = some k) (hq : q < 4) (hb : b < 4)
    (hw : (sget {} k.bays (4 * q + b)).gate = .waking n) (hn : 0 < n)
    (hx : ∀ x < b, ∀ m, (sget {} k.bays (4 * q + x)).gate ≠ .waking m) :
    ∃ u k', exec (.bayWakeComplete ⟨c, q⟩) s = .next u ∧ u.core? c = some k' ∧ (sget {} k'.bays (4 * q + b)).gate = .awake := by
  obtain ⟨m, rfl⟩ : ∃ m, n = m + 1 := ⟨n - 1, by omega⟩
  obtain ⟨k', hk', ha⟩ := State.passCycles_wakes m c hk (by omega : 4 * q + b < 16) hw
  refine ⟨_, k', ?_, hk', ha⟩
  change execBayWakeComplete ⟨c, q⟩ s = _
  unfold execBayWakeComplete
  split
  next h => exact absurd (hk.symm.trans h) (Option.some_ne_none k)
  next k₂ h =>
    obtain rfl : k = k₂ := Option.some.inj (hk.symm.trans h)
    extract_lets left
    have hleft : left = some (m + 1) := by
      have hr : List.range 4 = List.range b ++ b :: (List.range 4).drop (b + 1) := by interval_cases b <;> rfl
      refine List.findSome?_eq_some_iff.2 ⟨List.range b, b, (List.range 4).drop (b + 1), hr, ?_, fun x h => ?_⟩
      · rw [hw]
      · have hnot := hx x (List.mem_range.1 h)
        split
        next n hn => exact absurd hn (hnot n)
        · rfl
    rw [hleft]

theorem corePowerGate_spec {c : Nat} (hk : s.core? c = some k) (hon : k.power = .on) (hg : s.groupsOn c = []) (hi : 100000 ≤ k.idleNs) :
    ∃ u k', exec (.corePowerGate ⟨c⟩) s = .next u ∧ u.core? c = some k' ∧ k'.power = .gated := by
  have he : exec (.corePowerGate ⟨c⟩) s = .next { s.modCore c fun k => { k with power := .gated } with
      selfRefresh := (s.modCore c fun k => { k with power := .gated }).restful } := by
    change execCorePowerGate ⟨c⟩ s = _
    unfold execCorePowerGate
    split
    next h => exact absurd (hk.symm.trans h) (Option.some_ne_none k)
    next k₂ h =>
      obtain rfl : k = k₂ := Option.some.inj (hk.symm.trans h)
      exact if_pos ⟨hon, hg, hi⟩
  exact ⟨_, _, he, s.modCore_core (f := fun k => { k with power := .gated }) c hk fun _ => rfl, rfl⟩

theorem coreWakeComplete_spec {c : Nat} (hk : s.core? c = some k) (hw : k.power = .waking) :
    ∃ u k', exec (.coreWakeComplete ⟨c⟩) s = .next u ∧ u.core? c = some k' ∧ k'.power = .on := by
  refine ⟨_, _, rfl, s.modCore_core c hk fun x => ?_, ?_⟩
  · split <;> rfl
  · rw [if_pos hw]

theorem governorEstimate_spec {th pool ceil : Nat} (h1 : 65536 ≤ th) (h2 : th ≤ 2097151) (h3 : 4 ≤ pool) (h4 : pool ≤ 64) (h5 : ceil ≤ 7)
    (h6 : pool = 64 ∨ th = 65536) (h7 : ceil = 7 ∨ pool = 4) :
    ∃ u, exec (.governorEstimate ⟨th, pool, ceil⟩) s = .next u ∧ u.gov.threshold = th ∧ u.gov.powerPool = pool ∧
      u.gov.powerCeil = ceil ∧ (∀ c ∈ u.cores, c.threshold = th) ∧
      u.gov.pool = (match s.gov.rung4 with | some r => min pool r | none => pool) := by
  let s₁ : State := { s with gov := { s.gov with threshold := th, powerPool := pool, powerCeil := ceil }
                             cores := s.cores.map fun c => { c with threshold := th } }
  have he : exec (.governorEstimate ⟨th, pool, ceil⟩) s = .next (s₁.repool.fallFrom s) :=
    if_neg (by dsimp only; omega)
  obtain ⟨q, f, hg, hc⟩ := s₁.repool_gov
  refine ⟨_, he, ?_, ?_, ?_, State.fallFrom_cores fun c hm => ?_, ?_⟩
  · rw [State.fallFrom_gov, hg]
  · rw [State.fallFrom_gov, hg]
  · rw [State.fallFrom_gov, hg]
  · rw [hc] at hm
    obtain ⟨x, -, rfl⟩ := List.mem_map.1 hm
    rfl
  · rw [State.fallFrom_gov, hg]
    rfl

theorem rtimerExpiry_spec (ht : s.team? t.id = some t) (hr : t.residence = .resident) (hon : s.coreOn t.core = true) (h0 : t.rtimer ≠ 0) :
    ∃ u x, exec (.rtimerExpiry ⟨t.id⟩) s = .next u ∧ u.team? t.id = some x ∧ x.rtimer = 0 ∧ 321 ∈ x.async ∧
      x.cycle = t.cycle + t.rtimer.toNat := by
  have hn : t.rtimer.toNat ≠ 0 := fun h => h0 (BitVec.eq_of_toNat_eq h)
  obtain ⟨n, hn⟩ := Nat.exists_eq_succ_of_ne_zero hn
  obtain ⟨x, hx, h1, h2, h3⟩ := State.passCycles_rtimer n ht hr hn
  refine ⟨_, x, ?_, hx, h1, h2, hn ▸ h3⟩
  change execRtimerExpiry ⟨t.id⟩ s = _
  unfold execRtimerExpiry
  simp only [ht, h0, hr, hon, ne_eq, not_false_eq_true, and_self, if_true, hn]

theorem wallDeadlineExpiry_spec (ht : s.team? t.id = some t) (hr : t.residence = .resident) (h0 : t.wdl ≠ 0) (hw : t.wdl ≤ s.time) :
    ∃ u x, exec (.wallDeadlineExpiry ⟨t.id⟩) s = .next u ∧ u.team? t.id = some x ∧ x.wdl = 0 ∧ 322 ∈ x.async := by
  have hteam := s.modTeam_find t.id (fun t => { t with
    wdl := 0, wdlLo := 0, async := if t.async.contains 322 then t.async else t.async ++ [322] }) fun _ => rfl
  rw [ht, Option.map_some] at hteam
  refine ⟨_, _, ?_, hteam, rfl, ?_⟩
  · change execWallDeadlineExpiry ⟨t.id⟩ s = _
    unfold execWallDeadlineExpiry
    simp only [ht, h0, hw, hr, ne_eq, not_false_eq_true, and_self, if_true]
  · by_cases hc : 322 ∈ t.async <;> simp [hc]

/-- A cycle in which nothing issues. -/
theorem oneCycle_spec {c : Nat} (hk : s.core? c = some k) :
    ∃ k', (s.passCycles c 1).core? c = some k' ∧ k'.cycle = k.cycle + 1 ∧
      ((∀ p ∈ k.passes, p.sync = false) → k'.charges = (if k.gridCharge = 0 then [] else [(k.cycle, k.gridCharge)]) ++
        k.charges.filter fun q => decide (k.cycle < q.1 + 256)) := by
  obtain ⟨k', hk', ht⟩ := s.cycleOn_core c hk
  exact ⟨k', hk', ht.cycle, ht.charges⟩

end Sys2Proof.Machine
end

section
/-!
PROOFS. The obligation on the events of power and of the timers.
-/
namespace Sys2Proof.Machine

/-- Settles O49: each clause is one of the events above. -/
theorem powerEvents : Obligations.PowerEvents := by
  intro s due
  refine ⟨fun c k hk hon hm ht hu hg => levelMove_spec hk hon hm ht hu hg, fun c k l hk hm => levelMoveComplete_spec hk hm,
    fun c k mv hk => ⟨fun h0 hmv hs => droopTrigger_stretches hk h0 hmv hs, fun h => if_pos h⟩, fun c k n hk hd hn => ?_,
    fun c k n hk hd hn => ?_, fun c k b hk hb hg ha hi => bayPowerGate_spec hk hb hg ha hi,
    fun c k q b n hk hq hb hw hn hx => bayWakeComplete_spec hk hq hb hw hn hx, fun c k hk hon hg hi => corePowerGate_spec hk hon hg hi,
    fun c k hk hw => coreWakeComplete_spec hk hw, fun x hdue hx h0 => ?_, fun x hdue hx hn h1 => ?_, fun hdue h => ?_,
    fun x l hl ht => ?_, fun th pool ceil h1 h2 h3 h4 h5 h6 h7 => governorEstimate_spec h1 h2 h3 h4 h5 h6 h7,
    fun t ht hr hon h0 => rtimerExpiry_spec ht hr hon h0, fun t ht hr h0 hw => wallDeadlineExpiry_spec ht hr h0 hw,
    fun c k hk hon => ⟨?_, fun b hl hb => ?_⟩⟩
  · refine droopEnd_spec hk hn ?_ fun m hm => by rw [hd, hm]; exact Droop.tick_stretched m
    change execDroopStretchEnd ⟨c⟩ s = _
    simp only [execDroopStretchEnd, hk, Option.map_some, hd]
  · refine droopEnd_spec hk hn ?_ fun m hm => by rw [hd, hm]; exact Droop.tick_halved m
    change execDroopHalvingEnd ⟨c⟩ s = _
    simp only [execDroopHalvingEnd, hk, Option.map_some, hd]
  · obtain ⟨u, q, f, p, he, hg⟩ := execSkin_gov (some x) hdue
    obtain ⟨hstep, hmissing, hscale⟩ := Gov.read_above (now := s.time) hx h0
    exact ⟨u, he, by rw [hg]; exact hstep, by rw [hg]; exact hmissing, by rw [hg]; exact hscale⟩
  · obtain ⟨u, q, f, p, he, hg⟩ := execSkin_gov (some x) hdue
    obtain ⟨hscale, hstep⟩ := Gov.read_below (now := s.time) hx hn h1
    exact ⟨u, he, by rw [hg]; exact hscale, by rw [hg]; exact hstep⟩
  · obtain ⟨u, q, f, p, he, hg⟩ := execSkin_gov none hdue
    obtain ⟨hmissing, hstep⟩ := Gov.read_none (now := s.time) h
    exact ⟨u, he, by rw [hg]; exact hmissing, by rw [hg]; exact hstep⟩
  · change execSkinTemperatureInterval ⟨x⟩ s = _
    simp only [execSkinTemperatureInterval, hl, ht, if_true]
  · obtain ⟨k', hk', hcycle, hcharges⟩ := oneCycle_spec hk
    exact ⟨_, k', if_pos hon, hk', hcycle, hcharges⟩
  · obtain ⟨k', hk', hcycle, -⟩ := oneCycle_spec hk
    exact ⟨_, k', if_pos ⟨hl, hb, hon⟩, hk', hcycle⟩

end Sys2Proof.Machine
end

section
/-!
PROOFS. Every MODE stays legal (R30, R49, R358): the invariant, what keeps it for one team, and what keeps it for the state. Each
function f of the model that hands on a state has one lemma, Lawful.f: where the state it takes is lawful, so is the state it hands
on. The lemmas stand in the order of the model's definitions, and the proof of each follows the branches of its function: h.f.g is
the fact about g after f.
-/
namespace Sys2Proof.Machine

/-! ### A team -/

/-- No MODE that a split, the region or a join record of the team holds is one that R30 rules out. -/
def Team.Lawful (t : Team) : Prop :=
  (∀ p ∈ t.live ++ t.handler.toList, modeReserved p.mode = false) ∧
  (∀ q, t.region = some q → modeReserved q.mode = false) ∧
  ∀ j ∈ t.joins, modeReserved j.2.smode = false

variable {t x : Team} {p : Split} {uid : Nat}

/-- The MODEs that a team holds, in outline. -/
theorem Team.lawful_iff : t.Lawful ↔
    (∀ q ∈ (t.outline.splits ++ t.outline.deferred) ++ t.outline.handler.toList, modeReserved q.2 = false) ∧
    (∀ m, t.outline.region = some m → modeReserved m = false) ∧ ∀ m ∈ t.outline.joins, modeReserved m = false := by
  have e : (t.outline.splits ++ t.outline.deferred) ++ t.outline.handler.toList = (t.live ++ t.handler.toList).map Split.outline := by
    simp only [Team.outline, Team.live, List.map_append, Option.toList_map]
  rw [e, List.forall_mem_map]
  simp only [Team.outline, Option.map_eq_some_iff, List.forall_mem_map]
  refine and_congr_right fun _ => and_congr_left fun _ => ⟨fun h m => ?_, fun h q hq => h _ ⟨q, hq, rfl⟩⟩
  rintro ⟨q, hq, rfl⟩
  exact h q hq

theorem Team.Lawful.of_outline (h : t.Lawful) (e : x.outline = t.outline) : x.Lawful := by
  rw [Team.lawful_iff, e]
  exact Team.lawful_iff.1 h

theorem Team.Lawful.region {q : Region} (h : t.Lawful) (e : t.region = some q) : modeReserved q.mode = false := h.2.1 q e
theorem Team.Lawful.live (h : t.Lawful) (hp : p ∈ t.live) : modeReserved p.mode = false := h.1 p (List.mem_append_left _ hp)
theorem Team.Lawful.splits (h : t.Lawful) (hp : p ∈ t.splits) : modeReserved p.mode = false := h.live (List.mem_append_left _ hp)
theorem Team.Lawful.deferred (h : t.Lawful) (hp : p ∈ t.deferred) : modeReserved p.mode = false := h.live (List.mem_append_right _ hp)
theorem Team.Lawful.handler (h : t.Lawful) (hp : t.handler = some p) : modeReserved p.mode = false :=
  h.1 p (List.mem_append_right _ (by rw [hp]; exact List.mem_cons_self))

theorem Team.Lawful.split? (h : t.Lawful) (hp : t.split? uid = some p) : modeReserved p.mode = false := by
  have hm : p ∈ t.handler.toList ++ t.splits ++ t.deferred := List.mem_of_find?_eq_some hp
  rw [List.append_assoc, List.mem_append] at hm
  exact hm.elim (fun hm => h.1 p (List.mem_append_right _ hm)) h.live

theorem Team.Lawful.joinRec? {r : JoinRec} {j : Nat} (h : t.Lawful) (hr : t.joinRec? j = some r) : modeReserved r.smode = false := by
  obtain ⟨e, he, rfl⟩ := Option.map_eq_some_iff.1 hr
  exact h.2.2 e (List.mem_of_find?_eq_some he)

/-- A team with lawful splits, and the region and join records of a lawful one. -/
theorem Team.Lawful.of_parts (h : t.Lawful) (hs : ∀ q ∈ x.splits, modeReserved q.mode = false)
    (hd : ∀ q ∈ x.deferred, modeReserved q.mode = false) (hh : ∀ q, x.handler = some q → modeReserved q.mode = false)
    (hr : x.region = t.region) (hj : x.joins = t.joins) : x.Lawful := by
  refine ⟨fun q hq => ?_, hr ▸ h.2.1, hj ▸ h.2.2⟩
  rw [Team.live, List.append_assoc, List.mem_append, List.mem_append] at hq
  rcases hq with hq | hq | hq
  · exact hs q hq
  · exact hd q hq
  · exact hh q (by simpa using hq)

/-- An update of every split that takes no MODE that is ruled out. -/
theorem Team.Lawful.mapSplits {f g : Split → Split} {k : Split → Split} (h : t.Lawful)
    (hf : ∀ p, modeReserved p.mode = false → modeReserved (f p).mode = false)
    (hg : ∀ p, modeReserved p.mode = false → modeReserved (g p).mode = false)
    (hk : ∀ p, modeReserved p.mode = false → modeReserved (k p).mode = false) :
    ({ t with splits := t.splits.map f, deferred := t.deferred.map g, handler := t.handler.map k } : Team).Lawful := by
  refine h.of_parts ?_ ?_ ?_ rfl rfl
  · exact List.forall_mem_map.2 fun q hq => hf q (h.splits hq)
  · exact List.forall_mem_map.2 fun q hq => hg q (h.deferred hq)
  · rintro _ hq
    obtain ⟨q, e, rfl⟩ := Option.map_eq_some_iff.1 hq
    exact hk q (h.handler e)

theorem Team.Lawful.modSplit {f : Split → Split} (h : t.Lawful)
    (hf : ∀ p, modeReserved p.mode = false → modeReserved (f p).mode = false) : (t.modSplit uid f).Lawful := by
  have hf' : ∀ p : Split, modeReserved p.mode = false → modeReserved (if p.uid = uid then f p else p).mode = false := by
    intro p hp
    split
    · exact hf p hp
    · exact hp
  exact h.mapSplits hf' hf' hf'

/-- An update of a split that leaves its MODE. -/
theorem Team.Lawful.modSplitKeep {f : Split → Split} (h : t.Lawful) (hf : ∀ p, (f p).mode = p.mode) : (t.modSplit uid f).Lawful :=
  h.modSplit fun p hp => (hf p).symm ▸ hp

/-! ### The state -/

/-- No two teams share an identifier, every identifier has been given out, every team is lawful, and the identifiers below some
bound have been given out, which a step does not take back. -/
def Lawful (n₀ : Nat) (s : State) : Prop := s.Legal ∧ n₀ ≤ s.nextId

variable {s u : State} {n₀ id : Nat} {α β : Type}

/-- A team of a lawful state. -/
theorem Lawful.mem (h : Lawful n₀ s) (ht : t ∈ s.teams) : t.Lawful := h.1.2.2 t ht
theorem Lawful.team (h : Lawful n₀ s) (ht : s.team? id = some t) : t.Lawful := h.mem (List.mem_of_find?_eq_some ht)

/-- The same teams, and no identifier taken back. -/
theorem Lawful.of_teams (h : Lawful n₀ s) (e : u.teams = s.teams) (hn : s.nextId ≤ u.nextId) : Lawful n₀ u := by
  obtain ⟨⟨hd, hi, ht⟩, hb⟩ := h
  unfold Lawful State.Legal
  rw [e]
  exact ⟨⟨hd, fun t ht => (hi t ht).trans_le hn, ht⟩, hb.trans hn⟩

/-- Some of the teams. -/
theorem Lawful.of_sublist (h : Lawful n₀ s) (e : u.teams.Sublist s.teams) (hn : s.nextId ≤ u.nextId) : Lawful n₀ u := by
  obtain ⟨⟨hd, hi, ht⟩, hb⟩ := h
  exact ⟨⟨hd.sublist (e.map _), fun t m => (hi t (e.subset m)).trans_le hn, fun t m => ht t (e.subset m)⟩, hb.trans hn⟩

/-- Every team is updated under its name. -/
theorem Lawful.mapTeams {f : Team → Team} (h : Lawful n₀ s) (e : u.teams = s.teams.map f) (hn : s.nextId ≤ u.nextId)
    (hf : ∀ t ∈ s.teams, t.Lawful → (f t).Lawful) (hid : ∀ t, (f t).id = t.id) : Lawful n₀ u := by
  obtain ⟨⟨hd, hi, ht⟩, hb⟩ := h
  have hc : (u.teams.map (·.id)) = s.teams.map (·.id) := by
    rw [e, List.map_map]
    exact List.map_congr_left fun t _ => hid t
  refine ⟨⟨hc ▸ hd, ?_, ?_⟩, hb.trans hn⟩
  · rw [e]
    exact List.forall_mem_map.2 fun t m => (hid t).symm ▸ (hi t m).trans_le hn
  · show ∀ t ∈ u.teams, t.Lawful
    rw [e]
    exact List.forall_mem_map.2 fun t m => hf t m (ht t m)

/-- A team of a lawful state is the one that its name finds. -/
theorem Lawful.team_of_mem (h : Lawful n₀ s) (ht : t ∈ s.teams) : s.team? t.id = some t := by
  obtain ⟨⟨hd, -, -⟩, -⟩ := h
  unfold State.team?
  generalize s.teams = l at hd ht ⊢
  induction l with
  | nil => cases ht
  | cons y l ih =>
    rw [List.map_cons, List.nodup_cons] at hd
    rcases List.mem_cons.1 ht with rfl | m
    · simp
    · have hy : y.id ≠ t.id := fun q => hd.1 (q ▸ List.mem_map_of_mem m)
      rw [List.find?_cons_of_neg (by simpa using hy)]
      exact ih hd.2 m

/-- An update of a team that is lawful on the team found. -/
theorem Lawful.modFound {f : Team → Team} (h : Lawful n₀ s) (hf : ∀ t, s.team? id = some t → t.Lawful → (f t).Lawful)
    (hid : ∀ t, (f t).id = t.id) : Lawful n₀ (s.modTeam id f) := by
  refine h.mapTeams rfl le_rfl (fun t m ht => ?_) fun t => ?_
  · split
    next e => exact hf t (e ▸ h.team_of_mem m) ht
    · exact ht
  · split
    · exact hid t
    · rfl

theorem Lawful.modTeam {f : Team → Team} (h : Lawful n₀ s) (hf : ∀ t, t.Lawful → (f t).Lawful)
    (hid : ∀ t, (f t).id = t.id) : Lawful n₀ (s.modTeam id f) :=
  h.modFound (fun t _ => hf t) hid

/-- An update that leaves the team in outline. -/
theorem Lawful.modOutline {f : Team → Team} (h : Lawful n₀ s) (hf : ∀ t, (f t).outline = t.outline) : Lawful n₀ (s.modTeam id f) :=
  h.modTeam (fun t ht => ht.of_outline (hf t)) fun t => congrArg TeamOutline.id (hf t)

theorem Lawful.modSplit {f : Split → Split} (h : Lawful n₀ s)
    (hf : ∀ p, modeReserved p.mode = false → modeReserved (f p).mode = false) : Lawful n₀ (s.modSplit id uid f) :=
  h.modTeam (fun _ h => h.modSplit hf) fun _ => rfl

/-- An update of a split that leaves its MODE. -/
theorem Lawful.modSplitKeep {f : Split → Split} (h : Lawful n₀ s) (hf : ∀ p, (f p).mode = p.mode) : Lawful n₀ (s.modSplit id uid f) :=
  h.modSplit fun p hp => (hf p).symm ▸ hp

theorem Lawful.fresh (h : Lawful n₀ s) : Lawful n₀ s.fresh.2 := h.of_teams rfl (Nat.le_succ _)

/-- Two states alike are both lawful. -/
theorem Alike.lawful (e : Alike s u) (h : Lawful n₀ s) : Lawful n₀ u := by
  obtain ⟨ht, -, hn⟩ := e
  obtain ⟨⟨hd, hi, hl⟩, hb⟩ := h
  have hc : u.teams.map (·.id) = s.teams.map (·.id) := by
    have := congrArg (List.map TeamOutline.id) ht
    rwa [List.map_map, List.map_map] at this
  have hm : ∀ t ∈ u.teams, ∃ y ∈ s.teams, y.outline = t.outline := fun t m => by
    have : t.outline ∈ s.teams.map Team.outline := ht ▸ List.mem_map_of_mem m
    exact List.mem_map.1 this
  refine ⟨⟨hc ▸ hd, fun t m => ?_, fun t m => ?_⟩, hn.symm ▸ hb⟩
  · obtain ⟨y, my, e⟩ := hm t m
    rw [hn, ← show y.id = t.id from congrArg TeamOutline.id e]
    exact hi y my
  · obtain ⟨y, my, e⟩ := hm t m
    exact Team.Lawful.of_outline (hl y my) e.symm

/-- The state that a pair binds. -/
theorem Lawful.of_fst {r : State × α} {a : α} (e : r = (u, a)) (h : Lawful n₀ r.1) : Lawful n₀ u := by
  subst e; exact h

/-- A fold whose steps keep the invariant. -/
theorem Lawful.foldl {f : State → α → State} {l : List α} (h : Lawful n₀ s) (hf : ∀ u a, Lawful n₀ u → Lawful n₀ (f u a)) :
    Lawful n₀ (l.foldl f s) := foldl_holds f (Lawful n₀) hf l s h

/-- A fold that carries more than the state. -/
theorem Lawful.foldl_fst {f : State × β → α → State × β} {r : State × β} {l : List α} (h : Lawful n₀ r.1)
    (hf : ∀ q a, Lawful n₀ q.1 → Lawful n₀ (f q a).1) : Lawful n₀ (l.foldl f r).1 :=
  foldl_holds f (fun q => Lawful n₀ q.1) hf l r h

/-- What may not come to be, with the state as it was otherwise. -/
theorem Lawful.getD {o : Option State} (h : Lawful n₀ s) (ho : ∀ u, o = some u → Lawful n₀ u) : Lawful n₀ (o.getD s) := by
  cases o with
  | none => exact h
  | some u => exact ho u rfl

/-! ### What an effect ends in -/

/-- Whatever state an effect ends in is lawful. -/
def Res.StaysLawful (n₀ : Nat) : Res → Prop
  | .done s | .jump s | .nested s _ | .trap s _ _ _ _ | .hold s => Lawful n₀ s

/-- Whatever state the formation of an access ends in is lawful. -/
def Formed.StaysLawful (n₀ : Nat) : Formed → Prop
  | .trap s _ _ _ | .hold s | .dead s _ | .ok s _ _ => Lawful n₀ s

/-- Whatever state the fetch of a node ends in is lawful. -/
def NodeR.StaysLawful (n₀ : Nat) : NodeR → Prop
  | .busy s | .fault s _ _ | .dead s _ | .ok s _ => Lawful n₀ s

/-- Whatever state the reading of samples ends in is lawful. -/
def Sampled.StaysLawful (n₀ : Nat) : Sampled → Prop
  | .busy s | .ok s _ _ _ => Lawful n₀ s
  | .stop f => f.StaysLawful n₀

/-- What an instruction that issues knows of its team: its MODEs are legal, and the state still has its SSTAT_LO. -/
structure IssueFacts (s : State) (c : Ctx) : Prop where
  team : c.team.Lawful
  mode : modeReserved c.sp.mode = false
  sstatLo : ∀ t, s.team? c.tid = some t → t.sstatLo = c.team.sstatLo

/-- A state that the gate answers with is lawful. -/
def Admission.StaysLawful (n₀ : Nat) : Admission → Prop
  | .stay s => Lawful n₀ s
  | .go s c => Lawful n₀ s ∧ IssueFacts s c
  | .noIssuer | .trap _ _ _ _ => True

/-- Whatever state a fetch at a PC ends in is lawful. -/
def Fetched.StaysLawful (n₀ : Nat) : Fetched → Prop
  | .stop s | .run _ s => Lawful n₀ s

/-- A fetch of operands is lawful, where it succeeds and where it stops. -/
def OperandsLawful (n₀ : Nat) {α : Type} : Except Stopped (State × α) → Prop
  | .ok r => Lawful n₀ r.1
  | .error q => Lawful n₀ q.s

/-- A state that an outcome leads to is lawful. -/
def LawfulLeads (n₀ : Nat) : Host.Outcome State Fault Refusal → Prop
  | .next s => Lawful n₀ s
  | _ => True

/-- The branch of a match that is taken: the same fact, about what the scrutinee equals. -/
theorem Formed.StaysLawful.of_eq {f g : Formed} (e : f = g) (h : f.StaysLawful n₀) : g.StaysLawful n₀ := e ▸ h
theorem NodeR.StaysLawful.of_eq {f g : NodeR} (e : f = g) (h : f.StaysLawful n₀) : g.StaysLawful n₀ := e ▸ h
theorem Sampled.StaysLawful.of_eq {f g : Sampled} (e : f = g) (h : f.StaysLawful n₀) : g.StaysLawful n₀ := e ▸ h
theorem Admission.StaysLawful.of_eq {f g : Admission} (e : f = g) (h : f.StaysLawful n₀) : g.StaysLawful n₀ := e ▸ h
theorem Fetched.StaysLawful.of_eq {f g : Fetched} (e : f = g) (h : f.StaysLawful n₀) : g.StaysLawful n₀ := e ▸ h
theorem OperandsLawful.of_eq {α : Type} {f g : Except Stopped (State × α)} (e : f = g) (h : OperandsLawful n₀ f) :
    OperandsLawful n₀ g := e ▸ h
theorem Res.StaysLawful.of_eq {f g : Res} (e : f = g) (h : f.StaysLawful n₀) : g.StaysLawful n₀ := e ▸ h

/-- The state that an outcome goes on to. -/
theorem LawfulLeads.of_eq {r : Host.Outcome State Fault Refusal} {s : State} (e : r = .next s) (h : LawfulLeads n₀ r) : Lawful n₀ s := by
  subst e; exact h

/-- The branches of a condition. -/
theorem Admission.StaysLawful.ite {p : Prop} [Decidable p] {a b : Admission} (ha : a.StaysLawful n₀) (hb : b.StaysLawful n₀) :
    (if p then a else b).StaysLawful n₀ := by
  split
  · exact ha
  · exact hb

theorem LawfulLeads.ite {p : Prop} [Decidable p] {a b : Host.Outcome State Fault Refusal} (ha : LawfulLeads n₀ a)
    (hb : LawfulLeads n₀ b) : LawfulLeads n₀ (if p then a else b) := by
  split
  · exact ha
  · exact hb

end Sys2Proof.Machine
end
section
/-!
PROOFS. Every MODE stays legal: the state, the caches, the banks and the accesses in flight.
-/
namespace Sys2Proof.Machine

variable {n₀ : Nat} {s : State} {writer : Agent} {who : Asker} {write drop skip : Bool} {f : Flight} {lanes : LaneMask} {r : LineReq}
variable {cells : List (Nat × Byte)} {ks words vals : List Nat}
variable {k line id asid tid uid fid core group scope gid addr value code detail off n x cc va pte : Nat} {p : Place}
variable {sp : Space} {epc : Word}

/-! ### Teams -/

theorem Team.land_outline (t : Team) (tok owner : Nat) (f : RFile) (r : Nat) (vals : List (Nat × Nat)) (path : Option Nat) :
    (t.land tok owner f r vals path).outline = t.outline := by
  unfold Team.land
  extract_lets bits up olds t₁ t₂ before
  have h : t₂.outline = t.outline := t₁.writeOn_outline ..
  split <;> exact h

theorem Team.mark_outline (t : Team) (marks : List (RFile × Nat × Nat)) : (t.mark marks).outline = t.outline := by
  unfold Team.mark
  split <;> rfl

theorem Team.deliver_outline (t : Team) (tok : Nat) (f : RFile) (vals : List (Nat × List (Nat × Nat))) (path : Option Nat) :
    (t.deliver tok f vals path).outline = t.outline := by
  unfold Team.deliver
  exact foldl_keeps _ Team.outline (fun x c => x.land_outline ..) vals t

theorem Split.freeze_mode (p : Split) : p.freeze.mode = p.mode := by
  unfold Split.freeze
  split <;> rfl

/-- The handler split starts with MODE 0. -/
theorem Team.Lawful.enterHandler {t : Team} {p : Split} {slot : Nat} (h : t.Lawful) :
    (t.enterHandler p slot code detail lanes skip epc uid).Lawful := by
  unfold Team.enterHandler
  extract_lets d nested own hi settled u
  refine Team.Lawful.of_outline (t := u) (h.of_parts ?_ (fun q hq => h.deferred hq) ?_ rfl rfl) (Team.markWritten_outline ..)
  · intro q hq
    simp only [u] at hq
    split at hq
    · exact h.splits hq
    · obtain ⟨r, hr, rfl⟩ := List.mem_map.1 hq
      rw [Split.freeze_mode]
      exact h.splits hr
  · rintro _ ⟨⟩
    show modeReserved 0 = false
    decide

/-! ### The state -/

theorem Lawful.putBank {b : Bank} (h : Lawful n₀ s) : Lawful n₀ (s.putBank k b) := h
theorem Lawful.bankAsk (h : Lawful n₀ s) : Lawful n₀ (s.bankAsk line ks write).1 := (Alike.refl s).bankAsk.lawful h

theorem Lawful.setDir {d : DirEntry} (h : Lawful n₀ s) : Lawful n₀ (s.setDir line d) := h

theorem Lawful.recall (h : Lawful n₀ s) : Lawful n₀ (s.recall line drop) := (Alike.refl s).recall.lawful h

theorem Lawful.claim (h : Lawful n₀ s) : Lawful n₀ (s.claim line who) := h

theorem Lawful.unclaim (h : Lawful n₀ s) : Lawful n₀ (s.unclaim who) := (Alike.refl s).unclaim.lawful h

theorem Lawful.slcEvict (h : Lawful n₀ s) : Lawful n₀ (s.slcEvict line).1 := (Alike.refl s).slcEvict.lawful h

theorem Lawful.slcFill (h : Lawful n₀ s) : Lawful n₀ (s.slcFill line ks).1 := (Alike.refl s).slcFill.lawful h

theorem Lawful.accessServed {row : Nat} {line : Option (RowCell × Nat × List Nat)} (h : Lawful n₀ s) :
    Lawful n₀ (s.accessServed k row write line) := by
  unfold State.accessServed
  dsimp only
  repeat' split
  all_goals exact h

theorem Lawful.modGroup {f : Group → Group} (h : Lawful n₀ s) : Lawful n₀ (s.modGroup id f) := h
theorem Lawful.modCore {f : Core → Core} (h : Lawful n₀ s) : Lawful n₀ (s.modCore id f) := h
theorem Lawful.modCtx {f : Ctxt → Ctxt} (h : Lawful n₀ s) : Lawful n₀ (s.modCtx asid f) := h
theorem Lawful.modNode {f : Node → Node} (h : Lawful n₀ s) : Lawful n₀ (s.modNode id f) := h
theorem Lawful.modFlight {f : Flight → Flight} (h : Lawful n₀ s) : Lawful n₀ (s.modFlight id f) := h
theorem Lawful.send {m : Msg} (h : Lawful n₀ s) : Lawful n₀ (s.send m) := h
/-- The one write of bytes: it reaches main memory where the space is the global one. -/
theorem Lawful.wrCells (h : Lawful n₀ s) : Lawful n₀ (s.wrCells sp cells) := by
  unfold State.wrCells
  have h : Lawful n₀ (s.clearPoison sp cells) := ((Alike.refl s).clearPoison).lawful h
  split
  · exact h
  · exact h
  · exact h.modOutline (by intro; rfl)
  · exact h

theorem Lawful.fireLocal {core : Option Nat} (h : Lawful n₀ s) :
    Lawful n₀ (s.fireLocal core line) := by
  unfold State.fireLocal
  extract_lets hit
  split
  · exact h
  · exact Lawful.foldl h fun u a h => h.modOutline (f := fun t => t.fire a.2.2.1) fun t => t.fire_outline _

theorem Lawful.slcWrite (h : Lawful n₀ s) : Lawful n₀ (s.slcWrite cells) := (Alike.refl s).slcWrite.lawful h

theorem Lawful.endFlight (h : Lawful n₀ s) : Lawful n₀ (s.endFlight f) := by
  unfold State.endFlight
  dsimp only
  split
  · exact h
  · exact h.modOutline fun t => (Team.mark_outline ..).trans (Team.deliver_outline ..)
theorem Lawful.abandonFlight (h : Lawful n₀ s) : Lawful n₀ (s.abandonFlight fid) := by
  unfold State.abandonFlight
  split
  · exact h
  dsimp only
  split
  · exact Lawful.endFlight h
  · exact h

theorem Lawful.acquired {team : Nat} {me : Agent} (h : Lawful n₀ s) :
    Lawful n₀ (s.acquired core group team scope me) := by
  unfold State.acquired
  split <;> exact h

theorem Lawful.splitAcquires (h : Lawful n₀ s) : Lawful n₀ (s.splitAcquires tid uid scope) := by
  unfold State.splitAcquires
  split
  · exact h.acquired
  · exact h

theorem Lawful.cancelFlight (h : Lawful n₀ s) : Lawful n₀ (s.cancelFlight fid) := h
theorem Lawful.discardFence (h : Lawful n₀ s) : Lawful n₀ (s.discardFence tid uid) := by
  unfold State.discardFence
  split
  · exact h
  split
  · exact h
  split
  · exact h
  extract_lets s₁ s₂
  have h₁ : Lawful n₀ s₁ := h
  have h₂ : Lawful n₀ s₂ := by
    unfold s₂
    split
    · exact h₁.abandonFlight
    · exact h₁
  exact h₂.modSplitKeep (by intro; rfl)

theorem Lawful.conflict {core : Option Nat} (h : Lawful n₀ s) :
    Lawful n₀ (s.conflict sp line writer core) := h.foldl fun _ _ h => h.discardFence

theorem Lawful.localWrite (h : Lawful n₀ s) : Lawful n₀ (s.localWrite sp cells writer) := h.wrCells.foldl fun _ _ h => h.conflict
theorem Lawful.traceRecord (h : Lawful n₀ s) : Lawful n₀ (s.traceRecord tid uid words) := by
  unfold State.traceRecord
  split
  · exact h
  · exact h.fresh
theorem Lawful.ringWrite (h : Lawful n₀ s) : Lawful n₀ (s.ringWrite words) := by
  unfold State.ringWrite
  dsimp only
  split
  · exact h
  split
  · exact h
  · exact Lawful.slcWrite h
theorem Lawful.leaveQueues {tokens : Bool} (h : Lawful n₀ s) : Lawful n₀ (s.leaveQueues tid tokens) := h
theorem Lawful.revokeYard (h : Lawful n₀ s) : Lawful n₀ (s.revokeYard gid) := h
theorem Lawful.dropTeam (h : Lawful n₀ s) : Lawful n₀ (s.dropTeam tid) := h.of_sublist List.filter_sublist le_rfl

theorem Lawful.jcAdd (h : Lawful n₀ s) : Lawful n₀ (s.jcAdd asid addr value) := by
  unfold State.jcAdd
  split
  · exact h
  · exact h.fresh

theorem Lawful.groupPath {relaunch report : Bool} (h : Lawful n₀ s) : Lawful n₀ (s.groupPath gid code detail relaunch report) := by
  unfold State.groupPath
  split
  · exact h
  extract_lets tids s₁ s₂ s₃
  have h₃ : Lawful n₀ s₃ := h.foldl fun _ _ h => h.dropTeam
  clear_value s₃
  split
  · exact h₃
  extract_lets retry s₄
  split
  · exact h₃
  split
  · exact h₃.modNode.jcAdd.send
  · exact h₃

theorem Lawful.takeTrap {tret : Bool} (h : Lawful n₀ s) : Lawful n₀ (s.takeTrap tid uid code detail lanes skip epc tret) := by
  unfold State.takeTrap
  split
  · exact h
  split
  · exact h
  split
  · exact h.groupPath
  refine (h.foldl fun u _ h => ?_).leaveQueues.fresh.modTeam (fun _ h => h.enterHandler) (by intro; rfl)
  split
  · exact h
  · exact h.discardFence

theorem Lawful.block {i : Instr} (h : Lawful n₀ s) : Lawful n₀ (s.block tid uid i vals) := h.modSplitKeep (by intro; rfl)
theorem Lawful.putL1 {x : CacheLine} (h : Lawful n₀ s) : Lawful n₀ (s.putL1 core x) := h

theorem Lawful.slcAsk {core : Option Nat} (h : Lawful n₀ s) : Lawful n₀ (s.slcAsk line ks write core who).1 := (Alike.refl s).slcAsk.lawful h

theorem Lawful.forgetCore (h : Lawful n₀ s) : Lawful n₀ (s.forgetCore core line) := by
  unfold State.forgetCore
  dsimp only
  split <;> exact h

theorem Lawful.dropHcCopy (h : Lawful n₀ s) : Lawful n₀ (s.dropHcCopy core line) := h.forgetCore.modCore

theorem Lawful.slcSectorWrite {data : Nat} {poison : Bool} (h : Lawful n₀ s) :
    Lawful n₀ (s.slcSectorWrite line k data poison) := (Alike.refl s).slcSectorWrite.lawful h

theorem Lawful.cleanL2 (h : Lawful n₀ s) : Lawful n₀ (s.cleanL2 line).1 := (Alike.refl s).cleanL2.lawful h

theorem Lawful.dropL2 (h : Lawful n₀ s) : Lawful n₀ (s.dropL2 line) := h

theorem Lawful.l2Room (h : Lawful n₀ s) : Lawful n₀ (s.l2Room line).1 := (Alike.refl s).l2Room.lawful h

theorem Lawful.cleanL1 (h : Lawful n₀ s) : Lawful n₀ (s.cleanL1 core line).1 := by
  unfold State.cleanL1
  dsimp only
  split
  · exact h
  split
  · exact h
  split
  · split
    next e => exact .of_fst e h.l2Room
    next u e =>
      have h : Lawful n₀ u := .of_fst e h.l2Room
      exact Lawful.fireLocal (Lawful.putL1 h)
  · split
    · exact h.slcAsk
    · exact (h.slcAsk.foldl fun _ _ h => h.slcSectorWrite).putL1

theorem Lawful.dropL1 (h : Lawful n₀ s) : Lawful n₀ (s.dropL1 core line) := by
  unfold State.dropL1
  split
  · exact h.forgetCore
  · exact h.forgetCore.modCore.conflict

theorem Lawful.l1Room (h : Lawful n₀ s) : Lawful n₀ (s.l1Room core line).1 := by
  unfold State.l1Room
  dsimp only
  split
  · split
    · exact h
    split
    · split
      next e => exact (Lawful.of_fst e h.cleanL1).dropL1
      · exact h.cleanL1
    · exact h
  · split <;> exact h

theorem Lawful.needL2 (h : Lawful n₀ s) : Lawful n₀ (s.needL2 line k).1 := (Alike.refl s).needL2.lawful h

theorem Lawful.needAll {f : State → Nat → State × Bool} (h : Lawful n₀ s) (hf : ∀ u n, Lawful n₀ u → Lawful n₀ (f u n).1) :
    Lawful n₀ (s.needAll ks f).1 := h.foldl_fst fun _ _ h => hf _ _ h

theorem Lawful.placeClear (h : Lawful n₀ s) : Lawful n₀ (s.placeClear p line k) := by
  unfold State.placeClear
  dsimp only
  split
  · split
    · split
      · exact h
      · exact Lawful.modCore h
    · split <;> exact h
  · exact h
  · exact h
  · split <;> exact h

theorem Lawful.missed {who : Agent} (h : Lawful n₀ s) : Lawful n₀ (s.missed sp line who) := (Alike.refl s).missed.lawful h

theorem Lawful.redo {q : Flight} (h : Lawful n₀ s) : Lawful n₀ (s.redo q) := by
  unfold State.redo
  split <;> exact h

theorem Lawful.noticeWrite {who : Agent} (h : Lawful n₀ s) :
    Lawful n₀ (s.noticeWrite p line who) := by
  unfold State.noticeWrite
  split
  · exact h.conflict.missed
  · exact h.conflict.missed
  · exact h.missed
  · exact h.missed
  · exact h.missed

theorem Lawful.placeWr {who : Agent} (h : Lawful n₀ s) :
    Lawful n₀ (s.placeWr p line off n x who) := by
  unfold State.placeWr
  have h : Lawful n₀ (s.noticeWrite p line who) := h.noticeWrite
  dsimp only
  split
  · split
    · exact h.slcWrite
    split
    · split
      · exact h.slcWrite.putL1
      · exact h.slcWrite
    · exact h.slcWrite
  · split
    · exact h.putL1.fireLocal
    · exact h
  · split
    · exact Lawful.fireLocal h
    · exact h
  · exact h.localWrite

theorem Lawful.overlaySeen (h : Lawful n₀ s) : Lawful n₀ (s.overlaySeen core line) := by
  unfold State.overlaySeen
  refine h.foldl fun _ _ h => h.foldl fun u _ h => ?_
  repeat' split
  all_goals exact h

theorem Lawful.needL1 (h : Lawful n₀ s) : Lawful n₀ (s.needL1 core cc line k who).1 := by
  unfold State.needL1
  dsimp only
  split
  all_goals
    split
    · split <;> exact h
    · split
      next e => exact (Lawful.of_fst e h.l1Room).unclaim
      next u e =>
        have h : Lawful n₀ u := .of_fst e h.l1Room
        split
        · split
          · exact h.needL2
          · exact h.needL2.putL1
        · split
          · exact h.slcAsk
          · split
            · exact h.slcAsk.putL1.setDir.overlaySeen
            · exact h.slcAsk.putL1

/-- A page walk reads; it goes down one level at a time. -/
theorem Lawful.pteOr {bit : Nat} (h : Lawful n₀ s) : Lawful n₀ (s.pteOr pte bit who).1 := (Alike.refl s).pteOr.lawful h

theorem Lawful.translate {core : Option Nat} (h : Lawful n₀ s) : Lawful n₀ (s.translate core asid va).1 := (Alike.refl s).translate.lawful h

theorem Lawful.markDirty (h : Lawful n₀ s) : Lawful n₀ (s.markDirty pte) := h

theorem Lawful.fetch (h : Lawful n₀ s) : Lawful n₀ (s.fetch core asid va).1 := (Alike.refl s).fetch.lawful h

theorem Lawful.bringL1 (h : Lawful n₀ s) : Lawful n₀ (s.bringL1 core cc f r who).1 := by
  unfold State.bringL1
  split
  next u _ e =>
    have h : Lawful n₀ u := .of_fst e (h.needAll fun _ _ h => h.needL1)
    split
    · exact h
    split
    · split <;> exact h
    split
    next e => exact (Lawful.of_fst e h.l1Room).putL1
    next e => exact (Lawful.of_fst e h.l1Room).unclaim

theorem Lawful.prepare (h : Lawful n₀ s) : Lawful n₀ (s.prepare core f r who).1 := by
  unfold State.prepare
  dsimp only
  split
  · exact h
  split
  · split
    · split
      · exact h.needAll fun _ _ h => h.needL1
      · exact h.slcAsk
    · split
      · split
        · exact h.cleanL1.unclaim
        split
        · exact h.cleanL1.dropL1.needAll fun _ _ h => h.needL2
        split
        · exact h.cleanL1.dropL1.cleanL2.unclaim
        · exact h.cleanL1.dropL1.cleanL2.dropL2.slcAsk
      · exact h.bringL1
    · exact h.bringL1
  · exact h

theorem Lawful.performLane {a : LaneAcc} (h : Lawful n₀ s) : Lawful n₀ (s.performLane f r p a).1 := by
  unfold State.performLane
  dsimp only
  split
  · exact h.placeWr
  · split
    · exact h.placeWr
    · exact h
  · exact h.placeWr
  · exact h
  · exact h
  · exact h
  · exact h

theorem Lawful.register (h : Lawful n₀ s) : Lawful n₀ (s.register tid uid line) := by
  unfold State.register
  dsimp only
  split
  · exact Lawful.modSplitKeep (Lawful.modOutline h fun t => t.fire_outline _) (by intro; rfl)
  · exact h.modSplitKeep (by intro; rfl)

theorem Lawful.noteRead (h : Lawful n₀ s) : Lawful n₀ (s.noteRead f r) := by
  unfold State.noteRead
  split
  · exact h.modSplitKeep (by intro; rfl)
  · exact h

theorem Lawful.setD (h : Lawful n₀ s) : Lawful n₀ (s.setD f r p).1 := by
  unfold State.setD
  dsimp only
  split
  · split
    all_goals
      split
      · exact h.pteOr.markDirty
      · exact h
  · exact h

theorem Lawful.clearWhole (h : Lawful n₀ s) : Lawful n₀ (s.clearWhole f r p) := by
  unfold State.clearWhole
  split
  · exact h.foldl fun _ _ h => h.placeClear
  · exact h

theorem Lawful.performReq (h : Lawful n₀ s) : Lawful n₀ (s.performReq fid k) := by
  unfold State.performReq
  split
  · exact h
  split
  · split
    · exact h
    split
    next u _ _ e =>
      have hu : Lawful n₀ u := .of_fst e h.prepare
      split
      · exact hu
      split
      next w _ e =>
        have hw : Lawful n₀ w := .of_fst e hu.setD
        split
        · exact hw
        extract_lets ahead
        split
        next s₁ _ e =>
          have h₁ : Lawful n₀ s₁ := .of_fst e (Lawful.foldl_fst hw fun _ _ h => h.performLane)
          extract_lets s₂ s₃ s₄ s₅
          have h₂ : Lawful n₀ s₂ := h₁.clearWhole
          clear_value s₂
          have h₃ : Lawful n₀ s₃ := by
            unfold s₃
            split
            · split
              · exact h₂
              · exact h₂.register
            · exact h₂.noteRead
          have h₄ : Lawful n₀ s₄ := h₃.modFlight
          have h₅ : Lawful n₀ s₅ := by
            unfold s₅
            split
            · exact h₄.redo.acquired
            · exact h₄
          clear_value s₅
          split
          · exact h₅.overlaySeen
          · exact h₅
  · exact h

theorem Lawful.seeTurn (h : Lawful n₀ s) : Lawful n₀ (s.seeTurn fid line) := by
  unfold State.seeTurn
  split
  · exact h
  split
  · split
    · split
      · refine (h.noticeWrite.foldl ?_).fresh.modFlight
        intro u _ h
        split <;> exact h
      · exact h
    · exact h
  · exact h

theorem Lawful.performAll (h : Lawful n₀ s) : Lawful n₀ (s.performAll fid) := by
  unfold State.performAll
  split
  · exact h
  · exact h.foldl fun _ _ h => h.performReq

theorem Lawful.returnFlight (h : Lawful n₀ s) : Lawful n₀ (s.returnFlight fid) := by
  unfold State.returnFlight
  split
  · exact h
  split
  · exact h
  · exact h.endFlight

theorem Lawful.launch {owed : Option Await} (h : Lawful n₀ s) : Lawful n₀ (s.launch f owed) := by
  unfold State.launch
  dsimp only
  split
  · exact h
  · exact Lawful.modOutline h (by intro; rfl)

end Sys2Proof.Machine
end
section
/-!
PROOFS. Every MODE stays legal: issue, the formation of an access, and the instructions that access memory.
-/
namespace Sys2Proof.Machine

variable {n₀ : Nat} {s : State} {a : AccSpec} {skip write konst uniform atScope : Bool} {d : Byte} {c : Ctx} {o : FR} {g : Group}
variable {lanes : LaneMask} {lvl : Level} {vals : List Nat} {tid uid cause code detail core n x ew va path asid : Nat}
variable {res : Residence} {t : Team} {epc pc : Word}

/-! ### Teams -/

theorem Split.stop_mode (p : Split) (arming : Bool) : (p.stop arming).mode = p.mode := by
  unfold Split.stop
  extract_lets q
  have h : q.mode = p.mode := by
    unfold q
    split <;> rfl
  split <;> exact h

theorem Team.Lawful.tick {busy : Bool} (h : t.Lawful) : (t.tick busy).Lawful := by
  unfold Team.tick
  split
  · refine h.of_parts (List.forall_mem_map.2 fun q (hq : q ∈ t.splits) => ?_) (fun q hq => h.deferred hq)
      (fun q hq => h.handler hq) rfl rfl
    split
    · exact h.splits hq
    · exact (h.splits hq :)
  · exact h

theorem Team.Lawful.unlost {bays : List Nat} (h : t.Lawful) : (t.unlost bays).Lawful := by
  unfold Team.unlost
  extract_lets clear
  split
  · exact h
  have hc : ∀ p, modeReserved p.mode = false → modeReserved (clear p).mode = false := by
    intro p hp
    unfold clear
    split <;> exact hp
  exact (h.mapSplits (g := fun q => q) hc (fun _ h => h) hc).of_outline (by simp only [Team.outline, List.map_id'])

/-- What a stop leaves of a team. -/
theorem Team.Lawful.stopped {f : Split → Split} (h : t.Lawful) (hf : ∀ p, (f p).mode = p.mode) {l : List Unset} {g : Option GridSt} :
    ({ t with unset := l, splits := t.splits.map f, deferred := t.deferred.map f, handler := t.handler.map f, residence := res,
              loop := [], grid := g } : Team).Lawful :=
  have hf' : ∀ p : Split, modeReserved p.mode = false → modeReserved (f p).mode = false := fun p hp => (hf p).symm ▸ hp
  h.mapSplits hf' hf' hf'

theorem Team.settle_outline (t : Team) (uid : Nat) : (t.settle uid).outline = t.outline := by
  unfold Team.settle
  split
  · rfl
  · split <;> rfl

theorem Team.begins_outline (t : Team) (i : Instr) (uid : Nat) : (t.begins i uid).outline = t.outline := by
  unfold Team.begins
  rw [Team.modSplit_outline _ _ _ (by intro; rfl)]
  split
  · exact t.settle_outline uid
  · rfl

theorem issueTeam_outline (i : Instr) (s : State) (t : Team) (p : Split) : (issueTeam i s t p).outline = t.outline := by
  unfold issueTeam
  split
  · exact (Team.settle_outline ..).trans (s.arriving_outline t)
  split
  · rfl
  · exact s.arriving_outline t

/-! ### The state -/

theorem Lawful.flushParked (h : Lawful n₀ s) : Lawful n₀ (s.flushParked tid) := by
  unfold State.flushParked
  refine h.foldl fun u f h => ?_
  split
  · exact h
  · refine (h.modOutline fun t => ?_).modFlight
    rw [Team.mark_outline]
    exact foldl_keeps _ Team.outline (fun x c => x.land_outline ..) _ t

theorem Lawful.dropArms (h : Lawful n₀ s) : Lawful n₀ (s.dropArms tid uid) := h

theorem Lawful.stopTeam (h : Lawful n₀ s) : Lawful n₀ (s.stopTeam tid res) := by
  unfold State.stopTeam
  split
  · exact h
  split
  all_goals
    dsimp only
    refine Lawful.modTeam (Lawful.modGroup ?_) (fun _ h => h.stopped fun p => p.stop_mode _) (by intro; rfl)
    exact (h.flushParked.leaveQueues.foldl fun _ _ h => h.discardFence).foldl fun _ _ h => h.dropArms

theorem Lawful.stopRecords (h : Lawful n₀ s) : Lawful n₀ (s.stopRecords t cause) := h.foldl fun _ _ h => h.traceRecord

theorem Lawful.debugStop {trap : Option (Nat × Nat × Nat × LaneMask × Bool × Word)} (h : Lawful n₀ s) :
    Lawful n₀ (s.debugStop tid cause trap) := by
  unfold State.debugStop
  split
  · exact h
  · exact h.stopRecords.stopTeam.modOutline (by intro; rfl)

/-- A trap that is raised now; where accesses are outstanding there is none yet. -/
theorem Lawful.raise (h : Lawful n₀ s) : ∀ u, s.raise tid uid code detail lanes skip epc = some u → Lawful n₀ u := by
  unfold State.raise
  intro u e
  split at e
  · cases e; exact h
  split at e
  · cases e; exact h
  extract_lets asid stops at e
  split at e
  · cases e
  injection e with e
  subst e
  split
  · exact Lawful.debugStop (h.flushParked.modSplitKeep (by intro; rfl))
  · exact Lawful.takeTrap (h.flushParked.modSplitKeep (by intro; rfl))

theorem Lawful.poisonHit {reg : RFile × Nat} (h : Lawful n₀ s) : Lawful n₀ (s.poisonHit tid uid reg) := by
  unfold State.poisonHit
  split
  · exact h
  split
  · split
    · split
      · split
        · exact h
        · have hq : modeReserved _ = false := (h.team ‹_›).region ‹_›
          refine (h.flushParked.leaveQueues.discardFence.foldl fun _ _ h => h.abandonFlight).modTeam
            (fun _ h => ⟨fun p hp => ?_, ?_, List.forall_mem_nil _⟩) (by intro; rfl)
          · rcases List.mem_cons.1 hp with rfl | hp
            · exact hq
            · exact h.1 p (List.mem_append_right _ hp)
          · rintro _ ⟨⟩
            exact hq
      · exact h.groupPath
    · exact h.groupPath
  · exact h.groupPath

theorem Lawful.cycleOn (h : Lawful n₀ s) : Lawful n₀ (s.cycleOn core) := by
  refine h.mapTeams rfl le_rfl (fun t _ h => ?_) fun t => ?_
  · split
    · exact h.tick.unlost
    · exact h
  · split
    · exact (Team.unlost_id ..).trans (Team.tick_id ..)
    · rfl

theorem Lawful.passCycles (h : Lawful n₀ s) : Lawful n₀ (s.passCycles core n) := by
  induction n generalizing s with
  | zero => exact h
  | succ n ih => exact ih h.cycleOn

theorem Lawful.book {weight : Nat} (h : Lawful n₀ s) : Lawful n₀ (s.book c weight) := by
  unfold State.book
  split
  · exact h
  · exact h.modCore.modOutline (by intro; rfl)

theorem Lawful.account (h : Lawful n₀ s) : Lawful n₀ (s.account c) := h.book

theorem Lawful.gateOf {i : Instr} {p : Split} (h : Lawful n₀ s) (ht : s.team? t.id = some t) (hp : t.split? p.uid = some p) :
    (gateOf i s t p g).StaysLawful n₀ := by
  unfold Machine.gateOf
  extract_lets marked c
  refine .ite h (.ite h (.ite trivial ?_))
  iterate 2 (split; · exact trivial)
  refine .ite trivial (.ite h (.ite h (.ite h (.ite h ?_))))
  split
  · exact trivial
  split
  · exact h.poisonHit
  · refine ⟨h.modOutline fun x => x.begins_outline i p.uid, ?_⟩
    refine ⟨(h.team ht).of_outline (issueTeam_outline ..), (h.team ht).split? hp, fun x hx => ?_⟩
    have hid : (mkCtx i (issueTeam i s t p) p g s.nonce).tid = t.id := issueTeam_id ..
    have hm : (s.modTeam t.id fun x => x.begins i p.uid).team? t.id = some (t.begins i p.uid) := issueState_team i p ht
    have hu : x = t.begins i p.uid := Option.some.inj (hx.symm.trans (hid ▸ hm))
    calc x.sstatLo = t.sstatLo := hu ▸ congrArg TeamOutline.sstatLo (t.begins_outline i p.uid)
      _ = _ := (congrArg TeamOutline.sstatLo (issueTeam_outline ..)).symm

theorem Lawful.gate {i : Instr} (h : Lawful n₀ s) : (gate i s).StaysLawful n₀ := by
  unfold Machine.gate
  split
  · exact trivial
  split
  · exact trivial
  next t ht =>
  split
  next p _ hp _ =>
    obtain rfl : t.id = _ := State.team?_id ht
    obtain rfl : p.uid = _ := Team.split?_uid hp
    exact h.gateOf ht hp
  · exact trivial

theorem Lawful.advance (h : Lawful n₀ s) : Lawful n₀ (s.advance c) := h.modSplitKeep (by intro; rfl)
theorem Lawful.goto (h : Lawful n₀ s) : Lawful n₀ (s.goto c pc) := h.modSplitKeep (by intro; rfl)

/-- The end of an issue: the effect counts, jumps, traps or waits. -/
theorem Lawful.finish {r : Res} (h : Lawful n₀ s) (hr : r.StaysLawful n₀) : Lawful n₀ (finish s c r) := by
  cases r with
  | done t => exact (Lawful.advance hr).account
  | jump t => exact Lawful.account hr
  | nested t code =>
    unfold Machine.finish
    dsimp only
    split
    · exact Lawful.book hr
    · exact Lawful.account hr
  | trap t code detail lanes skip =>
    unfold Machine.finish
    dsimp only
    split
    next u e =>
      have h : Lawful n₀ u := Lawful.raise hr u e
      split
      · exact h.book
      · exact h.account
    · exact h
  | hold t => exact Lawful.modSplitKeep hr (by intro; rfl)

theorem Lawful.gateTrap (h : Lawful n₀ s) : Lawful n₀ (s.gateTrap c code detail lanes) := by
  have h₁ : Lawful n₀ (s.modSplit c.tid c.uid fun p => { p with landCheck := false }) := h.modSplitKeep fun _ => rfl
  exact (h₁.modSplitKeep (by intro; rfl)).getD h₁.raise

/-- An instruction keeps the invariant where its effect does, in whatever state and context the gate admits it. -/
theorem Lawful.issue_of {i : Instr} {body : State → Ctx → Res} (h : Lawful n₀ s)
    (hbody : ∀ u c, Lawful n₀ u → IssueFacts u c → (body u c).StaysLawful n₀) : LawfulLeads n₀ (issue i s body) := by
  unfold Machine.issue
  split
  · exact trivial
  next e => exact Admission.StaysLawful.of_eq e h.gate
  · exact h.gateTrap
  next u _ e =>
    obtain ⟨hu, hc⟩ := Admission.StaysLawful.of_eq e h.gate
    exact h.finish (hbody _ _ hu hc)

/-- The same for an effect that keeps the invariant in every context. -/
theorem Lawful.issue {i : Instr} {body : State → Ctx → Res} (h : Lawful n₀ s) (hbody : ∀ u c, Lawful n₀ u → (body u c).StaysLawful n₀) :
    LawfulLeads n₀ (issue i s body) := h.issue_of fun u c hu _ => hbody u c hu

theorem Lawful.wrField {vals : List (Nat × Nat)} (h : Lawful n₀ s) : Lawful n₀ (s.wrField c x ew vals) := by
  refine h.modOutline fun t => ?_
  split
  · exact t.write_outline ..
  · exact t.write_outline ..
theorem Lawful.wrG {x : Byte} (h : Lawful n₀ s) : Lawful n₀ (s.wrG c x vals) :=
  h.modOutline fun t => foldl_keeps _ Team.outline (fun x _ => x.write_outline ..) _ t
theorem Lawful.wrM {r : Nat} {x : LaneMask} (h : Lawful n₀ s) : Lawful n₀ (s.wrM c r x) := h.modOutline fun t => t.write_outline ..
theorem Lawful.wrB {r : Nat} {x : BufRec} (h : Lawful n₀ s) : Lawful n₀ (s.wrB c r x) := h.modOutline fun t => t.write_outline ..

theorem Lawful.complete (h : Lawful n₀ s) : Lawful n₀ (s.complete tid uid) := by
  unfold State.complete
  split
  · exact h
  split
  · exact h.modSplitKeep (by intro; rfl)
  · exact h

theorem Lawful.blocked (h : Lawful n₀ s) : (Ctx.blocked c s vals).StaysLawful n₀ := h.block.account

theorem Lawful.reportFault {f : FaultMsg} (h : Lawful n₀ s) : Lawful n₀ (s.reportFault f) := by
  unfold State.reportFault
  split
  · exact Lawful.send (Lawful.of_teams h rfl (Nat.le_succ _))
  · exact h

theorem Lawful.parkSplit {kind : ParkKind} (h : Lawful n₀ s) : Lawful n₀ (s.parkSplit c kind va path write) :=
  (h.modSplitKeep (by intro; rfl)).reportFault

theorem Lawful.lineOf {core : Option Nat} {need : Need} (h : Lawful n₀ s) : Lawful n₀ (s.lineOf core asid va need).1 := by
  unfold State.lineOf
  dsimp only
  split
  next e => exact .of_fst e h.translate
  next e => exact .of_fst e h.translate
  next u _ e =>
    have h : Lawful n₀ u := .of_fst e h.translate
    split
    · exact h
    split
    · exact h
    split
    · exact h
    · split <;> exact h

theorem Lawful.formLines {lines : List (Nat × List LaneAcc)} {suppressed : List Nat} (h : Lawful n₀ s) :
    (s.formLines c a lines suppressed).StaysLawful n₀ := by
  unfold State.formLines
  dsimp only
  split
  · exact h.foldl_fst fun _ _ h => h.lineOf
  split
  · exact h.foldl_fst fun _ _ h => h.lineOf
  split
  · exact h.foldl_fst fun _ _ h => h.lineOf
  · split <;> exact h.foldl_fst fun _ _ h => h.lineOf

theorem Lawful.formGlobal {r : BufRec} {idx : List (Nat × LaneAcc)} (h : Lawful n₀ s) : (s.formGlobal c a r konst idx).StaysLawful n₀ := by
  unfold State.formGlobal
  iterate 2 (split; · exact h)
  extract_lets addrs out s₁ ins mis
  have h₁ : Lawful n₀ s₁ := by
    unfold s₁
    split
    · exact h
    · exact h.modOutline (by intro; rfl)
  split
  · exact h
  split
  · exact h₁
  split
  · exact h₁
  · exact h₁.formLines

theorem Lawful.formLocal {disp align : Nat} {bases : List (Nat × LaneAcc)} (h : Lawful n₀ s) :
    (s.formLocal c lvl disp n align write uniform bases).StaysLawful n₀ := by
  unfold State.formLocal
  dsimp only
  split
  · exact h
  · split <;> exact h

/-- An access leaves for its lines as its formation ended. -/
theorem Formed.StaysLawful.depart {f : Formed} {owed : Option Owed} {mk : Flight → Flight} (h : f.StaysLawful n₀) :
    (depart c a f owed mk).StaysLawful n₀ := by
  cases f with
  | trap s code detail lanes => exact h
  | hold s => exact h
  | dead s code => exact Lawful.groupPath h
  | ok s suppressed reqs =>
    replace h : Lawful n₀ s := h
    unfold Machine.depart
    dsimp only
    generalize (if a.path = 1 then reqs.length else 1) = entries
    split
    · exact h
    split
    · exact h
    split
    · exact h.fresh.launch.parkSplit
    · exact h.fresh.launch

theorem Lawful.onPath {f : Unit → Res} (h : Lawful n₀ s) (hf : ∀ x, (f x).StaysLawful n₀) : (s.onPath c path f).StaysLawful n₀ := by
  unfold State.onPath
  split
  · exact h
  · exact hf _

theorem Lawful.globalLoad {o : FMem} (h : Lawful n₀ s) :
    (globalLoad s c o path konst atScope).StaysLawful n₀ := h.onPath fun _ => h.formGlobal.depart

theorem Lawful.globalStore {o : FMem} (h : Lawful n₀ s) :
    (globalStore s c o atScope).StaysLawful n₀ := h.onPath fun _ => h.formGlobal.depart

theorem Lawful.execBnar (h : Lawful n₀ s) : LawfulLeads n₀ (execBnar o s) := by
  refine h.issue fun u _ h => ?_
  split
  · exact h
  · exact h.wrB

theorem Lawful.promoteAt {a : Byte} {mk : Nat → Nat → BankReq} (h : Lawful n₀ s) : (promoteAt s c d a mk).StaysLawful n₀ := by
  unfold Machine.promoteAt
  dsimp only
  split
  next e => exact .of_fst e h.lineOf
  next e => exact (Lawful.of_fst e h.lineOf).groupPath
  next e => exact (Lawful.of_fst e h.lineOf).parkSplit
  next e => exact .of_fst e h.lineOf
  next e => exact .of_fst e h.lineOf
  next u _ _ _ e =>
    have h : Lawful n₀ u := .of_fst e h.lineOf
    split
    · exact h.wrG
    · split
      · exact h
      · exact h.fresh.putBank.modOutline (by intro; rfl)
    · exact h

theorem Lawful.localLoad {o : FL} (h : Lawful n₀ s) : (localLoad s c o lvl).StaysLawful n₀ := h.onPath fun _ => h.formLocal.depart
theorem Lawful.localStore {o : FL} (h : Lawful n₀ s) : (localStore s c o lvl).StaysLawful n₀ := h.onPath fun _ => h.formLocal.depart

theorem Lawful.execAtagg {o : FMem} (h : Lawful n₀ s) : LawfulLeads n₀ (execAtagg o s) := by
  refine h.issue fun u c h => h.onPath fun _ => ?_
  dsimp only
  split
  next u' _ _ e =>
    have h' : Lawful n₀ u' := Formed.StaysLawful.of_eq e h.formGlobal
    split
    · exact Formed.StaysLawful.depart (f := .ok _ [] []) (h'.modOutline (by intro; rfl))
    · exact h.formGlobal.depart
  · exact h.formGlobal.depart

theorem Lawful.disarm (h : Lawful n₀ s) : Lawful n₀ (s.disarm tid uid) := h.modSplitKeep (by intro; rfl)

theorem Lawful.execWaitmon {o : FI} (h : Lawful n₀ s) : LawfulLeads n₀ (execWaitmon o s) := by
  refine h.issue fun u _ h => ?_
  split
  · exact h
  split
  · exact h.wrG.disarm
  · exact h.wrG
  · exact h.modSplitKeep (by intro; rfl)

theorem Lawful.fenceAt {kind : Nat} {o : FFence} (h : Lawful n₀ s) : (fenceAt s c kind o).StaysLawful n₀ := by
  unfold Machine.fenceAt
  split
  · exact h
  · exact h.modSplitKeep (by intro; rfl)

theorem Lawful.execCmaint {o : FI} (h : Lawful n₀ s) : LawfulLeads n₀ (execCmaint o s) := by
  refine h.issue fun u c h => ?_
  dsimp only
  split
  · exact h
  refine h.onPath fun _ => ?_
  split
  · exact Formed.StaysLawful.depart h
  split
  next e => exact .of_fst e h.lineOf
  next e => exact .of_fst e h.lineOf
  next e => exact .of_fst e h.lineOf
  next e => exact Formed.StaysLawful.depart (Lawful.of_fst e h.lineOf)
  next e => exact Formed.StaysLawful.depart (Lawful.of_fst e h.lineOf)

end Sys2Proof.Machine
end

section
/-!
PROOFS. Every MODE stays legal: what control flow does to a team. A join record gives back the MODE of the split that diverged
(R300, R301), a spill entry keeps it whole (R299), and TRET restores the one that it has checked (R358).
-/
namespace Sys2Proof.Machine

variable {t : Team} {p : Split} {uid j n k slot : Nat} {r : JoinRec} {c : Ctx} {next : Word}

/-- A MODE that R30 allows fits the 21 bits that a spill entry has for it. -/
theorem mode_lt {x : Word} (h : modeReserved x = false) : x.toNat < 2 ^ 21 := by
  simp only [modeReserved, Bool.or_eq_false_iff, decide_eq_false_iff_not] at h
  exact Nat.lt_of_not_le h.2

/-- The entry holds MODE in bits 30 to 50. -/
theorem Split.entryWord_mode (p : Split) : p.entryWord.toNat / 2 ^ 30 % 2 ^ 21 = p.mode.toNat % 2 ^ 21 := by
  unfold Split.entryWord
  have hpc : p.pc.toNat / 4 < 2 ^ 30 := by have := p.pc.isLt; omega
  extract_lets mon st
  generalize p.pc.toNat / 4 = a at hpc ⊢
  generalize (p.pj.getD 0).toNat / 4 = b
  rw [BitVec.toNat_ofNat]
  omega

theorem Split.spill_mode (h : modeReserved p.mode = false) : p.spill.mode = p.mode := by
  show BitVec.ofNat 32 (p.entryWord.toNat / 2 ^ 30 % 2 ^ 21) = p.mode
  rw [Split.entryWord_mode, Nat.mod_eq_of_lt (mode_lt h), BitVec.ofNat_toNat, BitVec.setWidth_eq]

/-! ### Join records -/

theorem Team.Lawful.freeJoin (h : t.Lawful) : (t.freeJoin j).Lawful :=
  ⟨h.1, h.2.1, fun e he => h.2.2 e (List.mem_of_mem_filter he)⟩

theorem Team.Lawful.modJoin {f : JoinRec → JoinRec} (h : t.Lawful)
    (hf : ∀ r, modeReserved r.smode = false → modeReserved (f r).smode = false) : (t.modJoin j f).Lawful := by
  refine ⟨h.1, h.2.1, List.forall_mem_map.2 fun e he => ?_⟩
  split
  · exact hf _ (h.2.2 e he)
  · exact h.2.2 e he

/-- The merged split takes the MODE that the record has saved. -/
theorem Team.Lawful.completeMerge (h : t.Lawful) (hr : modeReserved r.smode = false) : (t.completeMerge j r k).Lawful :=
  (h.modSplit fun _ _ => hr).freeJoin

theorem Team.Lawful.memberGone {o : Option Nat} {fuel : List Nat} (h : t.Lawful) : (t.memberGone o fuel).Lawful := by
  induction fuel generalizing t o with
  | nil => exact h
  | cons _ fuel ih =>
    unfold Team.memberGone
    split
    · exact h
    next k r e =>
      have hr : modeReserved r.smode = false := by
        obtain ⟨i, -, e⟩ := Option.bind_eq_some_iff.1 e
        obtain ⟨q, hq, e⟩ := Option.map_eq_some_iff.1 e
        cases e
        exact h.joinRec? hq
      extract_lets r' t'
      have ht : t'.Lawful := h.modJoin fun _ _ => hr
      split
      · exact ht
      split
      · exact ht.completeMerge hr
      · exact ih ht.freeJoin

/-! ### The split table -/

theorem Team.Lawful.reloadAt (h : t.Lawful) (hp : modeReserved p.mode = false) : (t.reloadAt p slot).Lawful := by
  unfold Team.reloadAt
  extract_lets u
  have hu : u.Lawful := by
    refine h.of_parts (fun q hq => ?_) (fun q hq => h.deferred hq) (fun q hq => h.handler hq) rfl rfl
    rcases List.mem_append.1 hq with hq | hq
    · exact h.splits hq
    · cases List.mem_singleton.1 hq
      exact hp
  split
  · exact hu.of_outline (Team.wake_outline ..)
  · exact hu

theorem Team.Lawful.reloadFree {fuel : List Nat} (h : t.Lawful) : (t.reloadFree fuel).Lawful := by
  induction fuel generalizing t with
  | nil => exact h
  | cons _ fuel ih =>
    unfold Team.reloadFree
    split
    next d ds k e _ =>
      have hd : ∀ q ∈ d :: ds, modeReserved q.mode = false := fun q hq => h.deferred (e ▸ hq)
      refine ih (Team.Lawful.reloadAt ?_ (hd d List.mem_cons_self))
      exact h.of_parts (fun q hq => h.splits hq) (fun q hq => hd q (List.mem_cons_of_mem _ hq)) (fun q hq => h.handler hq) rfl rfl
    · exact h

theorem Team.Lawful.removeSplit (h : t.Lawful) : (t.removeSplit uid).Lawful :=
  (h.of_parts (x := { t with splits := t.splits.filter fun p => p.uid ≠ uid }) (fun _ hq => h.splits (List.mem_of_mem_filter hq))
    (fun _ hq => h.deferred hq) (fun _ hq => h.handler hq) rfl rfl).reloadFree

theorem Team.Lawful.arrive (h : t.Lawful) (hr : modeReserved r.smode = false) : (t.arrive p j r).Lawful := by
  unfold Team.arrive
  extract_lets r₁ r₂ u
  split
  · have hu : u.Lawful := Team.Lawful.modJoin (h.modSplitKeep (by intro; rfl)) fun _ _ => hr
    split
    · exact hu.completeMerge hr
    · exact hu
  · extract_lets away u v
    have hu : u.Lawful := Team.Lawful.modSplitKeep (h.modJoin fun _ _ => hr) (by intro; rfl)
    have hv : v.Lawful := by
      unfold v
      split
      · exact hu.completeMerge hr
      · exact hu
    exact hv.removeSplit

theorem Team.Lawful.flip (h : t.Lawful) : (t.flip n).Lawful := by
  unfold Team.flip
  extract_lets f
  split
  · have hf : ∀ p, modeReserved p.mode = false → modeReserved (f p).mode = false := by
      intro p hp
      unfold f
      split <;> exact hp
    exact h.of_parts (List.forall_mem_map.2 fun q hq => hf q (h.splits hq)) (List.forall_mem_map.2 fun q hq => hf q (h.deferred hq))
      (fun q hq => h.handler hq) rfl rfl
  · exact h

/-- A split that a divergence makes has the MODE of the one that diverged. -/
theorem newSplits_mode {cycle : Nat} {jlink : Option Nat} {parts : List Part} {slots : List Nat} {id age : Nat} {q : Split × Bool}
    (hq : q ∈ newSplits c cycle jlink parts slots id age) : q.1.mode = c.sp.mode := by
  induction parts generalizing slots id age with
  | nil => cases hq
  | cons p ps ih =>
    unfold newSplits at hq
    rcases List.mem_cons.1 hq with rfl | hq
    · rfl
    · exact ih hq

/-! ### Team names -/

theorem Team.unfreeze_outline (t : Team) : t.unfreeze.outline = t.outline := by
  refine foldl_keeps _ Team.outline (fun x p => ?_) _ _
  split
  · split
    · exact x.wake_outline ..
    · rfl
  · rfl

theorem Team.reloadAt_id (t : Team) (p : Split) (slot : Nat) : (t.reloadAt p slot).id = t.id := by
  unfold Team.reloadAt
  extract_lets u
  split
  · exact congrArg TeamOutline.id (u.wake_outline ..)
  · rfl

@[simp] theorem Team.reloadFree_id (t : Team) (fuel : List Nat) : (t.reloadFree fuel).id = t.id := by
  induction fuel generalizing t with
  | nil => rfl
  | cons _ fuel ih =>
    unfold Team.reloadFree
    split
    · rw [ih, Team.reloadAt_id]
    · rfl

theorem Team.removeSplit_id (t : Team) (uid : Nat) : (t.removeSplit uid).id = t.id := Team.reloadFree_id ..

theorem Team.memberGone_id (t : Team) (o : Option Nat) (fuel : List Nat) : (t.memberGone o fuel).id = t.id := by
  induction fuel generalizing t o with
  | nil => rfl
  | cons _ fuel ih =>
    unfold Team.memberGone
    split
    · rfl
    extract_lets r' t'
    split
    · rfl
    split
    · rfl
    · exact ih ..

theorem Team.arrive_id (t : Team) (p : Split) (j : Nat) (r : JoinRec) : (t.arrive p j r).id = t.id := by
  unfold Team.arrive
  extract_lets r₁ r₂ u
  split
  · split <;> rfl
  · rw [Team.removeSplit_id]
    split <;> rfl

theorem Team.flip_id (t : Team) (n : Nat) : (t.flip n).id = t.id := by
  unfold Team.flip
  split <;> rfl

theorem Team.leaveHandler_id (t : Team) (next : Word) : (t.leaveHandler next).id = t.id := by
  unfold Team.leaveHandler
  extract_lets u slot away back after
  split
  · rfl
  · exact congrArg TeamOutline.id (Team.unfreeze_outline _)

/-! ### Handlers and special registers -/

theorem Team.Lawful.leaveHandler (h : t.Lawful) (hm : modeReserved t.sstatLo = false) : (t.leaveHandler next).Lawful := by
  unfold Team.leaveHandler
  extract_lets u slot away back after
  split
  · refine h.of_parts (fun q hq => h.splits hq) (fun q hq => h.deferred hq) (fun q hq => ?_) rfl rfl
    obtain ⟨y, -, rfl⟩ := Option.map_eq_some_iff.1 hq
    exact hm
  · refine Team.Lawful.of_outline ?_ (Team.unfreeze_outline _)
    have hc : ∀ (b : Prop) [Decidable b] {q : Split}, modeReserved q.mode = false →
        modeReserved (after (if b then back q else q)).mode = false := by
      intro b _ q hq
      unfold after
      split
      · exact hm
      · exact hq
    exact h.of_parts (List.forall_mem_map.2 fun q hq => hc _ (h.splits hq)) (List.forall_mem_map.2 fun q hq => hc _ (h.deferred hq))
      (by intro q hq; cases hq) rfl rfl

theorem Team.Lawful.setSpecial {x : Word} (h : t.Lawful) : (t.setSpecial n x).Lawful := by
  unfold Team.setSpecial
  split <;> exact h

theorem Team.setSpecial_id (t : Team) (n : Nat) (x : Word) : (t.setSpecial n x).id = t.id := by
  unfold Team.setSpecial
  split <;> rfl

/-- What an instruction knows of its team it knows still where the teams are alike. -/
theorem IssueFacts.alike {s u : State} (h : IssueFacts s c) (e : Alike s u) : IssueFacts u c := by
  obtain ⟨ht, hm, hl⟩ := h
  refine ⟨ht, hm, fun x hx => ?_⟩
  have ho := e.team?_outline c.tid
  rw [hx, Option.map_some, eq_comm, Option.map_eq_some_iff] at ho
  obtain ⟨y, hy, ho⟩ := ho
  exact (congrArg TeamOutline.sstatLo ho).symm.trans (hl y hy)

end Sys2Proof.Machine
end

section
/-!
PROOFS. Every MODE stays legal: control flow, pools, placement and the system instructions.
-/
namespace Sys2Proof.Machine

variable {n₀ : Nat} {s : State} {rounds : Bool} {d : Byte} {c : Ctx} {o : FR} {lanes : LaneMask}
variable {gid n tid ew group x asid va core quad code detail uid : Nat} {target pc : Word}

theorem Lawful.branchRecord {slot : Nat} (h : Lawful n₀ s) : Lawful n₀ (s.branchRecord c slot target) := by
  unfold State.branchRecord
  split
  · exact h.traceRecord
  · exact h

theorem Lawful.transfer (h : Lawful n₀ s) : Lawful n₀ (s.transfer c target) := (h.modSplitKeep (by intro; rfl)).branchRecord.goto

theorem Lawful.branchIf {taken : Bool} (h : Lawful n₀ s) : (branchIf s c taken target).StaysLawful n₀ := by
  unfold Machine.branchIf
  split
  · exact h.transfer
  · exact h

theorem Lawful.flipIfFull (h : Lawful n₀ s) : Lawful n₀ (s.flipIfFull gid n) := by
  unfold State.flipIfFull
  dsimp only
  split
  · exact h
  split
  · refine Lawful.foldl (h.mapTeams (f := fun t => if t.group = gid then t.flip n else t) rfl le_rfl (fun t _ h => ?_) fun t => ?_)
      fun _ _ h => h.splitAcquires
    · split
      · exact h.flip
      · exact h
    · split
      · exact Team.flip_id ..
      · rfl
  · exact h

theorem Lawful.barrierCheck (h : Lawful n₀ s) : Lawful n₀ (s.barrierCheck tid) := by
  unfold State.barrierCheck
  dsimp only
  iterate 3 (split; · exact h)
  split
  · exact (h.modOutline (by intro; rfl)).modGroup.flipIfFull
  · exact (h.modSplitKeep (by intro; rfl)).getD (h.modSplitKeep (by intro; rfl)).raise

theorem Lawful.execBar {o : FI} (h : Lawful n₀ s) : LawfulLeads n₀ (execBar o s) := by
  refine h.issue fun u _ h => ?_
  split
  · exact h
  · exact (h.modSplitKeep (by intro; rfl)).barrierCheck

theorem Lawful.execJoin {o : FN} (h : Lawful n₀ s) : LawfulLeads n₀ (execJoin o s) := by
  refine h.issue_of fun u c h hc => ?_
  split
  · exact h
  next j r e =>
  have hr : modeReserved r.smode = false := by
    obtain ⟨i, -, e⟩ := Option.bind_eq_some_iff.1 e
    obtain ⟨q, hq, e⟩ := Option.map_eq_some_iff.1 e
    cases e
    exact hc.team.joinRec? hq
  split
  · exact h
  split
  · exact h
  · have hv : Lawful n₀ (u.modTeam c.tid fun t => t.arrive c.sp j r) := h.modTeam (fun _ h => h.arrive hr) fun t => t.arrive_id ..
    exact Lawful.barrierCheck hv

theorem Lawful.endTeam (h : Lawful n₀ s) : Lawful n₀ (s.endTeam tid pc) := by
  unfold State.endTeam
  split
  · exact h
  split
  · exact h
  extract_lets handle s₁ s₂ s₃ s₄
  have h₁ : Lawful n₀ s₁ := by
    unfold s₁
    split
    · exact h.traceRecord
    · exact h
  have h₃ : Lawful n₀ s₃ := Lawful.foldl h₁ fun _ _ h => h.abandonFlight
  have h₄ : Lawful n₀ s₄ := h₃.modTeam
    (fun _ h => ⟨fun _ hq => (List.not_mem_nil hq).elim, h.2.1, List.forall_mem_nil _⟩) (by intro; rfl)
  generalize List.range 16 = l
  exact Lawful.foldl h₄ fun _ _ h => h.flipIfFull

theorem Lawful.execExit {o : FN} (h : Lawful n₀ s) : LawfulLeads n₀ (execExit o s) := by
  refine h.issue fun u _ h => ?_
  extract_lets +onlyGivenNames v
  have hv : Lawful n₀ v := h.modOutline (by intro; rfl)
  split
  · exact hv.endTeam
  extract_lets w
  have hw : Lawful n₀ w := hv.disarm.modTeam (fun _ h => Team.Lawful.memberGone (Team.Lawful.removeSplit h)) fun t =>
    (Team.memberGone_id ..).trans (Team.removeSplit_id ..)
  split
  · exact hw
  split
  · exact hw.endTeam
  · exact hw.barrierCheck

theorem Lawful.diverge {parts : List Part} (h : Lawful n₀ s) (hc : modeReserved c.sp.mode = false) : (diverge s c parts).StaysLawful n₀ := by
  unfold Machine.diverge
  split
  · exact h
  next t ht =>
  extract_lets k j link free new first s₁ s₂
  iterate 3 (split; · exact h)
  have hn : ∀ q ∈ new, modeReserved q.1.mode = false := fun q hq => newSplits_mode hq ▸ hc
  have h₁ : Lawful n₀ s₁ := h.of_teams rfl (Nat.le_add_right _ _)
  have h₂ : Lawful n₀ s₂ := by
    refine h₁.modTeam (fun x hx => ?_) fun x => ?_
    · extract_lets y
      have hy : y.Lawful := by
        refine hx.of_parts (fun q hq => ?_) (fun q hq => ?_) (fun q hq => hx.handler hq) rfl rfl
        · rcases List.mem_append.1 hq with hq | hq
          · obtain ⟨r, hr, rfl⟩ := List.mem_map.1 hq
            exact (hx.splits (List.mem_of_mem_filter hr) :)
          · obtain ⟨r, hr, rfl⟩ := List.mem_map.1 hq
            exact hn r (List.mem_of_mem_filter hr)
        · rcases List.mem_append.1 hq with hq | hq
          · obtain ⟨r, hr, rfl⟩ := List.mem_map.1 hq
            exact (hx.deferred hr :)
          · obtain ⟨r, hr, rfl⟩ := List.mem_map.1 hq
            have hm := hn r (List.mem_of_mem_filter hr)
            exact (Split.spill_mode hm).symm ▸ hm
      split
      · refine ⟨hy.1, hy.2.1, fun e he => ?_⟩
        rcases List.mem_append.1 he with he | he
        · exact hy.2.2 e he
        · cases List.mem_singleton.1 he
          exact hc
      split
      · exact hy.modJoin fun _ h => h
      · exact hy
    · extract_lets y
      split
      · rfl
      · split <;> rfl
  refine Lawful.foldl h₂ fun u _ h => ?_
  split
  · exact h
  · exact h.branchRecord

theorem Lawful.consumeJoin (h : Lawful n₀ s) : Lawful n₀ (s.consumeJoin c) := h.modSplitKeep (by intro; rfl)

theorem Lawful.execBrm {o : FJM} (h : Lawful n₀ s) : LawfulLeads n₀ (execBrm o s) := by
  refine h.issue_of fun u _ h hc => ?_
  dsimp only
  split
  · exact h.consumeJoin
  split
  · exact h.consumeJoin.goto
  · exact h.diverge hc.mode

theorem Lawful.landing (h : Lawful n₀ s) : Lawful n₀ (s.landing c target).1 := by
  have hf : Lawful n₀ (s.fetch c.core c.grp.asid (c.grp.codeBase + target.toNat)).1 := h.fetch
  unfold State.landing
  generalize s.fetch c.core c.grp.asid (c.grp.codeBase + target.toNat) = r at hf ⊢
  obtain ⟨u, f⟩ := r
  cases f <;> exact hf

theorem Lawful.execJmpi (h : Lawful n₀ s) : LawfulLeads n₀ (execJmpi o s) := by
  refine h.issue_of fun u c h hc => ?_
  split
  · exact h.consumeJoin
  extract_lets +onlyGivenNames tg mis targets
  split
  next w _ e =>
    have hw : Lawful n₀ w := .of_fst e (Lawful.foldl_fst h fun _ _ h => h.landing)
    extract_lets +onlyGivenNames is bad
    split
    · exact hw
    split
    · exact hw
    rcases targets with _ | ⟨x, _ | _⟩
    · exact hw.diverge hc.mode
    · exact (hw.consumeJoin.modSplitKeep (by intro; rfl)).transfer
    · exact hw.diverge hc.mode

theorem Lawful.execCalli (h : Lawful n₀ s) : LawfulLeads n₀ (execCalli o s) := by
  refine h.issue fun u _ h => ?_
  dsimp only
  split
  · exact h
  split
  next e => exact .of_fst e h.landing
  next e => exact .of_fst e h.landing
  next e => exact ((Lawful.of_fst e h.landing).wrG.modSplitKeep (by intro; rfl)).transfer

theorem Lawful.execRet {o : FN} (h : Lawful n₀ s) : LawfulLeads n₀ (execRet o s) := by
  refine h.issue fun u _ h => ?_
  dsimp only
  split
  · exact h
  · exact h.transfer

theorem Lawful.arith {rows : List (Nat × Nat × Nat)} (h : Lawful n₀ s) : (arith s c d n ew group rows).StaysLawful n₀ := by
  unfold Machine.arith
  dsimp only
  split
  · split
    · exact h
    · exact h.modOutline (by intro; rfl)
  split
  · exact h.foldl fun _ _ h => h.wrField
  · exact (h.modOutline (by intro; rfl)).foldl fun _ _ h => h.wrField

theorem Lawful.lanewise {f : Nat → Nat → Nat × Nat} (h : Lawful n₀ s) : (lanewise s c d f).StaysLawful n₀ := h.arith

theorem Lawful.drawing (h : Lawful n₀ s) : Lawful n₀ (s.drawing c rounds) := by
  unfold State.drawing
  split
  · exact h.modOutline (by intro; rfl)
  · exact h

theorem Lawful.shuffle {cross : Bool} (h : Lawful n₀ s) : (shuffle s c o cross).StaysLawful n₀ := h.arith
theorem Lawful.broadcast (h : Lawful n₀ s) : (broadcast s c d x).StaysLawful n₀ := h.arith

theorem Lawful.execTred {o : FI} (h : Lawful n₀ s) : LawfulLeads n₀ (execTred o s) := by
  refine h.issue fun u _ h => ?_
  dsimp only
  split
  · split
    all_goals
      split
      · exact h.drawing
      · exact h.drawing.modOutline (by intro; rfl)
  · split
    all_goals
      split
      · exact h.drawing.foldl fun _ _ h => h.wrField
      · exact (h.drawing.modOutline (by intro; rfl)).foldl fun _ _ h => h.wrField

theorem Lawful.dispLine {lo hi : Nat} (h : Lawful n₀ s) : Lawful n₀ (s.dispLine asid va lo hi).1 := by
  unfold State.dispLine
  split
  next e => exact .of_fst e h.lineOf
  next u _ _ _ e =>
    have h : Lawful n₀ u := .of_fst e h.lineOf
    split
    next u _ e =>
      have h : Lawful n₀ u := .of_fst e h.slcAsk
      split
      · exact h
      · split <;> exact h
  next e => exact .of_fst e h.lineOf

theorem Lawful.dispRead (h : Lawful n₀ s) : Lawful n₀ (s.dispRead asid va n).1 := by
  unfold State.dispRead
  dsimp only
  split
  all_goals
    refine h.foldl_fst fun _ _ h => ?_
    split
    · split
      next e => exact .of_fst e h.dispLine
      · exact h.dispLine
    · exact h

theorem Lawful.kindOf {n : Node} (h : Lawful n₀ s) : Lawful n₀ (s.kindOf n).1 := by
  unfold State.kindOf
  split
  · exact h
  split
  next e => exact .of_fst e h.dispRead
  next e => exact .of_fst e h.dispRead
  next e => exact .of_fst e h.dispRead

theorem Lawful.modQuad {f : Quad → Quad} (h : Lawful n₀ s) : Lawful n₀ (s.modQuad core quad f) := h

theorem Lawful.findTiles {pages : List Nat} (h : Lawful n₀ s) : Lawful n₀ (s.findTiles asid pages).1 := by
  unfold State.findTiles
  refine h.foldl_fst fun _ _ h => ?_
  split
  next e => exact .of_fst e h.lineOf
  next e => exact .of_fst e h.lineOf

theorem Lawful.latch {idx : Nat} (h : Lawful n₀ s) : Lawful n₀ (s.latch c idx) := by
  refine h.modSplit fun p hp => ?_
  split <;> exact hp

theorem Lawful.execSwrite {o : FE} (h : Lawful n₀ s) : LawfulLeads n₀ (execSwrite o s) := by
  refine h.issue fun u _ h => ?_
  dsimp only
  split
  · exact h
  split
  · split
    next hx => exact h
    next hx => exact h.modSplit fun _ _ => by simpa using hx
  · exact h.modTeam (fun _ h => h.setSpecial) fun t => t.setSpecial_id ..

theorem Lawful.nestedTrap (h : Lawful n₀ s) : (nestedTrap s c code detail lanes).StaysLawful n₀ := by
  unfold Machine.nestedTrap
  split
  · exact h
  · exact h.flushParked.takeTrap

/-- The return from a handler restores the MODE in SSTAT_LO. -/
theorem Lawful.leaveHandler {next : Word} (h : Lawful n₀ s) (hc : IssueFacts s c) (hm : modeReserved c.team.sstatLo = false) :
    Lawful n₀ (s.modTeam c.tid fun t => t.leaveHandler next) :=
  h.modFound (fun t ht hl => hl.leaveHandler (hc.sstatLo t ht ▸ hm)) fun t => t.leaveHandler_id next

theorem Lawful.execTret {o : FE} (h : Lawful n₀ s) : LawfulLeads n₀ (execTret o s) := by
  refine h.issue_of fun u c h hc => ?_
  extract_lets t back
  split
  · exact h
  split
  · exact h.nestedTrap
  split
  · exact h.nestedTrap
  next hm =>
  replace hm : modeReserved c.team.sstatLo = false := by simpa using hm
  split
  · exact h.leaveHandler hc hm
  have hf : Alike u (u.fetch c.core c.grp.asid (c.grp.codeBase + t.epc.toNat)).1 := (Alike.refl u).fetch
  generalize u.fetch c.core c.grp.asid (c.grp.codeBase + t.epc.toNat) = r at hf
  obtain ⟨v, x⟩ := r
  have hv : Lawful n₀ v := hf.lawful h
  cases x with
  | busy => exact hv
  | notPresent => exact hv.parkSplit
  | trap code detail => exact hv.nestedTrap
  | dead code => exact hv.groupPath
  | ok w => exact hv.leaveHandler (hc.alike hf) hm

theorem Lawful.execRegion {o : FE} (h : Lawful n₀ s) : LawfulLeads n₀ (execRegion o s) := by
  refine h.issue_of fun u c h hc => ?_
  extract_lets +onlyGivenNames t
  iterate 3 (split; · exact h)
  refine h.modTeam (fun t ht => ⟨ht.1, ?_, ht.2.2⟩) (by intro; rfl)
  rintro _ ⟨⟩
  exact hc.mode

theorem Lawful.execRelease {o : FE} (h : Lawful n₀ s) : LawfulLeads n₀ (execRelease o s) := by
  refine h.issue fun u _ h => ?_
  dsimp only
  split
  · exact h.wrG
  iterate 2 (split; · exact h)
  exact (h.modOutline (by intro; rfl)).wrG

theorem Lawful.grantClaim (h : Lawful n₀ s) : Lawful n₀ (s.grantClaim tid uid n d) := h.modOutline fun _ => Team.write_outline ..

theorem Lawful.execClaim {o : FE} (h : Lawful n₀ s) : LawfulLeads n₀ (execClaim o s) := by
  refine h.issue fun u _ h => ?_
  dsimp only
  split
  · exact h.wrG
  split
  · exact h
  split
  · exact h.grantClaim
  · exact h.modQuad.blocked

theorem Lawful.execSetperf {o : FE} (h : Lawful n₀ s) : LawfulLeads n₀ (execSetperf o s) := by
  refine h.issue fun u _ h => ?_
  dsimp only
  split
  · exact h
  · exact h.modOutline (by intro; rfl)

theorem Lawful.createNode {mk : Nat → Nat → Node} (h : Lawful n₀ s) : Lawful n₀ (s.createNode mk).1 := h.fresh

theorem Lawful.execNode {o : FE} (h : Lawful n₀ s) : LawfulLeads n₀ (execNode o s) := by
  refine h.issue fun u _ h => ?_
  split
  · exact h
  split
  · exact h.wrG
  · dsimp only
    exact h.createNode.wrG

theorem Lawful.execEmit {o : FE} (h : Lawful n₀ s) : LawfulLeads n₀ (execEmit o s) := by
  refine h.issue fun u _ h => ?_
  dsimp only
  split
  · exact h
  split
  · exact h.wrG
  split
  next e => exact .of_fst e h.kindOf
  next u _ _ e =>
    have h : Lawful n₀ u := .of_fst e h.kindOf
    split
    · exact h.wrG
    split
    all_goals
      split
      · split <;> exact (h.modOutline (by intro; rfl)).wrG
      · split
        · exact h.wrG
        · exact h.modNode.wrG

theorem Lawful.execJcadd {o : FE} (h : Lawful n₀ s) : LawfulLeads n₀ (execJcadd o s) := by
  refine h.issue fun u c h => ?_
  extract_lets jca
  split
  · exact h
  refine h.onPath fun _ => ?_
  have hd {mk} : (depart c { path := 1, n := 8, uniform := true, need := { r := true } } (.ok u [] []) none mk).StaysLawful n₀ :=
    Formed.StaysLawful.depart h
  split
  next w e =>
    have hw : (Res.done w).StaysLawful n₀ := hd.of_eq e
    exact hw
  · exact hd

theorem Lawful.execRpc {o : FE} (h : Lawful n₀ s) : LawfulLeads n₀ (execRpc o s) := by
  refine h.issue fun u _ h => ?_
  dsimp only
  split
  · exact h
  split
  · split
    · exact h.blocked
    · exact Lawful.blocked h
  · exact Lawful.wrG (Lawful.send (Lawful.of_teams h rfl (Nat.le_succ _)))

theorem Lawful.execRpcwait {o : FE} (h : Lawful n₀ s) : LawfulLeads n₀ (execRpcwait o s) := by
  refine h.issue fun u _ h => ?_
  dsimp only
  split
  · split
    · exact h
    split
    · exact h.blocked
    split
    · exact h
    · exact Lawful.wrG (Lawful.splitAcquires h)
  · exact h

theorem Lawful.execTmark {o : FE} (h : Lawful n₀ s) : LawfulLeads n₀ (execTmark o s) := by
  refine h.issue fun u _ h => ?_
  split
  · exact h.traceRecord
  · exact h

end Sys2Proof.Machine
end

section
/-!
PROOFS. Every MODE stays legal: the engines and the matrix commands.
-/
namespace Sys2Proof.Machine

variable {n₀ : Nat} {s : State} {who : Asker} {inv rmw write uniform : Bool} {d : Byte} {c : Ctx} {cmd : EngCmd}
variable {mk done : EngCmd → EngCmd} {e : EvGroup} {o : FR} {g : Group} {ahead : List Ahead} {vals : List Nat}
variable {gid sel n status stamp k core cc va lv off path w tid x uid : Nat} {loc : Option Nat} {sp : Space}

theorem Team.settlePath_outline (t : Team) (uid path : Nat) (counted : List Nat) : (t.settlePath uid path counted).outline = t.outline := by
  unfold Team.settlePath
  split <;> rfl

theorem Lawful.modEng {f : EngCtx → EngCtx} (h : Lawful n₀ s) : Lawful n₀ (s.modEng gid sel f) := h
theorem Lawful.modCmd {f : EngCmd → EngCmd} (h : Lawful n₀ s) : Lawful n₀ (s.modCmd gid sel n f) := h

theorem Lawful.acceptCmd (h : Lawful n₀ s) : (acceptCmd s c sel d mk).StaysLawful n₀ := by
  unfold Machine.acceptCmd
  dsimp only
  split
  · exact h
  split
  · exact h.blocked
  · exact h.modEng.wrG

theorem Lawful.report {w : Word} {e : Nat} (h : Lawful n₀ s) : Lawful n₀ (s.report g w status e stamp) := by
  unfold State.report
  split
  · exact h
  split
  · exact h
  · exact h.localWrite

theorem Lawful.engFail (h : Lawful n₀ s) : Lawful n₀ (s.engFail gid sel n k loc inv) := by
  unfold State.engFail
  split
  · exact h
  split
  · exact h
  split
  · exact h
  · exact h.modEng.localWrite.report

theorem Lawful.engDone (h : Lawful n₀ s) : Lawful n₀ (s.engDone gid sel n status) := by
  unfold State.engDone
  split
  · exact h
  split
  · exact h
  split
  · exact h
  · exact h.report.modEng

theorem Lawful.qres {mode : Nat} (h : Lawful n₀ s) : Lawful n₀ (s.qres gid sel mode) := by
  unfold State.qres
  dsimp only
  split
  · exact h
  split
  · exact h
  split
  · split
    · exact h.localWrite.modGroup.modEng
    · exact h
  · split
    · exact h.localWrite.modEng
    · exact h

theorem Lawful.acceptCopy {o : FE} {op : CmdOp} (h : Lawful n₀ s) : (acceptCopy s c o op).StaysLawful n₀ := by
  unfold Machine.acceptCopy
  exact h.acceptCmd

theorem Lawful.engDiscard (h : Lawful n₀ s) : Lawful n₀ (s.engDiscard gid sel n) := h.engDone

theorem Lawful.startCopy (h : Lawful n₀ s) : Lawful n₀ (s.startCopy gid sel) := by
  unfold State.startCopy
  iterate 3 (split; · exact h)
  split
  · exact h
  · exact h.engDiscard
  split
  · exact h
  split
  · split
    · exact h.engFail
    · exact h

theorem Lawful.unitAt {a : Nat} {pte write : Option Nat} (h : Lawful n₀ s) :
    Lawful n₀ (s.unitAt core gid sp a cc pte write n rmw who).1 := by
  unfold State.unitAt
  extract_lets away f r
  split
  · exact h
  split
  next u ok _ e =>
    have hu : Lawful n₀ u := .of_fst e h.prepare
    split
    · exact hu
    split
    · split
      · split <;> exact hu.unclaim
      have hq : Lawful n₀ (match pte with
          | some e => (let (s, ok) := u.pteOr e 11 who; (s.markDirty e, ok))
          | none => (u, true)).1 := by
        split
        · exact hu.pteOr.markDirty
        · exact hu
      split
      next w _ e =>
        have hw : Lawful n₀ w := .of_fst e hq
        split
        · exact hw
        · exact hw.placeWr.unclaim

theorem Lawful.unitAligned {write : Option Nat} (h : Lawful n₀ s) : Lawful n₀ (s.unitAligned g va write n rmw who).1 := by
  unfold State.unitAligned
  split
  next e => exact (Lawful.of_fst e h.lineOf).unitAt
  next e => exact .of_fst e h.lineOf

theorem Lawful.unitGlobal {write : Option Nat} (h : Lawful n₀ s) : Lawful n₀ (s.unitGlobal g va write n rmw who).1 := by
  unfold State.unitGlobal
  dsimp only
  split
  · exact h.unitAligned
  split
  next u _ _ _ e =>
    have h : Lawful n₀ u := .of_fst e h.lineOf
    split
    next u _ _ _ e =>
      have h : Lawful n₀ u := .of_fst e h.unitAligned
      split
      next e => exact .of_fst e h.unitAligned
      · exact h.unitAligned
    · exact h.unitAligned
  next e => exact .of_fst e h.lineOf

theorem Lawful.unitLocal {write : Option Nat} (h : Lawful n₀ s) : Lawful n₀ (s.unitLocal g lv off write n stamp).1 := by
  unfold State.unitLocal
  split
  · exact h
  · exact h.unitAt

theorem Lawful.unitSide {write : Option Nat} (h : Lawful n₀ s) : Lawful n₀ (s.unitSide g cmd k off write).1 := by
  unfold State.unitSide
  split
  · split
    · exact h.unitGlobal
    · exact h
  · exact h.unitLocal

theorem Lawful.engPark (h : Lawful n₀ s) : Lawful n₀ (s.engPark g sel n va path write) := h.modCmd.reportFault

theorem Lawful.unitStops {r : UnitR} {loc : Nat} (h : Lawful n₀ s) : Lawful n₀ (s.unitStops g sel n r loc path) := by
  unfold State.unitStops
  split
  · exact h.engPark
  · exact h.engFail
  · exact h.groupPath
  · exact h

theorem Lawful.writeOver {access : State → Nat → State × UnitR} {stops : State → UnitR → State} (h : Lawful n₀ s)
    (haccess : ∀ u n, Lawful n₀ u → Lawful n₀ (access u n).1) (hstops : ∀ u r, Lawful n₀ u → Lawful n₀ (stops u r)) :
    Lawful n₀ (s.writeOver g sel cmd w done access stops) := by
  unfold State.writeOver
  dsimp only
  split
  next s' _ _ _ e =>
    have h' : Lawful n₀ s' := .of_fst e (haccess _ _ h)
    split
    · exact h.modCmd
    refine Lawful.modCmd ?_
    split
    · exact haccess _ _ h
    · exact h'
  next e => exact hstops _ _ (.of_fst e (haccess _ _ h))

theorem Lawful.engWrite {loc : Nat} {access : State → Nat → State × UnitR} (h : Lawful n₀ s)
    (haccess : ∀ u n, Lawful n₀ u → Lawful n₀ (access u n).1) :
    Lawful n₀ (s.engWrite g sel cmd loc w done access) := h.writeOver haccess fun _ _ h => h.unitStops

theorem Lawful.copyStep (h : Lawful n₀ s) : Lawful n₀ (s.copyStep g sel cmd) := by
  unfold State.copyStep
  split
  · exact h.engWrite fun _ _ h => h.unitSide
  split
  · exact h
  split
  · split
    next e => exact (Lawful.of_fst e h.unitSide).modCmd
    next e => exact (Lawful.of_fst e h.unitSide).unitStops

theorem Lawful.collRead {members : List Nat} (h : Lawful n₀ s) : ∀ q, s.collRead g ahead off members = .error q → Lawful n₀ q.1 := by
  induction members with
  | nil =>
    intro q hq
    unfold State.collRead at hq
    cases hq
  | cons i members ih =>
    intro q hq
    unfold State.collRead at hq
    split at hq
    · split at hq
      · cases hq
      · exact ih q hq
    next e =>
      cases hq
      exact .of_fst e h.unitLocal

theorem Lawful.collStep (h : Lawful n₀ s) : Lawful n₀ (s.collStep g sel cmd) := by
  unfold State.collStep
  extract_lets +onlyGivenNames b w op root ms total u read
  have hr : Lawful n₀ read := by
    unfold read
    split
    next e => exact Lawful.unitStops (h.collRead _ e)
    split
    · extract_lets s₁
      have h₁ : Lawful n₀ s₁ := by
        unfold s₁
        split
        · exact h.modOutline (by intro; rfl)
        · exact h
      exact h₁
  clear_value read
  split
  · split
    · exact h.engWrite fun _ _ h => h.unitLocal
    · exact hr
  · split
    · exact hr
    · exact h

theorem Lawful.transferUnit (h : Lawful n₀ s) : Lawful n₀ (s.transferUnit gid sel n) := by
  unfold State.transferUnit
  iterate 3 (split; · exact h)
  split
  · exact h.collStep
  · exact h.copyStep

theorem Lawful.waitTimeline (h : Lawful n₀ s) : (waitTimeline s c sel n).StaysLawful n₀ := by
  unfold Machine.waitTimeline
  dsimp only
  split
  · exact h
  split
  · exact h
  split
  · exact h.splitAcquires
  split
  · exact h
  · exact h.blocked

theorem Lawful.execTlget {o : FE} (h : Lawful n₀ s) : LawfulLeads n₀ (execTlget o s) := by
  refine h.issue fun u _ h => ?_
  split
  · exact h
  · exact h.wrG

theorem Lawful.execWaitp {o : FE} (h : Lawful n₀ s) : LawfulLeads n₀ (execWaitp o s) := by
  refine h.issue fun u c h => ?_
  dsimp only
  split
  · exact h.modOutline fun t => t.settlePath_outline ..
  · exact h.blocked

theorem Lawful.objectPoison {bad : Bool} {d : Option Byte} (h : Lawful n₀ s) : Lawful n₀ (s.objectPoison c bad d) := by
  unfold State.objectPoison
  split
  · exact h
  · exact h.modOutline (by intro; rfl)
  · exact h.groupPath

theorem Lawful.onObject {release : Bool} {f : Space → Nat → Res} (h : Lawful n₀ s) (hf : ∀ a n, (f a n).StaysLawful n₀) :
    (onObject s c w write release f).StaysLawful n₀ := by
  unfold Machine.onObject
  split
  · exact h
  split
  next e => exact Formed.StaysLawful.of_eq e h.formLocal
  next u _ _ e =>
    have h : Lawful n₀ u := Formed.StaysLawful.of_eq e h.formLocal
    split
    · exact h
    · exact hf _ _
  next e => exact Formed.StaysLawful.of_eq e h.formLocal
  next e => exact Formed.StaysLawful.of_eq e h.formLocal
  next e => exact Formed.StaysLawful.of_eq e h.formLocal

theorem Lawful.execBwait {o : FE} (h : Lawful n₀ s) : LawfulLeads n₀ (execBwait o s) := by
  refine h.issue fun _ _ h => h.onObject fun _ _ => ?_
  split
  · exact h.objectPoison
  split
  · exact h.splitAcquires
  · exact h.blocked

theorem Lawful.answer {tok : Nat} (h : Lawful n₀ s) : Lawful n₀ (s.answer tid tok x) := by
  refine h.modOutline fun t => ?_
  split
  · exact t.deliver_outline ..
  · rfl

theorem Lawful.oweG (h : Lawful n₀ s) : Lawful n₀ (s.oweG c d).2 := h.fresh.modOutline (by intro; rfl)

theorem Lawful.execYjoin {o : FE} (h : Lawful n₀ s) : LawfulLeads n₀ (execYjoin o s) := by
  refine h.issue fun u _ h => ?_
  dsimp only
  split
  · exact h.wrG
  · exact h.oweG

theorem Lawful.markLeaving (h : Lawful n₀ s) : Lawful n₀ (s.markLeaving gid) := by
  unfold State.markLeaving
  split
  · exact h
  · exact h.fresh

theorem Lawful.execYleave {o : FE} (h : Lawful n₀ s) : LawfulLeads n₀ (execYleave o s) := by
  refine h.issue fun u _ h => ?_
  split
  · exact h.wrG
  · exact Lawful.markLeaving (Lawful.modGroup h.oweG)

theorem Lawful.execYjoinComplete {e : EvYard} (h : Lawful n₀ s) : LawfulLeads n₀ (execYjoinComplete e s) := by
  unfold Machine.execYjoinComplete
  dsimp only
  iterate 3 (split; · exact h)
  split
  · exact Lawful.answer h
  split
  all_goals
    split
    · exact Lawful.answer h
    · split <;> exact Lawful.answer h

theorem Lawful.execYleaveComplete (h : Lawful n₀ s) : LawfulLeads n₀ (execYleaveComplete e s) := by
  unfold Machine.execYleaveComplete
  split
  · split
    · exact h
    · exact (h.revokeYard.foldl fun _ _ h => h.answer).modGroup
  · exact h

theorem Lawful.takeGrid {shape home : Nat} (h : Lawful n₀ s) : Lawful n₀ (s.takeGrid tid shape home) := h.modCore.modOutline (by intro; rfl)

theorem Lawful.execGrid {o : FE} (h : Lawful n₀ s) : LawfulLeads n₀ (execGrid o s) := by
  refine h.issue fun u _ h => ?_
  dsimp only
  split
  · exact h
  split
  · exact h.takeGrid
  · exact h.blocked

theorem Lawful.releaseGrid (h : Lawful n₀ s) : Lawful n₀ (s.releaseGrid tid) := by
  unfold State.releaseGrid
  split
  · exact h
  · exact h.modOutline (id := tid) (f := fun t => { t with grid := none }) fun _ => rfl

theorem Lawful.execUngrid {o : FE} (h : Lawful n₀ s) : LawfulLeads n₀ (execUngrid o s) := by
  refine h.issue fun u _ h => ?_
  dsimp only
  split
  · exact h
  split
  · exact h
  split
  · exact h.blocked
  · exact h.releaseGrid

theorem Lawful.withTokens {go : State → Res} (h : Lawful n₀ s) (hgo : ∀ u, Lawful n₀ u → (go u).StaysLawful n₀) :
    (withTokens s c go vals).StaysLawful n₀ := by
  unfold Machine.withTokens
  split
  · exact h
  split
  · exact hgo _ h
  extract_lets need first
  split
  · exact hgo _ (h.modOutline (id := c.tid) (f := fun t => { t with grid := t.grid.map fun g => { g with tokens := need, idle := 0 } }) fun _ => rfl)
  · exact Lawful.blocked h

theorem Lawful.acceptMat {slots : List Nat} (h : Lawful n₀ s) : (acceptMat s c slots mk).StaysLawful n₀ := by
  unfold Machine.acceptMat
  dsimp only
  split
  · exact h.blocked
  · exact h

theorem Lawful.execMloop (h : Lawful n₀ s) : LawfulLeads n₀ (execMloop o s) := by
  refine h.issue fun u _ h => ?_
  dsimp only
  iterate 3 (split; · exact h)
  split
  · exact h
  · exact h.withTokens fun _ h => h.acceptMat

theorem Lawful.execMsta {o : FE} (h : Lawful n₀ s) : LawfulLeads n₀ (execMsta o s) := by
  refine h.issue fun u _ h => ?_
  dsimp only
  split
  · exact h
  · exact h.acceptMat

theorem Lawful.execMacc {o : FE} (h : Lawful n₀ s) : LawfulLeads n₀ (execMacc o s) := by
  refine h.issue fun u _ h => ?_
  dsimp only
  split
  · exact h
  split
  · exact h
  · exact h.withTokens fun _ h => h.acceptMat

theorem Lawful.onTile {d : Nat} {f : Group → Res} (h : Lawful n₀ s) (hf : ∀ a, (f a).StaysLawful n₀) : (onTile s c d inv f).StaysLawful n₀ := by
  unfold Machine.onTile
  dsimp only
  split
  · exact h
  split
  · exact h
  split
  · exact h.blocked
  · exact hf _

theorem Lawful.execMstat {o : FE} (h : Lawful n₀ s) : LawfulLeads n₀ (execMstat o s) := by
  refine h.issue fun u _ h => ?_
  dsimp only
  split
  · exact h
  · exact h.wrG

theorem Lawful.execMwait {o : FE} (h : Lawful n₀ s) : LawfulLeads n₀ (execMwait o s) := by
  refine h.issue fun u _ h => ?_
  dsimp only
  split
  · exact h
  split
  · exact h
  split
  · exact h.blocked
  · exact h

theorem Lawful.execMxv (h : Lawful n₀ s) : LawfulLeads n₀ (execMxv o s) := by
  refine h.issue fun u _ h => ?_
  dsimp only
  iterate 7 (split; · exact h)
  split
  · exact h
  · exact h.withTokens fun _ h => h.blocked

theorem Lawful.execGridTake {e : EvTeam} (h : Lawful n₀ s) : LawfulLeads n₀ (execGridTake e s) := by
  unfold Machine.execGridTake
  dsimp only
  split
  · exact h
  split
  · exact h
  split
  · split
    · split
      · exact h.modCore.modOutline (by intro; rfl)
      · exact h.modCore.modOutline (by intro; rfl)
    · exact h
  · split
    · split
      · split
        · exact h.takeGrid.complete
        · exact h
      · exact h
    · exact h

theorem Lawful.execUngridComplete {e : EvTeam} (h : Lawful n₀ s) : LawfulLeads n₀ (execUngridComplete e s) := by
  unfold Machine.execUngridComplete
  dsimp only
  split
  · exact h
  split
  · split
    · exact h
    · exact h.releaseGrid
  · split
    · exact h
    split
    · exact h.getD h.raise
    split
    · exact h
    · exact h.releaseGrid.complete

theorem Lawful.grantHead (h : Lawful n₀ s) : Lawful n₀ s.grantHead := by
  unfold State.grantHead
  dsimp only
  iterate 3 (split; · exact h)
  split
  next g _ _ _ => exact h.modOutline (f := fun t => { t with grid := some { g with tokens := g.quads.length, idle := 0 } }) fun _ => rfl
  · exact h

theorem Lawful.execTokenGrant (h : Lawful n₀ s) : LawfulLeads n₀ (execTokenGrant s) := h.grantHead

theorem Lawful.execTokenIdleRelease {e : EvTeam} (h : Lawful n₀ s) : LawfulLeads n₀ (execTokenIdleRelease e s) := by
  unfold Machine.execTokenIdleRelease
  split
  · exact h
  split
  · exact h
  split
  next g _ _ => exact h.modOutline (f := fun t => { t with grid := some { g with tokens := 0, idle := 0 } }) fun _ => rfl
  · exact h

theorem Lawful.opUnit {a : Nat} {write : Option Nat} (h : Lawful n₀ s) : Lawful n₀ (s.opUnit g cmd k a write n rmw who).1 := by
  have hr : Lawful n₀ (match lvlOf (bw cmd.block k) with
      | 0 => s.unitGlobal g a write n rmw who
      | lv => s.unitLocal g lv a write n (cmd.stamp s.nextId)).1 := by
    split
    · exact h.unitGlobal
    · exact h.unitLocal
  unfold State.opUnit
  split
  next e => exact .of_fst e hr
  · exact hr

/-- Word after word of an operand, stopping at the first that cannot be read. -/
theorem Lawful.opWords {a : Nat} (h : Lawful n₀ s) : OperandsLawful n₀ (s.opWords g cmd k a n) := by
  induction n generalizing s a with
  | zero => exact h
  | succ n ih =>
    unfold State.opWords
    split
    next u _ _ _ e =>
      have hu : Lawful n₀ u := .of_fst e h.opUnit
      split
      next e =>
        have hv := OperandsLawful.of_eq e (ih hu)
        exact hv
      · exact ih hu
    next u _ _ e =>
      have hu : Lawful n₀ u := .of_fst e h.opUnit
      exact hu

theorem Lawful.opRead {r : OpRange} (h : Lawful n₀ s) : OperandsLawful n₀ (s.opRead g cmd r) := by
  unfold State.opRead
  dsimp only
  split
  next u _ e =>
    have h : Lawful n₀ u := OperandsLawful.of_eq e h.opWords
    exact h
  · exact h.opWords

theorem Lawful.opReads {rs : List OpRange} (h : Lawful n₀ s) : OperandsLawful n₀ (s.opReads g cmd rs) := by
  induction rs generalizing s with
  | nil => exact h
  | cons r rs ih =>
    unfold State.opReads
    split
    next e =>
      have hq := OperandsLawful.of_eq e h.opRead
      exact hq
    next u _ e =>
      have hu : Lawful n₀ u := OperandsLawful.of_eq e h.opRead
      split
      next e => exact .of_eq e (ih hu)
      next e =>
        have hv := OperandsLawful.of_eq e (ih hu)
        exact hv

theorem Lawful.matFail (h : Lawful n₀ s) : Lawful n₀ (s.matFail gid sel cmd k loc) := by
  unfold State.matFail
  dsimp only
  split
  all_goals
    split
    · exact h
    · exact h.modGroup.engFail

theorem Lawful.matStops {r : UnitR} {loc : Nat} (h : Lawful n₀ s) : Lawful n₀ (s.matStops g sel cmd r loc path) := by
  unfold State.matStops
  split
  · exact h.engPark
  · exact h.matFail
  · exact h.groupPath
  · exact h

theorem Lawful.gridClocks (h : Lawful n₀ s) : Lawful n₀ (s.gridClocks tid n) := by
  unfold State.gridClocks
  split
  · exact h
  split
  · exact h.foldl fun _ _ h => h.modQuad
  · exact h

theorem Lawful.execMatrixCommandStart {e : EvEngine} (h : Lawful n₀ s) : LawfulLeads n₀ (execMatrixCommandStart e s) := by
  unfold Machine.execMatrixCommandStart
  dsimp only
  iterate 3 (split; · exact h)
  split
  · exact h
  · exact h.engDiscard
  split
  · exact h
  split
  · exact h.matFail
  split
  · exact h.modCmd.gridClocks
  · exact h

theorem Lawful.execMloopStep {e : EvEngineCmd} (h : Lawful n₀ s) : LawfulLeads n₀ (execMloopStep e s) := by
  unfold Machine.execMloopStep
  dsimp only
  iterate 3 (split; · exact h)
  split
  · exact h.matFail
  split
  next e => exact (OperandsLawful.of_eq e h.opReads).matStops
  next u _ e =>
    have h : Lawful n₀ u := OperandsLawful.of_eq e h.opReads
    split
    · exact h.matFail
    split
    next e => exact (OperandsLawful.of_eq e h.opReads).matStops
    next e => exact (OperandsLawful.of_eq e h.opReads).modGroup.modCmd.gridClocks

theorem Lawful.tileStep (h : Lawful n₀ s) : Lawful n₀ (s.tileStep g sel cmd) := by
  unfold State.tileStep
  dsimp only
  split
  · exact h.writeOver (fun _ _ h => h.opUnit) fun _ _ h => h.matStops
  split
  · exact h
  split
  · exact h
  split
  next e => exact (OperandsLawful.of_eq e h.opRead).matStops
  next e => exact (OperandsLawful.of_eq e h.opRead).modGroup.modCmd

theorem Lawful.execMatrixCommandFinish {e : EvEngineCmd} (h : Lawful n₀ s) : LawfulLeads n₀ (execMatrixCommandFinish e s) := by
  unfold Machine.execMatrixCommandFinish
  dsimp only
  iterate 3 (split; · exact h)
  split
  · split
    · exact h.engDone
    · exact h
  · split
    · exact h.engDone
    · exact h
  · split
    · exact h.modGroup.engDone
    · exact h
  · split
    · exact h
    · exact h.modGroup.engDone
  · exact h

theorem Lawful.mxvRead {q : MxvRun} {lanes : List Nat} (h : Lawful n₀ s) : OperandsLawful n₀ (s.mxvRead g q lanes) := by
  induction lanes generalizing s with
  | nil => exact h
  | cons l lanes ih =>
    unfold State.mxvRead
    split
    next e => exact .of_eq e h.opReads
    next u _ e =>
      have hu : Lawful n₀ u := OperandsLawful.of_eq e h.opReads
      extract_lets n
      split
      next e => exact .of_eq e (ih hu)
      next e =>
        have hv := OperandsLawful.of_eq e (ih hu)
        exact hv

theorem Lawful.wholeLines {l : List (Nat × OpRange)} (h : Lawful n₀ s) : (s.wholeLines c cmd uniform l).StaysLawful n₀ := by
  unfold State.wholeLines
  split
  next u _ _ _ e =>
    have h : Lawful n₀ u := Formed.StaysLawful.of_eq e h.formLines
    exact h
  · exact h.formLines

theorem Formed.StaysLawful.afterLines {f : Formed} {go : State → State} (h : f.StaysLawful n₀) (hgo : ∀ u, Lawful n₀ u → Lawful n₀ (go u)) :
    Lawful n₀ (afterLines c f go) := by
  cases f with
  | trap s code detail lanes => exact Lawful.getD h (Lawful.raise h)
  | hold s => exact h
  | dead s code => exact Lawful.groupPath h
  | ok s suppressed reqs =>
    unfold Machine.afterLines
    dsimp only
    split
    · exact Lawful.parkSplit h
    · exact hgo _ h

theorem Lawful.wholeStops {q : Stopped} (h : Lawful n₀ q.s) : Lawful n₀ (wholeStops gid q) := by
  unfold Machine.wholeStops
  split
  · exact h.groupPath
  · exact h.groupPath
  · exact h

theorem Lawful.beginClocks (h : Lawful n₀ s) : Lawful n₀ (s.beginClocks tid uid n) := (h.modSplitKeep (by intro; rfl)).gridClocks

theorem Lawful.execMxvFinish {e : EvSplit} (h : Lawful n₀ s) : LawfulLeads n₀ (execMxvFinish e s) := by
  unfold Machine.execMxvFinish
  dsimp only
  split
  · exact h
  split
  · split
    · split
      · exact h
      split
      · exact h.getD h.raise
      refine h.wholeLines.afterLines fun u h => ?_
      split
      · exact h.beginClocks
      split
      next e => exact Lawful.wholeStops (OperandsLawful.of_eq e h.mxvRead)
      next e => exact (OperandsLawful.of_eq e h.mxvRead).wrField.complete
    · exact h
  · exact h

end Sys2Proof.Machine
end

section
/-!
PROOFS. Every MODE stays legal: rays, the rasteriser and the reads of the engines.
-/
namespace Sys2Proof.Machine

variable {n₀ : Nat} {s : State} {pass : Bool} {d : Byte} {c : Ctx} {cmd : EngCmd} {mk : EngCmd → EngCmd} {e : EvGroup} {o : FR} {g : Group}
variable {ahead : List Ahead} {ks : List Nat} {gid code va n lane part tid uid lv addr k path w sel : Nat} {loc : Option Nat}
variable {ray : Ray}

theorem Lawful.acceptRays (h : Lawful n₀ s) : (acceptRays s c d mk).StaysLawful n₀ := by
  unfold Machine.acceptRays
  split
  · exact h
  split
  · exact h.blocked
  · exact h.acceptCmd

theorem Lawful.startRay (h : Lawful n₀ s) : Lawful n₀ (s.startRay gid) := by
  unfold State.startRay
  dsimp only
  iterate 3 (split; · exact h)
  split
  · exact h
  · exact h.engDiscard
  split
  all_goals
    split
    · exact h
    · split
      · exact h.engFail
      · exact h

theorem Lawful.execTploadSlotLoad (h : Lawful n₀ s) : LawfulLeads n₀ (execTploadSlotLoad e s) := by
  unfold Machine.execTploadSlotLoad
  dsimp only
  iterate 3 (split; · exact h)
  split
  next e => exact (OperandsLawful.of_eq e h.opRead).unitStops
  next u _ e =>
    have h : Lawful n₀ u := OperandsLawful.of_eq e h.opRead
    split
    · exact h.engFail
    · split <;> exact h

theorem Lawful.writeRecord {who : Agent} {r : RayRec} (h : Lawful n₀ s) : Lawful n₀ (s.writeRecord who ray r) := h.localWrite
theorem Lawful.endRay {r : RayRec} (h : Lawful n₀ s) : Lawful n₀ (s.endRay gid ray r) := h.writeRecord.modGroup
theorem Lawful.faultRay {r : RayRec} (h : Lawful n₀ s) : Lawful n₀ (s.faultRay gid ray r code) := h.endRay

theorem Lawful.execRayStart (h : Lawful n₀ s) : LawfulLeads n₀ (execRayStart e s) := by
  unfold Machine.execRayStart
  iterate 3 (split; · exact h)
  iterate 3 refine LawfulLeads.ite h ?_
  split
  · exact h.engFail
  refine LawfulLeads.ite h ?_
  extract_lets +onlyGivenNames old went rec0 ray enter
  have hw : Lawful n₀ (went s) := h
  refine LawfulLeads.ite h.engFail (.ite hw (.ite h (.ite h ?_)))
  split
  · exact h
  · split <;> exact h

theorem Lawful.nodeWords {o : Nat} {acc : List (Nat × Byte)} (h : Lawful n₀ s) : (s.nodeWords g ahead va n o acc).StaysLawful n₀ := by
  induction n generalizing s o acc with
  | zero => exact h
  | succ n ih =>
    unfold State.nodeWords
    extract_lets a
    split
    next e => exact .of_fst e h.lineOf
    next e => exact .of_fst e h.lineOf
    next e => exact .of_fst e h.lineOf
    next e => exact .of_fst e h.lineOf
    next e => exact .of_fst e h.lineOf
    next u _ _ _ e =>
      have hu : Lawful n₀ u := .of_fst e h.lineOf
      split
      next e => exact ih (.of_fst e hu.unitAt)
      next e => exact .of_fst e hu.unitAt
      next e => exact .of_fst e hu.unitAt

theorem Lawful.fetchNode {p : TProg} {node : Nat} (h : Lawful n₀ s) : (s.fetchNode g ahead p node).StaysLawful n₀ := by
  unfold State.fetchNode
  dsimp only
  split
  · exact h
  split
  · exact h
  split
  next u _ e =>
    have h : Lawful n₀ u := NodeR.StaysLawful.of_eq e h.nodeWords
    exact h
  · exact h.nodeWords

theorem Lawful.reportNode (h : Lawful n₀ s) : Lawful n₀ (s.reportNode g code va) := by
  unfold State.reportNode
  split
  · exact h.reportFault
  · exact h

theorem Lawful.setRay (h : Lawful n₀ s) : Lawful n₀ (s.setRay gid ray) := h

theorem Lawful.resumeRay {r : RayRec} {p : TProg} (h : Lawful n₀ s) : Lawful n₀ (s.resumeRay g ray r p) := by
  unfold State.resumeRay
  dsimp only
  split
  · split
    next e => exact NodeR.StaysLawful.of_eq e h.fetchNode
    next e => exact (NodeR.StaysLawful.of_eq e h.fetchNode).groupPath
    next e => exact (NodeR.StaysLawful.of_eq e h.fetchNode).reportNode.faultRay
    next e => exact (NodeR.StaysLawful.of_eq e h.fetchNode).setRay
  · split
    · split
      next e => exact NodeR.StaysLawful.of_eq e h.fetchNode
      next e => exact (NodeR.StaysLawful.of_eq e h.fetchNode).groupPath
      next e => exact (NodeR.StaysLawful.of_eq e h.fetchNode).reportNode.faultRay
      next e => exact (NodeR.StaysLawful.of_eq e h.fetchNode).setRay
    · exact h

theorem Lawful.stepRay {r : RayRec} {p : TProg} (h : Lawful n₀ s) : Lawful n₀ (s.stepRay g ray r p) := by
  unfold State.stepRay
  split
  · exact h.faultRay
  split
  · exact h.faultRay
  split
  · split
    · exact h.faultRay
    split
    next e => exact NodeR.StaysLawful.of_eq e h.fetchNode
    next e => exact (NodeR.StaysLawful.of_eq e h.fetchNode).groupPath
    next e => exact (NodeR.StaysLawful.of_eq e h.fetchNode).reportNode.faultRay
    next e => exact (NodeR.StaysLawful.of_eq e h.fetchNode).setRay
  · split
    · exact h.faultRay
    split
    · exact h
    · exact h.endRay

theorem Lawful.rayStep (h : Lawful n₀ s) : Lawful n₀ (s.rayStep g ray) := by
  unfold State.rayStep
  dsimp only
  split
  · split
    · exact h.writeRecord.setRay
    · exact h.endRay
  · split
    · split
      · exact h
      · exact h.modGroup.engFail
    · split
      all_goals
        split
        · exact h.faultRay
        · split
          · exact h.faultRay
          · split
            · exact h.stepRay
            · exact h.resumeRay

theorem Lawful.execRayMicroOpStep {e : EvRay} (h : Lawful n₀ s) : LawfulLeads n₀ (execRayMicroOpStep e s) := by
  unfold Machine.execRayMicroOpStep
  split
  · exact h
  split
  · exact h
  split
  · exact h
  · exact h.rayStep

theorem Lawful.nodeReadTurn (h : Lawful n₀ s) : Lawful n₀ (s.nodeReadTurn gid n lane part) := by
  unfold State.nodeReadTurn
  dsimp only
  iterate 5 (split; · exact h)
  split
  next u _ _ _ e =>
    have h : Lawful n₀ u := .of_fst e h.unitGlobal
    split <;> exact h
  next e => exact .of_fst e h.unitGlobal

/-- A step of a ray takes no identifier back. -/
theorem Lawful.rayStep_nextId (h : Lawful n₀ s) : s.nextId ≤ (s.rayStep g ray).nextId :=
  (Lawful.rayStep (n₀ := s.nextId) ⟨h.1, le_rfl⟩).2

theorem Lawful.recordPartTurn (h : Lawful n₀ s) : Lawful n₀ (s.recordPartTurn gid n lane part) := by
  unfold State.recordPartTurn
  dsimp only
  iterate 3 (split; · exact h)
  split
  · split
    · exact h.localWrite.setRay
    · exact h
  · split
    · exact h
    split
    · split
      · exact h
      · exact Lawful.setRay (Lawful.localWrite (Lawful.of_teams h rfl h.rayStep_nextId))
    · exact h

theorem Lawful.execRbox (h : Lawful n₀ s) : LawfulLeads n₀ (execRbox o s) := by
  refine h.issue fun u _ h => ?_
  dsimp only
  iterate 5 (split; · exact h)
  split
  · exact h
  · exact h.withTokens fun _ h => h.blocked

theorem Lawful.execRboxFinish {e : EvSplit} (h : Lawful n₀ s) : LawfulLeads n₀ (execRboxFinish e s) := by
  unfold Machine.execRboxFinish
  dsimp only
  split
  · exact h
  split
  · split
    · split
      · exact h
      split
      · exact h.getD h.raise
      refine h.wholeLines.afterLines fun u h => ?_
      split
      · exact h.beginClocks
      split
      next e => exact Lawful.wholeStops (OperandsLawful.of_eq e h.opRead)
      next e => exact (OperandsLawful.of_eq e h.opRead).wrField.complete
    · exact h
  · exact h

theorem Lawful.splitReadTurn (h : Lawful n₀ s) : Lawful n₀ (s.splitReadTurn tid uid lv addr) := by
  unfold State.splitReadTurn
  split
  · exact h
  split
  next g _ _ =>
    extract_lets +onlyGivenNames streams
    split
    · exact h
    have hr : Lawful n₀ (if lv = 0 then s.unitGlobal g addr none else s.unitLocal g lv addr none 4 s.nextId).1 := by
      split
      · exact h.unitGlobal
      · exact h.unitLocal
    split
    next u _ _ _ e =>
      have hu : Lawful n₀ u := .of_fst e hr
      refine hu.modSplit fun p hp => ?_
      dsimp only
      split <;> exact hp
    next e => exact .of_fst e hr
  · exact h

theorem Lawful.rastFail (h : Lawful n₀ s) : Lawful n₀ (s.rastFail gid n k loc pass) := by
  unfold State.rastFail
  dsimp only
  split
  · exact h.engFail.modGroup
  · exact h.engFail

theorem Lawful.startRast (h : Lawful n₀ s) : Lawful n₀ (s.startRast gid pass) := by
  unfold State.startRast
  dsimp only
  iterate 4 (split; · exact h)
  split
  · exact h
  · exact h.engDiscard
  split
  · exact h
  split
  · exact h.engFail
  repeat' split
  all_goals exact h

theorem Lawful.execRastCommandStart (h : Lawful n₀ s) : LawfulLeads n₀ (execRastCommandStart e s) := h.startRast
theorem Lawful.execRequestPassStart (h : Lawful n₀ s) : LawfulLeads n₀ (execRequestPassStart e s) := h.startRast

theorem Lawful.latchMap (h : Lawful n₀ s) : Lawful n₀ (s.latchMap gid) := by
  unfold State.latchMap
  split
  · exact h
  split
  · exact h
  · exact (h.foldl fun _ _ h => h.answer).modGroup

theorem Lawful.execVrslLatch (h : Lawful n₀ s) : LawfulLeads n₀ (execVrslLatch e s) := by
  unfold Machine.execVrslLatch
  split
  · exact h
  split
  · exact h.latchMap
  · exact h

theorem Lawful.updateSamples {t : Tri} {prim : Nat} (h : Lawful n₀ s) : Lawful n₀ (s.updateSamples g cmd t prim ks).s := by
  induction ks generalizing s with
  | nil => exact h
  | cons k ks ih =>
    unfold State.updateSamples
    extract_lets x y d a
    split
    next u _ _ _ e =>
      have hu : Lawful n₀ u := .of_fst e h.opUnit
      split
      · split
        next e => exact ih (.of_fst e hu.opUnit)
        next w _ _ e =>
          have hw : Lawful n₀ w := .of_fst e hu.opUnit
          exact hw
      · exact ih hu
    next u _ _ e =>
      have hu : Lawful n₀ u := .of_fst e h.opUnit
      exact hu

theorem Lawful.execRastTriangle (h : Lawful n₀ s) : LawfulLeads n₀ (execRastTriangle e s) := by
  unfold Machine.execRastTriangle
  iterate 3 (split; · exact h)
  extract_lets +onlyGivenNames s₁ g₁ fetched
  have h₁ : Lawful n₀ s₁ := by
    unfold s₁
    split
    · exact h.latchMap
    · exact h
  clear_value s₁
  have hf : OperandsLawful n₀ fetched := by
    unfold fetched
    split
    · exact h₁
    split
    next e =>
      have hq := OperandsLawful.of_eq e h₁.opRead
      exact hq
    next e =>
      have hq := OperandsLawful.of_eq e h₁.opRead
      exact hq
  clear_value fetched
  split
  · exact Lawful.unitStops hf
  next u _ _ =>
    have hu : Lawful n₀ u := hf
    extract_lets +onlyGivenNames prim r
    have hr : Lawful n₀ r.s := by
      unfold r
      split
      · exact hu.updateSamples
      · exact hu
    clear_value r
    split
    · exact Lawful.unitStops hr
    · exact Lawful.latchMap hr

theorem Lawful.execRequestPassSample (h : Lawful n₀ s) : LawfulLeads n₀ (execRequestPassSample e s) := by
  unfold Machine.execRequestPassSample
  split
  · exact h
  split
  · exact h
  extract_lets +onlyGivenNames k
  split
  · exact h
  extract_lets +onlyGivenNames stops went a
  have hs : ∀ {u r x p}, Lawful n₀ u → Lawful n₀ (stops u r x p) := by
    intro u r x p hu
    unfold stops
    split
    · exact hu.rastFail
    · exact hu.unitStops
  have hw : ∀ {u}, Lawful n₀ u → Lawful n₀ (went u) := by
    intro u hu
    unfold went
    extract_lets +onlyGivenNames u₁
    split <;> exact hu
  clear_value stops went
  split
  next u _ _ _ e =>
    have hu : Lawful n₀ u := .of_fst e h.opUnit
    split
    · exact hw hu
    extract_lets +onlyGivenNames x y key seen n at' req
    clear_value seen
    have hq : Lawful n₀ req.1 := by
      unfold req
      split
      · exact hu
      · exact hu.opUnit
    clear_value req
    split
    · exact hu.rastFail
    split
    next w _ _ _ =>
      have hq : Lawful n₀ w := hq
      extract_lets +onlyGivenNames w₁ b
      have h₁ : Lawful n₀ w₁ := by
        unfold w₁
        split <;> exact hq
      clear_value w₁
      split
      next e => exact hw (.of_fst e h₁.opUnit)
      next e => exact hs (.of_fst e h₁.opUnit)
    · exact hs hq
  next e => exact hs (.of_fst e h.opUnit)

theorem Lawful.readWhole {r : OpRange} {f : State → Nat → Res} (h : Lawful n₀ s) (hf : ∀ u n, Lawful n₀ u → (f u n).StaysLawful n₀) :
    (readWhole s c cmd r path f).StaysLawful n₀ := by
  unfold Machine.readWhole
  split
  next e => exact Formed.StaysLawful.of_eq e h.wholeLines
  next e => exact Formed.StaysLawful.of_eq e h.wholeLines
  next e => exact (Formed.StaysLawful.of_eq e h.wholeLines).groupPath
  next u _ _ e =>
    have hu : Lawful n₀ u := Formed.StaysLawful.of_eq e h.wholeLines
    split
    · exact hu.parkSplit
    split
    next e => exact hf _ _ (OperandsLawful.of_eq e hu.opRead)
    next q e =>
      have hq : Lawful n₀ q.s := OperandsLawful.of_eq e hu.opRead
      split
      · exact hq
      · exact hq
      · exact Lawful.wholeStops hq

theorem Lawful.execAtlnext {o : FE} (h : Lawful n₀ s) : LawfulLeads n₀ (execAtlnext o s) := by
  refine h.issue fun u c h => ?_
  extract_lets +onlyGivenNames a
  split
  · exact h
  extract_lets +onlyGivenNames held
  split
  · split
    · exact h.blocked
    · exact h.wrG
  · exact h.wrG
  · split
    · split
      · exact h.blocked
      · exact h.wrG
    · extract_lets +onlyGivenNames b keep u₁ cmd read
      have h₁ : Lawful n₀ u₁ := by
        unfold u₁
        split <;> exact h
      have hr : read.StaysLawful n₀ := h₁.readWhole fun _ _ h => h.wrG.wrField
      clear_value read
      split
      · exact Lawful.modSplitKeep hr (by intro; rfl)
      · exact Lawful.modSplitKeep hr (by intro; rfl)
      · exact Lawful.modSplitKeep hr (by intro; rfl)
      · exact hr

theorem Lawful.execAtldone {o : FE} (h : Lawful n₀ s) : LawfulLeads n₀ (execAtldone o s) := by
  refine h.issue fun u _ h => ?_
  dsimp only
  repeat' split
  all_goals exact h

theorem Lawful.stageMap {tw th : Nat} {bytes : List Nat} (h : Lawful n₀ s) : (stageMap s c d tw th bytes).StaysLawful n₀ := by
  unfold Machine.stageMap
  dsimp only
  split
  · exact h
  split
  · exact h.latchMap.modGroup.wrG
  · exact h.oweG.modGroup

theorem Lawful.execVrsl {o : FE} (h : Lawful n₀ s) : LawfulLeads n₀ (execVrsl o s) := by
  refine h.issue fun u c h => ?_
  extract_lets +onlyGivenNames b w tw th n r cmd
  split
  · exact h
  extract_lets +onlyGivenNames u₁ count
  have h₁ : Lawful n₀ u₁ := by
    unfold u₁
    split
    · exact h.cancelFlight
    · exact h
  have hc : ∀ r : Res, r.StaysLawful n₀ → (count r).StaysLawful n₀ := by
    intro r hr
    unfold count
    split
    · exact (Lawful.launch (Lawful.fresh hr)).modSplitKeep (by intro; rfl)
    · exact hr
  clear_value u₁ count
  refine h₁.onPath fun _ => hc _ ?_
  split
  · exact h₁
  split
  · exact h₁
  split
  · split
    · exact h₁
    · exact (h₁.modOutline (by intro; rfl)).stageMap
  · split
    · exact h₁
    split
    · exact h₁
    split
    · exact h₁
    · exact h₁.readWhole fun _ _ h => h.stageMap

theorem Lawful.formOperand {offs : List (Option Nat × LaneAcc)} (h : Lawful n₀ s) : (s.formOperand c w n offs).StaysLawful n₀ := by
  unfold State.formOperand
  dsimp only
  split
  · split
    · exact h
    split
    · exact h
    split
    · split
      · exact h
      · exact h.modOutline (by intro; rfl)
    split
    · exact h.formLines
    · exact (h.modOutline (by intro; rfl)).formLines
  · split
    all_goals
      split
      · exact h
      · split <;> exact h

theorem Lawful.execVisrd {o : FE} (h : Lawful n₀ s) : LawfulLeads n₀ (execVisrd o s) := by
  refine h.issue fun u _ h => ?_
  dsimp only
  split
  · exact h
  · exact h.onPath fun _ => h.formOperand.depart

theorem Lawful.readNow {rs : List LineReq} (h : Lawful n₀ s) : Lawful n₀ (s.readNow c n rs).1 := by
  induction rs generalizing s with
  | nil => exact h
  | cons r rs ih =>
    unfold State.readNow
    extract_lets f away
    split
    next u _ _ e =>
      have hu : Lawful n₀ u := .of_fst e h.prepare
      split
      · exact hu
      extract_lets here
      split
      next e => exact .of_fst e (ih hu)
      next e => exact .of_fst e (ih hu)

theorem Lawful.sampTexels {o : FE} {sup : List Nat} {reqs : List LineReq} (h : Lawful n₀ s) :
    (s.sampTexels c o sup reqs).StaysLawful n₀ := by
  unfold State.sampTexels
  dsimp only
  split
  next e => exact .of_fst e h.readNow
  next u _ e =>
    have h : Lawful n₀ u := .of_fst e h.readNow
    split
    next e => exact Formed.StaysLawful.of_eq e h.formOperand
    · exact h.formOperand

theorem Lawful.execSamp {o : FE} (h : Lawful n₀ s) : LawfulLeads n₀ (execSamp o s) := by
  refine h.issue fun u c h => ?_
  extract_lets +onlyGivenNames b
  split
  · exact h
  refine h.onPath fun _ => ?_
  split
  · exact h
  split
  next u' _ _ e =>
    have hv : Lawful n₀ u' := Formed.StaysLawful.of_eq e h.formOperand
    split
    next e => exact Sampled.StaysLawful.of_eq e hv.sampTexels
    next e => exact Formed.StaysLawful.depart (Sampled.StaysLawful.of_eq e hv.sampTexels)
    next w zero _ reqs e =>
      have hw : Lawful n₀ w := Sampled.StaysLawful.of_eq e hv.sampTexels
      have hd {mk} : (depart c { path := 7, n := 8 } (.ok w zero reqs) (some ⟨.v, o.d.toNat, 2, c.act⟩) mk).StaysLawful n₀ :=
        Formed.StaysLawful.depart hw
      split
      next e =>
        have hj := Res.StaysLawful.of_eq e hd
        exact Lawful.modSplitKeep hj (by intro; rfl)
      · exact hd
  · exact h.formOperand.depart

theorem Lawful.execEngineCommandStart {e : EvEngine} (h : Lawful n₀ s) : LawfulLeads n₀ (execEngineCommandStart e s) := by
  unfold Machine.execEngineCommandStart
  split
  · exact h.startCopy
  · exact h.startCopy
  · exact h.startRay
  · exact h

theorem Lawful.execEngineTransfer {e : EvEngineCmd} (h : Lawful n₀ s) : LawfulLeads n₀ (execEngineTransfer e s) := by
  unfold Machine.execEngineTransfer
  split
  · exact h.transferUnit
  split
  · exact h
  split
  · exact h
  split
  · exact h.tileStep
  · exact h

theorem Lawful.engineReadTurn (h : Lawful n₀ s) : Lawful n₀ (s.engineReadTurn gid sel n lv addr) := by
  unfold State.engineReadTurn
  split
  · exact h
  next g _ =>
    split
    · exact h
    next cmd _ =>
      extract_lets +onlyGivenNames ready
      split
      · exact h
      have hr : Lawful n₀ (if lv = 0 then s.unitGlobal g addr none else s.unitLocal g lv addr none 4 (cmd.stamp s.nextId)).1 := by
        split
        · exact h.unitGlobal
        · exact h.unitLocal
      split
      next u _ _ _ e =>
        have hu : Lawful n₀ u := .of_fst e hr
        extract_lets +onlyGivenNames a
        split <;> exact hu
      next e => exact .of_fst e hr

theorem Lawful.execEngineCommandComplete {e : EvEngineCmd} (h : Lawful n₀ s) : LawfulLeads n₀ (execEngineCommandComplete e s) := by
  unfold Machine.execEngineCommandComplete
  split
  · exact h
  split
  · exact h
  split
  · exact h.engDone
  · exact h

end Sys2Proof.Machine
end

section
/-!
PROOFS. Every MODE stays legal: what comes back to accesses, and what the host sends.
-/
namespace Sys2Proof.Machine

variable {n₀ : Nat} {s : State} {who : Asker} {ok own clean drop : Bool} {f : Flight} {g : Group} {lanes : LaneMask}
variable {lines frames : List Nat} {fid core asid tid uid code detail k gid sel n line agent id i : Nat} {t : Team} {pc : Word}

theorem Lawful.yardFault (h : Lawful n₀ s) : Lawful n₀ (s.yardFault t f) := by
  unfold State.yardFault
  dsimp only
  split
  · exact h.modFlight.endFlight
  · exact h.getD h.modFlight.endFlight.raise

theorem Lawful.serve {p : AccKind → Bool} (h : Lawful n₀ s) : Lawful n₀ (s.serve fid p) := by
  unfold State.serve
  split
  · exact h
  split
  · exact h
  split
  · split
    · exact h.yardFault
    · exact h.performAll.returnFlight
  · exact h.performAll.returnFlight

theorem Lawful.execLoadDataReturn {e : EvFlight} (h : Lawful n₀ s) : LawfulLeads n₀ (execLoadDataReturn e s) := h.serve
theorem Lawful.execStorePerformed {e : EvFlight} (h : Lawful n₀ s) : LawfulLeads n₀ (execStorePerformed e s) := h.serve
theorem Lawful.execMonitorRegistration {e : EvFlight} (h : Lawful n₀ s) : LawfulLeads n₀ (execMonitorRegistration e s) := h.serve

theorem Lawful.execSlcRequest {e : EvFlightLine} (h : Lawful n₀ s) : LawfulLeads n₀ (execSlcRequest e s) := by
  unfold Machine.execSlcRequest
  split
  · exact h
  refine h.foldl fun u _ h => ?_
  split
  · split
    · exact h.performReq
    · exact h
  · exact h

theorem Lawful.execL1Invalidation {e : EvCoreLine} (h : Lawful n₀ s) : LawfulLeads n₀ (execL1Invalidation e s) := by
  unfold Machine.execL1Invalidation
  split
  · exact Lawful.conflict (Lawful.dropHcCopy h)
  · exact h

theorem Lawful.retranslate {pick : LineReq → Bool} (h : Lawful n₀ s) : Lawful n₀ (s.retranslate core asid f pick).1 := by
  unfold State.retranslate
  split
  next u _ e =>
    have hu : Lawful n₀ u := by
      refine .of_fst e (h.foldl_fst fun q r hq => ?_)
      split
      · exact hq.lineOf
      · exact hq
    extract_lets write lanesOf kinds has
    repeat' split
    all_goals exact hu

theorem Lawful.lateTrap (h : Lawful n₀ s) : Lawful n₀ (s.lateTrap tid uid code detail lanes pc) := h.modSplitKeep (by intro; rfl)

theorem Lawful.releaseHeld (h : Lawful n₀ s) : Lawful n₀ (s.releaseHeld tid uid fid).1 := by
  unfold State.releaseHeld
  dsimp only
  split
  · split
    · split
      · split
        · exact h.modFlight.performAll.returnFlight
        · exact h.modFlight.performAll
      · exact h.modFlight.performAll
    · split
      next e => exact .of_fst e h.retranslate
      next e => exact (Lawful.of_fst e h.retranslate).groupPath
      next e => exact (Lawful.of_fst e h.retranslate).cancelFlight.lateTrap
      next u _ e =>
        have h : Lawful n₀ u := .of_fst e h.retranslate
        split
        · split
          · exact h.modFlight.modFlight.performAll.returnFlight
          · exact h.modFlight.modFlight.performAll
        · exact h.modFlight.modFlight.performAll
      next u _ _ e =>
        have h : Lawful n₀ u := .of_fst e h.retranslate
        split
        · exact h
        split
        · exact h
        · exact (h.modFlight.modSplitKeep (by intro; rfl)).reportFault
  · exact h

theorem Lawful.releaseAll {xs : List Nat} (h : Lawful n₀ s) : Lawful n₀ (s.releaseAll tid uid xs).1 := by
  induction xs generalizing s with
  | nil => exact h
  | cons x xs ih =>
    unfold State.releaseAll
    split
    next e => exact ih (.of_fst e h.releaseHeld)
    · exact h.releaseHeld

theorem Lawful.execFenceComplete {e : EvSplit} (h : Lawful n₀ s) : LawfulLeads n₀ (execFenceComplete e s) := by
  unfold Machine.execFenceComplete
  extract_lets +onlyGivenNames mine held
  clear_value held
  split
  · split
    · exact h
    split
    · exact h.releaseAll
    · exact h
  · split
    · exact h
    split
    · exact h
    extract_lets +onlyGivenNames waiting
    have hq : Lawful n₀ (if waiting then (s, false) else s.releaseAll e.team e.split held).1 := by
      split
      · exact h
      · exact h.releaseAll
    split
    next e =>
      extract_lets +onlyGivenNames s₁ kept
      have h₁ : Lawful n₀ s₁ := by
        unfold s₁
        split
        · exact (Lawful.of_fst e hq).splitAcquires
        · exact .of_fst e hq
      have hk : Lawful n₀ kept := h₁.modSplitKeep (by intro; rfl)
      clear_value s₁ kept
      split
      · exact hk
      extract_lets free
      split
      · exact hk.modSplitKeep (by intro; rfl)
      · exact hk.getD (hk.modSplitKeep (by intro; rfl)).raise

theorem Lawful.execWaitmonTimeout {e : EvSplit} (h : Lawful n₀ s) : LawfulLeads n₀ (execWaitmonTimeout e s) := by
  unfold Machine.execWaitmonTimeout
  iterate 2 (split; · exact h)
  split
  · split
    · exact h.modOutline (f := fun t => t.wake e.split 3) fun t => t.wake_outline ..
    · exact h
  · exact h

theorem Lawful.execPageWalkComplete {e : EvWalk} (h : Lawful n₀ s) : LawfulLeads n₀ (execPageWalkComplete e s) := by
  unfold Machine.execPageWalkComplete
  split
  · exact h.translate
  · exact h

theorem Lawful.freeFaultTicket (h : Lawful n₀ s) : Lawful n₀ (s.freeFaultTicket k) := by
  unfold State.freeFaultTicket
  dsimp only
  split
  · exact h
  · exact Lawful.reportFault h

theorem Lawful.answerSplit (h : Lawful n₀ s) : Lawful n₀ (s.answerSplit tid uid ok) := by
  unfold State.answerSplit
  split
  · exact (h.modSplitKeep (by intro; rfl)).splitAcquires
  · exact h.modSplitKeep (by intro; rfl)

theorem Lawful.answerEngine (h : Lawful n₀ s) : Lawful n₀ (s.answerEngine gid sel n ok) := by
  unfold State.answerEngine
  iterate 4 (split; · exact h)
  split
  · exact h.matFail
  · exact h.rastFail
  · exact h.engFail

theorem Lawful.execFaultReply {e : EvReply} (h : Lawful n₀ s) : LawfulLeads n₀ (execFaultReply e s) := by
  unfold Machine.execFaultReply
  dsimp only
  split
  · split
    · exact h.freeFaultTicket.answerSplit
    · exact h.freeFaultTicket.answerEngine
    · exact h.freeFaultTicket
    split
    · exact h.freeFaultTicket
    · exact Lawful.send h.freeFaultTicket
  · exact h

theorem Lawful.refuse {p : Split} {k : Park} (h : Lawful n₀ s) : Lawful n₀ (s.refuse t p k) := by
  unfold State.refuse
  split
  next u _ _ e =>
    have hu : Lawful n₀ u := by
      refine .of_fst e ?_
      split
      · exact h
      · split
        · exact h.cancelFlight
        · exact h
      · exact h.abandonFlight
    extract_lets s'
    have h' : Lawful n₀ s' := hu.modSplitKeep (by intro; rfl)
    clear_value s'
    split
    · exact h'.lateTrap
    · exact h.getD h'.raise

theorem Lawful.resample {p : Split} (h : Lawful n₀ s) : Lawful n₀ (s.resample t p g f).1 := by
  unfold State.resample
  split
  · exact h.retranslate
  extract_lets +onlyGivenNames o src c stop
  have hs : ∀ q : Formed, q.StaysLawful n₀ → Lawful n₀ (stop q).1 := by
    intro q hq
    unfold stop
    split <;> exact hq
  clear_value stop
  split
  next e =>
    have hu := Formed.StaysLawful.of_eq e h.formOperand
    split
    next e => exact Sampled.StaysLawful.of_eq e (Lawful.sampTexels hu)
    next e => exact hs _ (Sampled.StaysLawful.of_eq e (Lawful.sampTexels hu))
    next u' _ _ _ e =>
      have hv : Lawful n₀ u' := Sampled.StaysLawful.of_eq e (Lawful.sampTexels hu)
      extract_lets +onlyGivenNames f'
      split
      next e => exact .of_fst e (Lawful.retranslate hv.modFlight)
      · exact Lawful.retranslate hv.modFlight
  · exact hs _ h.formOperand

theorem Lawful.replayAccess {p : Split} {k : Park} (h : Lawful n₀ s) : Lawful n₀ (s.replayAccess t p g k f) := by
  unfold State.replayAccess
  dsimp only
  split
  all_goals
    split
    · exact h
    · split
      next e => exact .of_fst e h.resample
      next e => exact (Lawful.of_fst e h.resample).groupPath
      next u _ _ _ e =>
        have h : Lawful n₀ u := .of_fst e h.resample
        split
        · exact (h.abandonFlight.modSplitKeep (by intro; rfl)).lateTrap
        · exact h.getD (h.abandonFlight.modSplitKeep (by intro; rfl)).raise
      next u _ _ e =>
        have h : Lawful n₀ u := .of_fst e h.resample
        split
        · exact (h.modFlight.modCore.modSplitKeep (by intro; rfl)).reportFault
        · exact h.modFlight.modCore.modSplitKeep (by intro; rfl)

theorem Lawful.execParkedReplay {e : EvSplit} (h : Lawful n₀ s) : LawfulLeads n₀ (execParkedReplay e s) := by
  unfold Machine.execParkedReplay
  dsimp only
  split
  · exact h
  split
  · split
    · exact h
    split
    all_goals
      split
      · exact h
      · split
        · exact h.refuse
        · split
          · exact h
          · split
            · split
              · exact h.replayAccess
              · exact h.modSplitKeep (by intro; rfl)
            · exact h.modSplitKeep (by intro; rfl)
  · exact h

theorem Lawful.execTranslationInvalidation {e : EvInv} (h : Lawful n₀ s) : LawfulLeads n₀ (execTranslationInvalidation e s) := by
  unfold Machine.execTranslationInvalidation
  split
  · exact h
  · exact h.mapTeams rfl le_rfl (fun _ _ h => h) fun _ => rfl

theorem Lawful.execInvalidationAck (h : Lawful n₀ s) : LawfulLeads n₀ (execInvalidationAck s) := by
  unfold Machine.execInvalidationAck
  split
  · exact h
  split
  · exact Lawful.send h
  · exact h

theorem Lawful.hostDir (h : Lawful n₀ s) : Lawful n₀ (s.hostDir line own agent).1 := by
  unfold State.hostDir
  dsimp only
  split
  · exact h
  split
  · exact h
  split
  · exact h.recall
  · split <;> exact h

theorem Lawful.hostAsk {lines : List (Nat × List Nat)} (h : Lawful n₀ s) : Lawful n₀ (s.hostAsk lines own agent who).1 := by
  unfold State.hostAsk
  refine h.foldl_fst fun _ _ h => ?_
  split
  · exact h
  split
  next e => exact .of_fst e h.hostDir
  next u e =>
    have h : Lawful n₀ u := .of_fst e h.hostDir
    split
    next e => exact .of_fst e h.slcFill

theorem Lawful.setHost {h₀ : HostSt} (h : Lawful n₀ s) : Lawful n₀ (s.setHost lines h₀ agent) := h.foldl fun _ _ h => h.setDir
theorem Lawful.noticeHost {who : Agent} (h : Lawful n₀ s) : Lawful n₀ (s.noticeHost lines who) := h.foldl fun _ _ h => h.missed
theorem Lawful.hostAcquires {plat : Bool} (h : Lawful n₀ s) : Lawful n₀ (s.hostAcquires id plat) := h

theorem Lawful.hostTry {r : HostReq} (h : Lawful n₀ s) : Lawful n₀ (s.hostTry who r).1 := by
  unfold State.hostTry
  dsimp only
  split
  · split
    · split
      next e => exact .of_fst e h.hostAsk
      next e => exact (Lawful.of_fst e h.hostAsk).hostAcquires.send.setHost
    · exact h
  · split
    · split
      next e => exact .of_fst e h.hostAsk
      next e => exact (Lawful.of_fst e h.hostAsk).noticeHost.slcWrite.setHost.send
    · exact h
  · split
    · split
      next e => exact .of_fst e h.hostAsk
      next u e =>
        have h : Lawful n₀ u := .of_fst e h.hostAsk
        split
        · exact h.noticeHost.slcWrite.hostAcquires.setHost.send
        · exact h.hostAcquires.setHost.send
    · exact h

theorem Lawful.hostWait {r : HostReq} (h : Lawful n₀ s) : Lawful n₀ (s.hostWait r) := Lawful.foldl h.fresh fun _ _ h => h.claim

theorem Lawful.hostArrive {r : HostReq} (h : Lawful n₀ s) : Lawful n₀ (s.hostArrive r) := by
  unfold State.hostArrive
  split
  · exact h
  split
  · split
    next e => exact .of_fst e h.hostTry
    next e => exact (Lawful.of_fst e h.hostTry).hostWait
  · exact h.hostWait

theorem Lawful.hostTurn (h : Lawful n₀ s) : Lawful n₀ (s.hostTurn i) := by
  unfold State.hostTurn
  split
  · exact h
  split
  next u e =>
    have h : Lawful n₀ u := .of_fst e h.hostTry
    exact h
  next e => exact .of_fst e h.hostTry

theorem Lawful.execSnoopResponse {e : EvSnoop} (h : Lawful n₀ s) : LawfulLeads n₀ (execSnoopResponse e s) := by
  unfold Machine.execSnoopResponse
  split
  · exact h
  · exact Lawful.setDir (Lawful.foldl h fun _ _ h => h.slcSectorWrite)

theorem Lawful.maintL1 (h : Lawful n₀ s) : Lawful n₀ (s.maintL1 core lines clean drop).1 := by
  refine h.foldl_fst fun q l h => ?_
  have hc : Lawful n₀ (if clean then q.1.cleanL1 core l else (q.1, true)).1 := by
    split
    · exact h.cleanL1
    · exact h
  generalize (if clean then q.1.cleanL1 core l else (q.1, true)) = r at hc ⊢
  obtain ⟨u, ok⟩ := r
  dsimp only at hc ⊢
  split
  · exact hc
  split
  · exact hc.dropL1
  · exact hc

theorem Lawful.maintL2 (h : Lawful n₀ s) : Lawful n₀ (s.maintL2 lines clean drop).1 := by
  refine h.foldl_fst fun q l h => ?_
  have hc : Lawful n₀ (if clean then q.1.cleanL2 l else (q.1, true)).1 := by
    split
    · exact h.cleanL2
    · exact h
  generalize (if clean then q.1.cleanL2 l else (q.1, true)) = r at hc ⊢
  obtain ⟨u, ok⟩ := r
  dsimp only at hc ⊢
  split
  · exact hc
  split
  · exact hc.dropL2
  · exact hc

theorem Lawful.cleanFrames (h : Lawful n₀ s) : Lawful n₀ (s.cleanFrames frames).1 := by
  unfold State.cleanFrames
  extract_lets mine
  split
  next u _ e =>
    have hu : Lawful n₀ u := .of_fst e (Lawful.foldl_fst h fun _ _ h => h.maintL1)
    split
    next w _ e =>
      have hw : Lawful n₀ w := .of_fst e hu.maintL2
      exact Lawful.foldl hw fun _ _ h => h.setDir

theorem Lawful.execFrameCleanComplete (h : Lawful n₀ s) : LawfulLeads n₀ (execFrameCleanComplete s) := by
  unfold Machine.execFrameCleanComplete
  split
  · exact h
  split
  next u e =>
    have hu : Lawful n₀ u := .of_fst e h.cleanFrames
    exact hu
  next e => exact .of_fst e h.cleanFrames

theorem Lawful.execCmaintComplete {e : EvFlight} (h : Lawful n₀ s) : LawfulLeads n₀ (execCmaintComplete e s) := by
  unfold Machine.execCmaintComplete
  dsimp only
  split
  · exact h
  split
  · split
    · exact h
    split
    all_goals
      split
      · split
        · exact h.maintL1.maintL2.modFlight.returnFlight
        · exact h.maintL1.maintL2
      · split
        · exact h.maintL1.modFlight.returnFlight
        · exact h.maintL1
  · exact h

theorem Lawful.execIcinvComplete {e : EvSplit} (h : Lawful n₀ s) : LawfulLeads n₀ (execIcinvComplete e s) := by
  unfold Machine.execIcinvComplete
  split
  · exact h
  split
  · split
    · exact h
    · exact Lawful.modSplitKeep (h.mapTeams rfl le_rfl (fun _ _ h => h) fun _ => rfl) (by intro; rfl)
  · exact h

theorem Lawful.ringTurn (h : Lawful n₀ s) : Lawful n₀ (s.ringTurn i) := by
  unfold State.ringTurn
  split
  · exact h
  extract_lets +onlyGivenNames gone len
  have hg : ∀ {u}, Lawful n₀ u → Lawful n₀ (gone u) := fun h => h
  clear_value gone
  split
  · exact h
  split
  · exact hg h.ringWrite
  extract_lets +onlyGivenNames ls
  split
  next e => exact .of_fst e (h.foldl_fst fun _ _ h => h.slcAsk)
  next u e =>
    have hu : Lawful n₀ u := .of_fst e (h.foldl_fst fun _ _ h => h.slcAsk)
    have hn : Lawful n₀ (ls.foldl (fun s l => s.noticeWrite (.slc none) l.1 .device) u) := hu.foldl fun _ _ h => h.noticeWrite
    exact hg hn.ringWrite

theorem Lawful.execBankAccess {e : EvBankAccess} (h : Lawful n₀ s) : LawfulLeads n₀ (execBankAccess e s) := by
  unfold Machine.execBankAccess
  dsimp only
  split
  · exact h
  · split
    · exact h.putBank.accessServed
    · exact h
  · exact h

theorem Lawful.execPerBankRefresh {e : EvBank} (h : Lawful n₀ s) : LawfulLeads n₀ (execPerBankRefresh e s) := h

theorem Lawful.execBankSegmentRequest {e : EvBank} (h : Lawful n₀ s) : LawfulLeads n₀ (execBankSegmentRequest e s) := by
  unfold Machine.execBankSegmentRequest
  dsimp only
  split
  · exact h
  split
  · split
    · exact h.putBank.answer
    split
    · exact h.putBank.answer
    · exact h.putBank
    · split <;> exact h.putBank
  · split
    · exact h.putBank.answer
    · split
      · exact h.putBank
      · exact h.putBank.answer
  · exact h.putBank.accessServed
  · exact h

theorem Lawful.execSegmentWritebackDone {e : EvBank} (h : Lawful n₀ s) : LawfulLeads n₀ (execSegmentWritebackDone e s) := by
  unfold Machine.execSegmentWritebackDone
  dsimp only
  split
  · exact h.putBank
  · exact h.putBank.answer
  · exact h

theorem Lawful.execSegmentCopyDone {e : EvBank} (h : Lawful n₀ s) : LawfulLeads n₀ (execSegmentCopyDone e s) := by
  unfold Machine.execSegmentCopyDone
  dsimp only
  split
  · exact h.putBank.answer
  · exact h

end Sys2Proof.Machine
end

section
/-!
PROOFS. Every MODE stays legal: launch, power, preemption, contexts, debug and trust.
-/
namespace Sys2Proof.Machine

variable {n₀ : Nat} {s before : State} {e : EvGroup} {g : Group} {quads frames : List Nat} {jca value asid core gid i k off tid : Nat}
variable {ray : Ray} {res : Residence} {t : Team}

theorem Lawful.execClaimGrant {e : EvQuad} (h : Lawful n₀ s) : LawfulLeads n₀ (execClaimGrant e s) := by
  unfold Machine.execClaimGrant
  split
  · exact h
  split
  · exact h
  split
  · split
    · exact h.getD (h.modQuad.modSplitKeep (by intro; rfl)).raise
    split
    · exact h.modQuad.grantClaim.complete
    split
    · exact h.getD (h.modQuad.modSplitKeep (by intro; rfl)).raise
    · exact h
  · exact h

/-- The split that rotation spills is one of the team's. -/
theorem Team.Lawful.leastRes {c : Split} {cs : List Split} (h : ∀ q ∈ c :: cs, modeReserved q.mode = false) :
    modeReserved (cs.foldl (fun (a : Split) p => if p.res < a.res then p else a) c).mode = false := by
  refine List.foldlRecOn (motive := fun q : Split => modeReserved q.mode = false) cs _ (h c List.mem_cons_self) fun a ha p hp => ?_
  split
  · exact h p (List.mem_cons_of_mem _ hp)
  · exact ha

theorem Lawful.execSplitRotation {e : EvTeam} (h : Lawful n₀ s) : LawfulLeads n₀ (execSplitRotation e s) := by
  unfold Machine.execSplitRotation
  split
  · exact h
  next t ht =>
  split
  next d ds c cs hd hc =>
    split
    · exact h
    have hl : t.Lawful := h.team ht
    have hds : ∀ q ∈ d :: ds, modeReserved q.mode = false := fun q hq => hl.deferred (hd ▸ hq)
    have hv := Team.Lawful.leastRes fun q hq => hl.splits (List.mem_of_mem_filter (hc ▸ hq))
    extract_lets v arming s₁ s₂ s₃ v'
    have h₃ : Lawful n₀ s₃ := h
    refine h₃.modTeam (fun x hx => Team.Lawful.reloadAt ?_ (hds d List.mem_cons_self)) fun x => ?_
    · have hy : (x.settle v.uid).Lawful := hx.of_outline (Team.settle_outline ..)
      refine hy.of_parts (fun q hq => hy.splits (List.mem_of_mem_filter hq)) (fun q hq => ?_) (fun q hq => hy.handler hq) rfl rfl
      rcases List.mem_append.1 hq with hq | hq
      · exact hds q (List.mem_cons_of_mem _ hq)
      · have hm : modeReserved v'.mode = false := hv
        cases List.mem_singleton.1 hq
        exact (Split.spill_mode hm).symm ▸ hm
    · exact (Team.reloadAt_id ..).trans (Team.settle_id ..)
  · exact h

theorem Lawful.execSplitReload {e : EvTeam} (h : Lawful n₀ s) : LawfulLeads n₀ (execSplitReload e s) := by
  unfold Machine.execSplitReload
  dsimp only
  split
  · exact h
  split
  · exact h
  split
  · exact h
  · exact h.passCycles

theorem Lawful.execTeamGranuleReturn {e : EvTeam} (h : Lawful n₀ s) : LawfulLeads n₀ (execTeamGranuleReturn e s) := by
  unfold Machine.execTeamGranuleReturn
  split
  · exact h
  split
  · exact h.dropTeam
  · exact h

theorem Lawful.execGroupEnd (h : Lawful n₀ s) : LawfulLeads n₀ (execGroupEnd e s) := by
  unfold Machine.execGroupEnd
  split
  · exact h
  next g _ =>
    split
    · exact h
    split
    · exact h.groupPath
    split
    · exact h
    extract_lets +onlyGivenNames leave
    have hl : ∀ {u}, Lawful n₀ u → Lawful n₀ (leave u) := by
      intro u hu
      unfold leave
      extract_lets +onlyGivenNames u₁ u₂
      have h₂ : Lawful n₀ u₂ := hu.revokeYard (gid := g.id)
      clear_value u₂
      split
      · exact h₂
      · exact Lawful.jcAdd h₂
    clear_value leave
    split
    · exact hl h
    extract_lets +onlyGivenNames u₁
    have h₁ : Lawful n₀ u₁ := h.markLeaving
    change Lawful n₀ (if _ then _ else _ : State)
    split
    · exact hl h₁
    · exact h₁

theorem Lawful.execSpawnWrite {e : EvSpawn} (h : Lawful n₀ s) : LawfulLeads n₀ (execSpawnWrite e s) := by
  unfold Machine.execSpawnWrite
  iterate 2 (split; · exact h)
  dsimp only
  exact h.createNode.send

theorem Lawful.finishNode {n : Node} {failed : Bool} (h : Lawful n₀ s) : Lawful n₀ (s.finishNode n jca value failed) := h.jcAdd
theorem Lawful.rejectNode {n : Node} {r : Nat} (h : Lawful n₀ s) : Lawful n₀ (s.rejectNode n jca r) := h.finishNode

theorem Lawful.execNodeDispatch {e : EvNode} (h : Lawful n₀ s) : LawfulLeads n₀ (execNodeDispatch e s) := by
  unfold Machine.execNodeDispatch
  split
  · exact h
  next n _ =>
    split
    · exact h
    split
    · have hq : Lawful n₀ (if n.jcaSpawn ≠ 0 then (s, DRead.ok n.jcaSpawn) else s.dispRead n.asid (n.hdrAddr + 0x38) 8).1 := by
        split
        · exact h
        · exact h.dispRead
      split
      next u _ e =>
        have hu : Lawful n₀ u := .of_fst e hq
        split
        · exact hu
        · exact hu.rejectNode
        · exact hu.rejectNode
    · split
      · exact h
      split
      next u _ e =>
        have hu : Lawful n₀ u := .of_fst e h.dispRead
        extract_lets +onlyGivenNames raw
        split
        next s₁ _ e =>
          have h₁ : Lawful n₀ s₁ := by
            refine .of_fst e ?_
            split
            · exact hu
            split
            · exact hu
            · exact hu.dispRead
          extract_lets +onlyGivenNames jca block
          have hb : ∀ {w : State} {va k : Nat}, Lawful n₀ w → Lawful n₀ (block w va k).1 := by
            intro w va k hw
            unfold block
            split
            · exact hw
            · exact hw.dispRead
          clear_value block
          split
          next s₂ _ e =>
            have h₂ : Lawful n₀ s₂ := .of_fst e (hb h₁)
            split
            next s₃ _ e =>
              have h₃ : Lawful n₀ s₃ := .of_fst e (hb h₂)
              split
              next s₄ _ e =>
                have h₄ : Lawful n₀ s₄ := .of_fst e (hb h₃)
                extract_lets +onlyGivenNames words rs
                split
                · exact h₄
                split
                · exact h₄.rejectNode
                extract_lets +onlyGivenNames recs hd
                split
                · exact h₄
                · exact h₄.rejectNode

theorem Lawful.execNodeComplete {e : EvNode} (h : Lawful n₀ s) : LawfulLeads n₀ (execNodeComplete e s) := by
  unfold Machine.execNodeComplete
  split
  · exact h
  split
  · exact h.finishNode
  · exact h

theorem Lawful.stageLines {vas : List Nat} (h : Lawful n₀ s) : Lawful n₀ (s.stageLines asid vas).1 := by
  induction vas generalizing s with
  | nil => exact h
  | cons va vas ih =>
    unfold State.stageLines
    split
    next e => exact .of_fst e h.lineOf
    next e => exact ih (.of_fst e h.lineOf)
    next e => exact ih (.of_fst e h.lineOf)

theorem Lawful.execTileStaging {e : EvNode} (h : Lawful n₀ s) : LawfulLeads n₀ (execTileStaging e s) := by
  unfold Machine.execTileStaging
  iterate 3 (split; · exact h)
  split
  next e => exact .of_fst e h.stageLines
  next u _ e =>
    have h : Lawful n₀ u := .of_fst e h.stageLines
    exact Lawful.modNode h

/-- A team as placed has MODE 0. -/
theorem launchTeam_lawful {h : Header} {x : Ctxt} {gid gamma per id uid index quad slot role lanes : Nat} {words : List Word} {r : RoleEnt} :
    (launchTeam h x gid core gamma per words id uid index quad slot role r lanes).Lawful := by
  have h0 : modeReserved 0 = false := by decide
  refine ⟨fun p hp => ?_, fun q hq => ?_, List.forall_mem_nil _⟩
  · cases List.mem_singleton.1 hp
    exact h0
  · unfold launchTeam at hq
    dsimp only at hq
    split at hq
    · cases hq
      exact h0
    · cases hq

/-- Teams that are placed under identifiers not given out before. -/
theorem Lawful.withTeams {u : State} {l : List Team} (h : Lawful n₀ s) (e : u.teams = s.teams ++ l) (hd : (l.map (·.id)).Nodup)
    (hl : ∀ t ∈ l, s.nextId ≤ t.id ∧ t.id < u.nextId ∧ t.Lawful) (hn : s.nextId ≤ u.nextId) : Lawful n₀ u := by
  obtain ⟨⟨hs, hi, ht⟩, hb⟩ := h
  unfold Lawful State.Legal
  rw [e, List.map_append, List.nodup_append]
  refine ⟨⟨⟨hs, hd, ?_⟩, fun t m => ?_, fun t m => ?_⟩, hb.trans hn⟩
  · intro a ha b hb
    obtain ⟨t, ht, rfl⟩ := List.mem_map.1 ha
    obtain ⟨x, hx, rfl⟩ := List.mem_map.1 hb
    exact Nat.ne_of_lt ((hi t ht).trans_le (hl x hx).1)
  · rcases List.mem_append.1 m with m | m
    · exact (hi t m).trans_le hn
    · exact (hl t m).2.1
  · rcases List.mem_append.1 m with m | m
    · exact ht t m
    · exact (hl t m).2.2

/-- An identifier is given out in the state that a function leaves with the same teams. -/
theorem Lawful.next {u : State} (h : Lawful n₀ s) (hu : Lawful n₀ u) (e : u.teams.map (·.id) = s.teams.map (·.id)) :
    Lawful n₀ { u with nextId := s.nextId + 1 } := by
  obtain ⟨⟨-, hi, -⟩, hb⟩ := h
  obtain ⟨⟨hd, -, ht⟩, -⟩ := hu
  refine ⟨⟨hd, fun t m => ?_, ht⟩, Nat.le_succ_of_le hb⟩
  have hm : t.id ∈ s.teams.map (·.id) := e ▸ List.mem_map_of_mem m
  obtain ⟨x, hx, ex⟩ := List.mem_map.1 hm
  exact ex ▸ Nat.lt_succ_of_lt (hi x hx)

theorem State.modTeam_ids {k : Nat} {f : Team → Team} (hf : ∀ t, (f t).id = t.id) :
    (s.modTeam k f).teams.map (·.id) = s.teams.map (·.id) := by
  rw [State.modTeam_teams, List.map_map]
  refine List.map_congr_left fun t _ => ?_
  dsimp only [Function.comp]
  split
  · exact hf t
  · rfl

theorem Alike.ids {u : State} (h : Alike s u) : u.teams.map (·.id) = s.teams.map (·.id) := by
  have := congrArg (List.map TeamOutline.id) h.1
  rwa [List.map_map, List.map_map] at this

theorem SameFaces.ids {u : State} (h : SameFaces s u) : u.teams.map (·.id) = s.teams.map (·.id) := by
  have := congrArg (List.map TeamFace.id) h.1
  rwa [List.map_map, List.map_map] at this

theorem State.stopTeam_ids (s : State) (tid : Nat) (res : Residence) : (s.stopTeam tid res).teams.map (·.id) = s.teams.map (·.id) := by
  unfold State.stopTeam
  split
  · rfl
  extract_lets s₁ all s₂ arms s₃ stop held s₄
  have h₂ : SameFaces s s₂ :=
    foldl_holds _ (SameFaces s) (fun _ _ h => h.discardFence ..) _ _ (((SameFaces.refl s).flushParked tid).leaveQueues ..)
  have h₃ := foldl_holds (fun s u => s.dropArms tid u) (SameFaces s) (fun _ _ h => h) arms s₂ h₂
  have h₄ : s₄.teams.map (·.id) = s₃.teams.map (·.id) := State.modTeam_ids (by intro; rfl)
  exact h₄.trans h₃.ids

theorem Lawful.placeGroup {n : Node} {h₀ : Header} {x : Ctxt} {p : Nat × Nat × List Word × Nat} (h : Lawful n₀ s) :
    Lawful n₀ (s.placeGroup n h₀ x core quads p) :=
  by
  unfold State.placeGroup
  extract_lets ts gid slots
  split
  extract_lets teams g s₁ s₂ s₃
  have h₁ : Lawful n₀ s₁ := by
    have hid : teams.map (·.id) = (ts.zipIdx.map (·.2)).map fun i => gid + 1 + 2 * i := by
      rw [List.map_map, List.map_map]
      rfl
    refine h.withTeams (l := teams) rfl (hid ▸ (List.nodup_zipIdx_map_snd ts).map fun a b e => by omega) (fun t ht => ?_) ?_
    · obtain ⟨q, hq, rfl⟩ := List.mem_map.1 ht
      have hlt : q.2 < ts.length := by simpa using List.snd_lt_of_mem_zipIdx hq
      refine ⟨?_, ?_, launchTeam_lawful⟩
      · show gid ≤ gid + 1 + 2 * q.2
        omega
      · show gid + 1 + 2 * q.2 < gid + 1 + 2 * ts.length
        omega
    · show gid ≤ gid + 1 + 2 * ts.length
      omega
  have h₃ : Lawful n₀ s₃ := Lawful.foldl (Lawful.modCore h₁) fun _ _ h => h.foldl fun _ _ h => h.splitAcquires
  exact h₃.modNode

theorem Lawful.execGroupPlacement {e : EvNode} (h : Lawful n₀ s) : LawfulLeads n₀ (execGroupPlacement e s) := by
  unfold Machine.execGroupPlacement
  split
  · split
    · exact h.findTiles
    · exact h
  · split
    · split
      · split <;> exact h
      split
      · exact h
      split
      · exact h.placeGroup
      · exact h
    · exact h

theorem Lawful.fallFrom (h : Lawful n₀ s) : Lawful n₀ (s.fallFrom before) := h

theorem Lawful.execLevelMove {e : EvCore} (h : Lawful n₀ s) : LawfulLeads n₀ (execLevelMove e s) := by
  unfold Machine.execLevelMove
  dsimp only
  repeat' split
  all_goals exact h

theorem Lawful.execLevelMoveComplete {e : EvCore} (h : Lawful n₀ s) : LawfulLeads n₀ (execLevelMoveComplete e s) := h

theorem Lawful.execDroopTrigger {e : EvDroop} (h : Lawful n₀ s) : LawfulLeads n₀ (execDroopTrigger e s) := by
  unfold Machine.execDroopTrigger
  split <;> exact h

theorem Lawful.execDroopStretchEnd {e : EvCore} (h : Lawful n₀ s) : LawfulLeads n₀ (execDroopStretchEnd e s) := by
  unfold Machine.execDroopStretchEnd
  split
  · exact h.passCycles
  · exact h

theorem Lawful.execDroopHalvingEnd {e : EvCore} (h : Lawful n₀ s) : LawfulLeads n₀ (execDroopHalvingEnd e s) := by
  unfold Machine.execDroopHalvingEnd
  split
  · exact h.passCycles
  · exact h

theorem Lawful.execBayPowerGate {e : EvBay} (h : Lawful n₀ s) : LawfulLeads n₀ (execBayPowerGate e s) := by
  unfold Machine.execBayPowerGate
  split <;> exact h

theorem Lawful.execBayWakeComplete {e : EvQuad} (h : Lawful n₀ s) : LawfulLeads n₀ (execBayWakeComplete e s) := by
  unfold Machine.execBayWakeComplete
  dsimp only
  split
  · exact h
  split
  · exact h
  · exact h.passCycles

theorem Lawful.execCorePowerGate {e : EvCore} (h : Lawful n₀ s) : LawfulLeads n₀ (execCorePowerGate e s) := by
  unfold Machine.execCorePowerGate
  repeat' split
  all_goals exact h

theorem Lawful.execCoreWakeComplete {e : EvCore} (h : Lawful n₀ s) : LawfulLeads n₀ (execCoreWakeComplete e s) := h

theorem Lawful.repool (h : Lawful n₀ s) : Lawful n₀ s.repool := by
  unfold State.repool
  dsimp only
  split <;> split <;> exact h.foldl fun _ _ h => h.grantHead

theorem Lawful.execSkinTemperatureInterval {e : EvSkin} (h : Lawful n₀ s) : LawfulLeads n₀ (execSkinTemperatureInterval e s) := by
  unfold Machine.execSkinTemperatureInterval
  split
  · split
    · exact h
    · exact Lawful.fallFrom (Lawful.repool h)
  · exact Lawful.fallFrom (Lawful.repool h)

theorem Lawful.execGovernorEstimate {e : EvGovernor} (h : Lawful n₀ s) : LawfulLeads n₀ (execGovernorEstimate e s) := by
  unfold Machine.execGovernorEstimate
  split
  · exact h
  · exact Lawful.fallFrom (Lawful.repool h)

theorem Lawful.execRtimerExpiry {e : EvTeam} (h : Lawful n₀ s) : LawfulLeads n₀ (execRtimerExpiry e s) := by
  unfold Machine.execRtimerExpiry
  split
  · exact h
  split
  · exact h.passCycles
  · exact h

theorem Lawful.execWallDeadlineExpiry {e : EvTeam} (h : Lawful n₀ s) : LawfulLeads n₀ (execWallDeadlineExpiry e s) := by
  unfold Machine.execWallDeadlineExpiry
  split
  · exact h
  split
  · exact h.modOutline (by intro; rfl)
  · exact h

theorem Lawful.execChargeWindowAging {e : EvCore} (h : Lawful n₀ s) : LawfulLeads n₀ (execChargeWindowAging e s) := by
  unfold Machine.execChargeWindowAging
  split
  · exact h.passCycles
  · exact h

theorem Lawful.execIdleBayCycle {e : EvBay} (h : Lawful n₀ s) : LawfulLeads n₀ (execIdleBayCycle e s) := by
  unfold Machine.execIdleBayCycle
  split
  · exact h.passCycles
  · exact h

theorem Lawful.execAsyncTrapEntry {e : EvTeam} (h : Lawful n₀ s) : LawfulLeads n₀ (execAsyncTrapEntry e s) := by
  unfold Machine.execAsyncTrapEntry
  split
  · exact h
  split
  · split
    · exact h
    · exact (h.flushParked.discardFence.modOutline (by intro; rfl)).takeTrap
  · exact h

theorem Lawful.execPoisonedRegisterRead {e : EvPoison} (h : Lawful n₀ s) : LawfulLeads n₀ (execPoisonedRegisterRead e s) := by
  unfold Machine.execPoisonedRegisterRead
  split
  · exact h
  split
  · split
    · exact h
    split
    · exact h.groupPath
    · exact (h.modOutline (by intro; rfl)).poisonHit
  · exact h

theorem Lawful.stopNow (h : Lawful n₀ s) : Lawful n₀ (s.stopNow t res) := by
  unfold State.stopNow
  split
  · exact h.stopTeam
  · exact h

theorem Lawful.execTeamStop {e : EvStop} (h : Lawful n₀ s) : LawfulLeads n₀ (execTeamStop e s) := by
  unfold Machine.execTeamStop
  iterate 3 (split; · exact h)
  split
  · split
    · split
      · extract_lets gone
        have hg : Lawful n₀ gone := by
          unfold gone
          split
          · exact h.modOutline (by intro; rfl)
          · exact h.stopTeam
        have he : gone.teams.map (·.id) = s.teams.map (·.id) := by
          unfold gone
          split
          · exact State.modTeam_ids fun _ => rfl
          · exact s.stopTeam_ids ..
        exact h.next hg he
      · exact h
    · exact h
  · split
    · exact h.stopTeam
    · exact h
  · split
    · exact h.stopTeam
    · exact h
  · split
    · exact h.debugStop
    · exact h
  · exact h

theorem Team.resume_outline (t : Team) : t.resume.outline = t.outline := by
  unfold Team.resume
  dsimp only
  split
  · split
    · exact Team.wake_outline ..
    · rfl
  · exact Team.unfreeze_outline _

theorem Lawful.execTeamRestore {e : EvTeam} (h : Lawful n₀ s) : LawfulLeads n₀ (execTeamRestore e s) := by
  unfold Machine.execTeamRestore
  dsimp only
  iterate 2 (split; · exact h)
  split
  · split
    · exact h.modOutline fun t => t.resume_outline
    · exact h
  · split
    · exact h.modOutline fun t => t.resume_outline
    · exact h
  · exact h

theorem Lawful.suspendRay (h : Lawful n₀ s) : Lawful n₀ (s.suspendRay gid ray) := by
  unfold State.suspendRay
  dsimp only
  split
  · split
    · exact h.endRay
    · exact h
  · split
    · exact h
    split
    · exact h.writeRecord.setRay
    · exact h

theorem Lawful.evictGroup (h : Lawful n₀ s) : ∀ u, s.evictGroup g = some u → Lawful n₀ u := by
  unfold State.evictGroup
  intro u e
  extract_lets ts leaving s₁ s₂ at e
  have h₁ : Lawful n₀ s₁ := by
    refine Lawful.foldl h fun w t hw => ?_
    split
    · exact hw.stopTeam
    · exact hw.modOutline (by intro; rfl)
  have h₂ : Lawful n₀ s₂ := Lawful.foldl h₁ fun _ _ h => h.suspendRay
  split at e
  · cases e
  cases e
  exact h₂

theorem Lawful.execGroupEviction (h : Lawful n₀ s) : LawfulLeads n₀ (execGroupEviction e s) := by
  unfold Machine.execGroupEviction
  split
  · split
    · exact h.getD h.evictGroup
    · exact h
  · exact h

theorem Lawful.wakeCore (h : Lawful n₀ s) : Lawful n₀ (s.wakeCore core) := by
  unfold State.wakeCore
  split
  · exact h
  exact h

theorem Lawful.execGroupRestore {e : EvGroupCore} (h : Lawful n₀ s) : LawfulLeads n₀ (execGroupRestore e s) := by
  unfold Machine.execGroupRestore
  iterate 3 (split; · exact h)
  split
  · split
    · exact h.wakeCore
    · exact h
  · exact h.modCore.modGroup.foldl fun _ _ h => h.modOutline fun t => t.resume_outline

theorem Lawful.execPartitionHalt {e : EvCtx} (h : Lawful n₀ s) : LawfulLeads n₀ (execPartitionHalt e s) := by
  unfold Machine.execPartitionHalt
  split
  · exact h
  split
  · exact h
  extract_lets +onlyGivenNames cs s₁ s₂
  have h₂ : Lawful n₀ s₂ := Lawful.foldl h fun _ _ h => h.stopNow
  clear_value s₂
  split
  · exact h₂
  split
  next u _ e =>
    have hu : Lawful n₀ u := .of_fst e (Lawful.foldl_fst h₂ fun _ _ h => h.maintL1)
    split
    next u' _ e =>
      have hv : Lawful n₀ u' := .of_fst e hu.maintL2
      split <;> exact hv

theorem Lawful.clearImages {x : Ctxt} {is : List Nat} (h : Lawful n₀ s) : Lawful n₀ (s.clearImages x is) := h.wrCells
theorem Lawful.exchange {x : Ctxt} (h : Lawful n₀ s) : Lawful n₀ (s.exchange x) := by
  unfold State.exchange
  extract_lets +onlyGivenNames cs valid index leaves comes lost out back gone home full s₁ s₂
  have h₁ : Lawful n₀ s₁ := h.wrCells
  have h₂ : Lawful n₀ s₂ := by
    have hr : ∀ t : Team, t.resume.Lawful ↔ t.Lawful := fun t => by rw [Team.lawful_iff, t.resume_outline, ← Team.lawful_iff]
    refine h₁.mapTeams rfl le_rfl (fun t _ ht => ?_) fun t => ?_
    · split
      · exact ht
      split
      · dsimp only
        split
        · exact (hr _).2 ht
        · exact ht
      · exact ht
    · split
      · rfl
      split
      · dsimp only
        split
        · exact congrArg TeamOutline.id (Team.resume_outline _)
        · rfl
      · rfl
  exact Lawful.foldl h₂ fun _ _ h => h.groupPath

theorem Lawful.execPartitionSwap {e : EvCtx} (h : Lawful n₀ s) : LawfulLeads n₀ (execPartitionSwap e s) := by
  unfold Machine.execPartitionSwap
  split
  · exact h
  split
  · exact h
  split
  · split
    · exact h.wakeCore
    · exact h
  · exact Lawful.exchange h

theorem Lawful.execCoreRetirement {e : EvCore} (h : Lawful n₀ s) : LawfulLeads n₀ (execCoreRetirement e s) := by
  unfold Machine.execCoreRetirement
  split
  · exact h
  extract_lets +onlyGivenNames s₁
  have h₁ : Lawful n₀ s₁ := Lawful.foldl h fun _ _ h => h.getD h.evictGroup
  clear_value s₁
  split
  · exact h₁
  split
  next e => exact .of_fst e h₁.maintL1
  next u e =>
    have hu : Lawful n₀ u := .of_fst e h₁.maintL1
    exact hu

theorem Lawful.setTdi {d : Tdi} (h : Lawful n₀ s) : Lawful n₀ (s.setTdi i d) := h

/-- The other write of main memory: a frame that changes hands is zeroed. -/
theorem Lawful.zeroFrame {f : Nat} (h : Lawful n₀ s) : Lawful n₀ (s.zeroFrame f) := by
  unfold State.zeroFrame
  extract_lets away core s₁
  have h₁ : Lawful n₀ s₁ := Lawful.foldl h fun _ _ h => h.bankAsk
  clear_value s₁
  cases s₁
  exact h₁.mapTeams rfl le_rfl (fun _ _ h => h) fun _ => rfl
theorem Lawful.setFrames (h : Lawful n₀ s) : Lawful n₀ (s.setFrames k frames) := h.foldl fun _ _ h => h.zeroFrame
theorem Lawful.trimStaged (h : Lawful n₀ s) : Lawful n₀ s.trimStaged := h

theorem Lawful.newImages {x : Ctxt} {old : Nat} (h : Lawful n₀ s) : Lawful n₀ (s.newImages x old) := by
  unfold State.newImages
  split
  · exact h
  · exact h.clearImages

theorem State.zeroFrame_ids (s : State) (f : Nat) : (s.zeroFrame f).teams.map (·.id) = s.teams.map (·.id) := by
  unfold State.zeroFrame
  extract_lets away core s₁
  have h₁ : Alike s s₁ := Alike.foldl (.refl s) fun _ _ h => h.bankAsk
  exact (List.map_map ..).trans h₁.ids

theorem State.setFrames_ids (s : State) (k : Nat) (frames : List Nat) : (s.setFrames k frames).teams.map (·.id) = s.teams.map (·.id) :=
  foldl_keeps _ (fun u : State => u.teams.map (·.id)) (fun u f => u.zeroFrame_ids f) _ s

/-- A TDI is bound to its context. -/
theorem Lawful.bindTdi {d : Tdi} (h : Lawful n₀ s) : Lawful n₀ { (s.setTdi i d).setFrames k frames with nextId := s.nextId + 1 } :=
  h.next h.setTdi.setFrames (State.setFrames_ids ..)

theorem Lawful.execCtxCreate {e : EvCtxCfg} (h : Lawful n₀ s) : LawfulLeads n₀ (execCtxCreate e s) := by
  unfold Machine.execCtxCreate
  extract_lets c x tdiOk s₁ k s₂
  split
  · exact h.send
  have h₁ : Lawful n₀ s₁ := h
  have h₂ : Lawful n₀ s₂ := by
    unfold s₂
    split
    · exact h₁.bindTdi
    · exact h₁
  exact h₂.newImages.trimStaged.send

theorem Lawful.tdiError (h : Lawful n₀ s) : Lawful n₀ (s.tdiError i) := by
  unfold State.tdiError
  dsimp only
  split
  · exact h
  · exact h.setTdi.foldl fun _ _ h => h.groupPath

theorem Lawful.execCtxSet {e : EvCtxCfg} (h : Lawful n₀ s) : LawfulLeads n₀ (execCtxSet e s) := by
  unfold Machine.execCtxSet
  dsimp only
  split
  · exact h
  split
  · exact h
  split
  all_goals
    split
    · exact h.tdiError.send
    · split
      · exact h
      · split
        · split
          · exact h.modCtx.newImages.trimStaged.send
          · exact h.modCtx.fallFrom.newImages.trimStaged.send
        · split
          · exact h.modCtx.setFrames.newImages.trimStaged.send
          · exact h.modCtx.fallFrom.setFrames.newImages.trimStaged.send

theorem Lawful.execCtxDestroy {e : EvCtx} (h : Lawful n₀ s) : LawfulLeads n₀ (execCtxDestroy e s) := by
  unfold Machine.execCtxDestroy
  split
  · exact h
  split
  · exact h
  extract_lets +onlyGivenNames s₁ gone s₂ s₃
  have h₁ : Lawful n₀ s₁ := Lawful.foldl h fun _ _ h => h.groupPath
  have h₂ : Lawful n₀ s₂ := by
    unfold s₂
    split
    · split
      · exact Lawful.setTdi h₁.setFrames
      · exact h₁.setTdi
    · exact h₁
  exact h₂

theorem Lawful.execMemoryTrainingComplete {e : EvTraining} (h : Lawful n₀ s) : LawfulLeads n₀ (execMemoryTrainingComplete e s) := by
  unfold Machine.execMemoryTrainingComplete
  split
  · exact h
  · split <;> exact h

theorem Lawful.execFwgo {e : EvRegValue} (h : Lawful n₀ s) : LawfulLeads n₀ (execFwgo e s) := by
  unfold Machine.execFwgo
  split <;> exact h

theorem Lawful.execFirmwareVerification (h : Lawful n₀ s) : LawfulLeads n₀ (execFirmwareVerification s) := by
  unfold Machine.execFirmwareVerification
  split
  · exact h
  · split <;> exact h

theorem Lawful.execCorePowerUp {e : EvCore} (h : Lawful n₀ s) : LawfulLeads n₀ (execCorePowerUp e s) := by
  unfold Machine.execCorePowerUp
  dsimp only
  split
  · exact h
  split
  · exact h
  · exact Lawful.modCore h

theorem Lawful.execGetMeasurements {e : EvIndex} (h : Lawful n₀ s) : LawfulLeads n₀ (execGetMeasurements e s) := by
  unfold Machine.execGetMeasurements
  repeat' split
  all_goals exact h

theorem Lawful.execIdeKmKeySet {e : EvIndex} (h : Lawful n₀ s) : LawfulLeads n₀ (execIdeKmKeySet e s) := by
  unfold Machine.execIdeKmKeySet
  split <;> exact h

theorem Lawful.execLockInterfaceRequest {e : EvIndex} (h : Lawful n₀ s) : LawfulLeads n₀ (execLockInterfaceRequest e s) := by
  unfold Machine.execLockInterfaceRequest
  repeat' split
  all_goals exact h

theorem Lawful.execGetDeviceInterfaceReport {e : EvIndex} (h : Lawful n₀ s) : LawfulLeads n₀ (execGetDeviceInterfaceReport e s) := by
  unfold Machine.execGetDeviceInterfaceReport
  split
  · exact h
  · split <;> exact h.send

theorem Lawful.execStartInterfaceRequest {e : EvIndex} (h : Lawful n₀ s) : LawfulLeads n₀ (execStartInterfaceRequest e s) := by
  unfold Machine.execStartInterfaceRequest
  repeat' split
  all_goals exact h

theorem Lawful.execStopInterfaceRequest {e : EvIndex} (h : Lawful n₀ s) : LawfulLeads n₀ (execStopInterfaceRequest e s) := by
  unfold Machine.execStopInterfaceRequest
  dsimp only
  split
  · exact h
  split
  · exact h
  split
  · exact h.setFrames.setTdi.send
  · exact h

theorem Lawful.execFrozenConfigurationWrite {e : EvIndex} (h : Lawful n₀ s) : LawfulLeads n₀ (execFrozenConfigurationWrite e s) := by
  unfold Machine.execFrozenConfigurationWrite
  split
  · exact h.tdiError
  · exact h

theorem Lawful.execIdeIntegrityFailure {e : EvIndex} (h : Lawful n₀ s) : LawfulLeads n₀ (execIdeIntegrityFailure e s) := by
  unfold Machine.execIdeIntegrityFailure
  dsimp only
  split
  · exact h.tdiError.setTdi
  · exact h

theorem Lawful.tdiWrite (h : Lawful n₀ s) : Lawful n₀ (s.tdiWrite i off value) := by
  unfold State.tdiWrite
  dsimp only
  split
  · exact h
  split
  · exact h
  · exact h.tdiError
  · exact h.tdiError
  · exact h

theorem Lawful.debugResume (h : Lawful n₀ s) : Lawful n₀ (s.debugResume tid) := by
  unfold State.debugResume
  split
  · exact h
  split
  · exact h
  extract_lets away s₁
  have h₁ : Lawful n₀ s₁ := by
    refine h.modOutline fun t => ?_
    split
    · rfl
    · exact t.resume_outline
  split
  · exact h₁.takeTrap
  · exact h₁

theorem Lawful.execStopreqSet (h : Lawful n₀ s) : LawfulLeads n₀ (execStopreqSet s) := by
  unfold Machine.execStopreqSet
  split
  · exact h
  refine Lawful.foldl h fun u _ h => ?_
  split
  · exact h.debugStop
  · exact h

theorem Lawful.execStopreqClear (h : Lawful n₀ s) : LawfulLeads n₀ (execStopreqClear s) := by
  unfold Machine.execStopreqClear
  split
  · exact h
  · exact Lawful.foldl h fun _ _ h => h.debugResume

theorem Lawful.execHaltdbgClear (h : Lawful n₀ s) : LawfulLeads n₀ (execHaltdbgClear s) := by
  unfold Machine.execHaltdbgClear
  split
  · exact h
  · exact Lawful.foldl h fun _ _ h => h.debugResume

theorem Lawful.execDropsClear {e : EvRegValue} (h : Lawful n₀ s) : LawfulLeads n₀ (execDropsClear e s) := by
  unfold Machine.execDropsClear
  split <;> exact h

theorem Lawful.fwWrite (h : Lawful n₀ s) : Lawful n₀ (s.fwWrite off value) := by
  unfold State.fwWrite
  split
  · exact h
  split
  · exact h
  · split <;> exact h

theorem Lawful.ite {p : Prop} [Decidable p] {u : State} (h : Lawful n₀ s) (hu : Lawful n₀ u) : Lawful n₀ (if p then s else u) := by
  split
  · exact h
  · exact hu

theorem Lawful.dbgWrite (h : Lawful n₀ s) : Lawful n₀ (s.dbgWrite off value) := by
  unfold State.dbgWrite
  extract_lets d n w asid bit
  refine .ite h.modCore (.ite (.ite h h) (.ite h (.ite (.ite h h) (.ite h (.ite h (.ite h (.ite h ?_)))))))
  exact .ite (.ite h h) (.ite h (.ite (.ite h h) (.ite h h)))

theorem Lawful.trustedWrite (h : Lawful n₀ s) : Lawful n₀ (s.trustedWrite off value) := by
  unfold State.trustedWrite
  split
  · exact h
  split
  · exact h
  · split <;> exact h
  · exact h
  · exact h
  · exact h
  · exact h
  · split <;> exact h
  · exact h
  · exact h
  · exact h
  · exact h

theorem Lawful.execRegisterWrite {e : EvRegWrite} (h : Lawful n₀ s) : LawfulLeads n₀ (execRegisterWrite e s) := by
  unfold Machine.execRegisterWrite
  split
  · exact h.fwWrite
  · split
    · exact h.dbgWrite
    · exact h
  · exact h.trustedWrite
  · split
    · exact h.tdiWrite
    · exact h

end Sys2Proof.Machine
end

section
/-!
PROOFS. Every MODE stays legal: every instruction and event.
-/
namespace Sys2Proof.Machine

variable {n₀ : Nat} {s : State} {rounds : Bool} {d : Byte} {c : Ctx} {o : FR}

theorem Lawful.compare {f : Nat → Bool × Nat} (h : Lawful n₀ s) : (compare s c d f).StaysLawful n₀ := by
  unfold Machine.compare
  extract_lets rows fls fl s₁
  have h₁ : Lawful n₀ s₁ := by
    unfold s₁
    split
    · exact h
    · exact h.modOutline (by intro; rfl)
  split
  · exact h₁
  · split
    · exact h₁
    · exact h₁.modOutline fun t => t.writeBits_outline ..

theorem Lawful.cmpOp {strict unordered : Bool} {f : FV → FV → Bool} {g : Int → Int → Bool} (h : Lawful n₀ s) :
    (cmpOp s c o strict unordered f g).StaysLawful n₀ := h.compare

theorem Lawful.cmpImmOp {o : FI} {g : Int → Int → Bool} (h : Lawful n₀ s) : (cmpImmOp s c o g).StaysLawful n₀ := h.compare

theorem Lawful.fltOp {f : Fmt → RMode → FV → FV → FV → Nat × Nat} (h : Lawful n₀ s) :
    (fltOp s c o rounds f).StaysLawful n₀ := h.drawing.lanewise

theorem Lawful.funOp {o : FF} {f : Fmt → RMode → FV → Nat × Nat} (h : Lawful n₀ s) :
    (funOp s c o rounds f).StaysLawful n₀ := h.drawing.lanewise

theorem Lawful.bitsOp {o : FF} {f : Fmt → Nat → Nat} (h : Lawful n₀ s) : (bitsOp s c o f).StaysLawful n₀ := h.lanewise
theorem Lawful.intOp {f : Bool → Bool → Nat → Nat → Nat → Nat → Nat × Nat} (h : Lawful n₀ s) : (intOp s c o f).StaysLawful n₀ := h.lanewise
theorem Lawful.shiftOp {f : Bool → Bool → Nat → Nat → Nat → Nat × Nat} (h : Lawful n₀ s) : (shiftOp s c o f).StaysLawful n₀ := h.lanewise
theorem Lawful.iunOp {o : FF} {f : Bool → Bool → Nat → Nat → Nat × Nat} (h : Lawful n₀ s) : (iunOp s c o f).StaysLawful n₀ := h.lanewise

theorem Lawful.immOp {o : FI} {signed sx : Bool} {f : Bool → Bool → Nat → Nat → Nat → Nat × Nat} (h : Lawful n₀ s) :
    (immOp s c o signed sx f).StaysLawful n₀ := h.lanewise

theorem Lawful.execMset (h : Lawful n₀ s) : LawfulLeads n₀ (execMset o s) := by
  refine h.issue fun _ _ h => ?_
  dsimp only
  split
  · split
    · exact h
    · exact h.modOutline fun t => t.writeBits_outline ..
  · exact h.modOutline fun t => t.write_outline ..

theorem Lawful.execMsts {o : FL} (h : Lawful n₀ s) : LawfulLeads n₀ (execMsts o s) := by
  refine h.issue fun _ _ h => h.onPath fun _ => ?_
  dsimp only
  split
  next e => exact (Formed.StaysLawful.of_eq e h.formLocal).formLocal.depart
  · exact h.formLocal.depart

theorem Lawful.execMlds {o : FL} (h : Lawful n₀ s) : LawfulLeads n₀ (execMlds o s) := by
  refine h.issue fun _ _ h => h.onPath fun _ => ?_
  dsimp only
  split
  next e => exact (Formed.StaysLawful.of_eq e h.formLocal).formLocal.depart
  · exact h.formLocal.depart

theorem Lawful.setMode {x : Word} (h : Lawful n₀ s) : (setMode s c x).StaysLawful n₀ := by
  unfold Machine.setMode
  split
  · exact h
  next hx => exact h.modSplit fun _ _ => by simpa using hx

/-- Every instruction and event, each by the operations it is made of. -/
theorem Lawful.exec {i : Instr} (h : Lawful n₀ s) : LawfulLeads n₀ (exec i s) :=
  match i with
  | .nop _ | .land _ | .trap _ | .bkpt _ | .halt _ | .ext _ => h.issue fun _ _ h => h
  | .add _ | .sub _ | .mul _ | .mulh _ | .mad _ | .min _ | .max _ | .absd _ | .and _ | .or _ | .xor _ | .andn _ =>
    h.issue fun _ _ h => h.intOp
  | .shl _ | .shr _ | .sar _ | .rot _ => h.issue fun _ _ h => h.shiftOp
  | .bfx _ | .bfi _ => h.issue fun _ _ h => h.lanewise
  | .popc _ | .clz _ | .ctz _ | .brev _ | .not _ | .neg _ | .iabs _ | .sext8 _ | .sext16 _ | .zext8 _ | .zext16 _ =>
    h.issue fun _ _ h => h.iunOp
  | .addi _ | .muli _ | .andi _ | .ori _ | .xori _ | .shli _ | .shri _ | .sari _ => h.issue fun _ _ h => h.immOp
  | .movk _ | .movkh _ | .mov _ | .movf _ | .idot4 _ | .unpk _ | .perm _ | .wid _ | .mget _ | .boxu _ | .sah _
  | .npack _ => h.issue fun _ _ h => h.arith
  | .ceq _ | .cne _ | .clt _ | .cle _ | .cun _ => h.issue fun _ _ h => h.cmpOp
  | .ceqi _ | .clti _ | .clei _ => h.issue fun _ _ h => h.cmpImmOp
  | .fadd _ | .fsub _ | .fmul _ | .fma _ | .fnma _ | .fmin _ | .fmax _ => h.issue fun _ _ h => h.fltOp
  | .frcp _ | .frsq _ | .fsqrt _ | .fexp2 _ | .flog2 _ | .fsinpi _ | .fcospi _ | .ftanh _ | .ffloor _ | .fceil _
  | .ftrunc _ | .frint _ => h.issue fun _ _ h => h.funOp
  | .fabs _ | .fneg _ | .fclass _ => h.issue fun _ _ h => h.bitsOp
  | .fdot2 _ | .cvt _ | .mxscl _ | .tscan _ => h.issue fun _ _ h => h.drawing.arith
  | .fscale _ | .pack _ => h.issue fun _ _ h => h.drawing.lanewise
  | .shfl _ | .shflx _ => h.issue fun _ _ h => h.shuffle
  | .voteAny _ | .voteAll _ | .mcnt _ | .mfind _ => h.issue fun _ _ h => h.broadcast
  | .voteBallot _ | .mand _ | .mor _ | .mxor _ | .mandn _ => h.issue fun _ _ h => h.wrM
  | .tred _ => h.execTred
  | .setmode _ | .setmodeh _ => h.issue fun _ _ h => h.setMode
  | .mset _ => h.execMset
  | .mexec _ => h.issue fun _ _ h => h.wrM.modSplitKeep (by intro; rfl)
  | .msts _ => h.execMsts
  | .mlds _ => h.execMlds
  | .mloop _ => h.execMloop
  | .mxv _ => h.execMxv
  | .trace _ | .rres _ => h.issue fun _ _ h => h.acceptRays
  | .rbox _ => h.execRbox
  | .bra _ | .brnz _ | .brz _ | .brany _ | .brnone _ => h.issue fun _ _ h => h.branchIf
  | .jset _ | .yield _ | .icinv _ => h.issue fun _ _ h => h.modSplitKeep (by intro; rfl)
  | .brm _ => h.execBrm
  | .jmpi _ => h.execJmpi
  | .join _ => h.execJoin
  | .call _ => h.issue fun _ _ h => h.wrG.transfer
  | .calli _ => h.execCalli
  | .ret _ => h.execRet
  | .exit _ => h.execExit
  | .bar _ => h.execBar
  | .ld _ | .lda _ | .ldk _ => h.issue fun _ _ h => h.globalLoad
  | .st _ | .str _ => h.issue fun _ _ h => h.globalStore
  | .lds _ | .ldy _ | .ldl _ | .ldp _ => h.issue fun _ _ h => h.localLoad
  | .sts _ | .sty _ | .stl _ | .stp _ => h.issue fun _ _ h => h.localStore
  | .atom _ | .bld _ => h.issue fun _ _ h => h.onPath fun _ => h.formGlobal.depart
  | .atagg _ => h.execAtagg
  | .latom _ => h.issue fun _ _ h => h.onPath fun _ => h.formLocal.depart
  | .arm _ => h.issue fun _ _ h => h.onPath fun _ => h.disarm.dropArms.formGlobal.depart
  | .waitmon _ => h.execWaitmon
  | .fenceFull _ | .fenceAcq _ | .fenceRel _ | .fenceStrict _ => h.issue fun _ _ h => h.fenceAt
  | .cmaint _ => h.execCmaint
  | .promote _ | .demote _ => h.issue fun _ _ h => h.promoteAt
  | .bset _ => h.issue fun _ _ h => h.wrB
  | .bget _ => h.issue fun _ _ h => h.wrG
  | .bnar _ => h.execBnar
  | .tpload _ | .rast _ | .coll _ => h.issue fun _ _ h => h.acceptCmd
  | .rpoll _ => h.issue fun _ _ h => h.modGroup.wrG
  | .atlnext _ => h.execAtlnext
  | .atldone _ => h.execAtldone
  | .visrd _ => h.execVisrd
  | .vrsl _ => h.execVrsl
  | .samp _ => h.execSamp
  | .grid _ => h.execGrid
  | .ungrid _ => h.execUngrid
  | .mzero _ | .mwr _ => h.issue fun _ _ h => h.onTile fun _ => h.modGroup
  | .mlda _ => h.issue fun _ _ h => h.acceptMat
  | .msta _ => h.execMsta
  | .mrd _ => h.issue fun _ _ h => h.onTile fun _ => h.wrField
  | .mstat _ => h.execMstat
  | .mwait _ => h.execMwait
  | .macc _ => h.execMacc
  | .copy _ | .copy2d _ | .gather _ | .scatter _ => h.issue fun _ _ h => h.acceptCopy
  | .waitp _ => h.execWaitp
  | .waitt _ => h.issue fun _ _ h => h.waitTimeline
  | .tlget _ => h.execTlget
  | .gres _ => h.issue fun _ _ h => h.modGroup
  | .binit _ => h.issue fun _ _ h => h.onObject fun _ _ => h.localWrite
  | .barv _ => h.issue fun _ _ h => h.onObject fun _ _ => h.localWrite.wrG.objectPoison
  | .bwait _ => h.execBwait
  | .bstat _ => h.issue fun _ _ h => h.onObject fun _ _ => h.wrG.objectPoison
  | .yjoin _ => h.execYjoin
  | .yleave _ => h.execYleave
  | .qres _ => h.issue fun _ _ h => h.qres
  | .sread _ => h.issue fun _ _ h => h.latch.wrField
  | .swrite _ => h.execSwrite
  | .tret _ => h.execTret
  | .region _ => h.execRegion
  | .rpc _ => h.execRpc
  | .rpcwait _ => h.execRpcwait
  | .claim _ => h.execClaim
  | .release _ => h.execRelease
  | .setperf _ => h.execSetperf
  | .node _ => h.execNode
  | .emit _ => h.execEmit
  | .tmark _ => h.execTmark
  | .jcadd _ => h.execJcadd
  | .loadDataReturn _ => h.execLoadDataReturn
  | .storePerformed _ => h.execStorePerformed
  | .slcRequest _ => h.execSlcRequest
  | .monitorRegistration _ => h.execMonitorRegistration
  | .l1Invalidation _ => h.execL1Invalidation
  | .fenceComplete _ => h.execFenceComplete
  | .waitmonTimeout _ => h.execWaitmonTimeout
  | .pageWalkComplete _ => h.execPageWalkComplete
  | .faultReply _ => h.execFaultReply
  | .parkedReplay _ => h.execParkedReplay
  | .translationInvalidation _ => h.execTranslationInvalidation
  | .invalidationAck => h.execInvalidationAck
  | .hostReadShared _ | .hostReadForOwnership _ | .hostWrite _ | .hostAtomic _ => h.hostArrive
  | .snoopResponse _ => h.execSnoopResponse
  | .frameClean _ => Lawful.cleanFrames h
  | .frameCleanComplete => h.execFrameCleanComplete
  | .cmaintComplete _ => h.execCmaintComplete
  | .icinvComplete _ => h.execIcinvComplete
  | .bankAccess _ => h.execBankAccess
  | .perBankRefresh _ => h.execPerBankRefresh
  | .bankSegmentRequest _ => h.execBankSegmentRequest
  | .segmentWritebackDone _ => h.execSegmentWritebackDone
  | .segmentCopyDone _ => h.execSegmentCopyDone
  | .engineCommandStart _ => h.execEngineCommandStart
  | .engineTransfer _ => h.execEngineTransfer
  | .engineCommandComplete _ => h.execEngineCommandComplete
  | .yjoinComplete _ => h.execYjoinComplete
  | .yleaveComplete _ => h.execYleaveComplete
  | .gridTake _ => h.execGridTake
  | .ungridComplete _ => h.execUngridComplete
  | .tokenGrant => h.execTokenGrant
  | .tokenIdleRelease _ => h.execTokenIdleRelease
  | .matrixCommandStart _ => h.execMatrixCommandStart
  | .mloopStep _ => h.execMloopStep
  | .matrixCommandFinish _ => h.execMatrixCommandFinish
  | .mxvFinish _ => h.execMxvFinish
  | .rboxFinish _ => h.execRboxFinish
  | .tploadSlotLoad _ => h.execTploadSlotLoad
  | .rayStart _ => h.execRayStart
  | .rayMicroOpStep _ => h.execRayMicroOpStep
  | .rastCommandStart _ => h.execRastCommandStart
  | .rastTriangle _ => h.execRastTriangle
  | .requestPassStart _ => h.execRequestPassStart
  | .requestPassSample _ => h.execRequestPassSample
  | .vrslLatch _ => h.execVrslLatch
  | .claimGrant _ => h.execClaimGrant
  | .splitRotation _ => h.execSplitRotation
  | .splitReload _ => h.execSplitReload
  | .teamGranuleReturn _ => h.execTeamGranuleReturn
  | .groupEnd _ => h.execGroupEnd
  | .spawnWrite _ => h.execSpawnWrite
  | .nodeDispatch _ => h.execNodeDispatch
  | .tileStaging _ => h.execTileStaging
  | .groupPlacement _ => h.execGroupPlacement
  | .nodeComplete _ => h.execNodeComplete
  | .levelMove _ => h.execLevelMove
  | .levelMoveComplete _ => h.execLevelMoveComplete
  | .droopTrigger _ => h.execDroopTrigger
  | .droopStretchEnd _ => h.execDroopStretchEnd
  | .droopHalvingEnd _ => h.execDroopHalvingEnd
  | .bayPowerGate _ => h.execBayPowerGate
  | .bayWakeComplete _ => h.execBayWakeComplete
  | .corePowerGate _ => h.execCorePowerGate
  | .coreWakeComplete _ => h.execCoreWakeComplete
  | .skinTemperatureInterval _ => h.execSkinTemperatureInterval
  | .governorEstimate _ => h.execGovernorEstimate
  | .rtimerExpiry _ => h.execRtimerExpiry
  | .wallDeadlineExpiry _ => h.execWallDeadlineExpiry
  | .asyncTrapEntry _ => h.execAsyncTrapEntry
  | .poisonedRegisterRead _ => h.execPoisonedRegisterRead
  | .teamStop _ => h.execTeamStop
  | .teamRestore _ => h.execTeamRestore
  | .groupEviction _ => h.execGroupEviction
  | .groupRestore _ => h.execGroupRestore
  | .partitionHalt _ => h.execPartitionHalt
  | .partitionSwap _ => h.execPartitionSwap
  | .ctxCreate _ => h.execCtxCreate
  | .ctxSet _ => h.execCtxSet
  | .ctxDestroy _ => h.execCtxDestroy
  | .rpcReply _ => h
  | .coreRetirement _ => h.execCoreRetirement
  | .powerOnReset _ => ⟨⟨List.nodup_nil, List.forall_mem_nil _, List.forall_mem_nil _⟩, h.2⟩
  | .memoryTrainingComplete _ => h.execMemoryTrainingComplete
  | .fwgo _ => h.execFwgo
  | .firmwareVerification => h.execFirmwareVerification
  | .corePowerUp _ => h.execCorePowerUp
  | .getMeasurements _ => h.execGetMeasurements
  | .ideKmKeySet _ => h.execIdeKmKeySet
  | .lockInterfaceRequest _ => h.execLockInterfaceRequest
  | .getDeviceInterfaceReport _ => h.execGetDeviceInterfaceReport
  | .startInterfaceRequest _ => h.execStartInterfaceRequest
  | .stopInterfaceRequest _ => h.execStopInterfaceRequest
  | .frozenConfigurationWrite _ => h.execFrozenConfigurationWrite
  | .ideIntegrityFailure _ => h.execIdeIntegrityFailure
  | .stopreqSet => h.execStopreqSet
  | .stopreqClear => h.execStopreqClear
  | .haltdbgClear => h.execHaltdbgClear
  | .dropsClear _ => h.execDropsClear
  | .registerWrite _ => h.execRegisterWrite
  | .chargeWindowAging _ => h.execChargeWindowAging
  | .idleBayCycle _ => h.execIdleBayCycle

end Sys2Proof.Machine
end

section
/-!
PROOFS. Every MODE stays legal: fetch, the turns, and the step.
-/
namespace Sys2Proof.Machine

variable {n₀ : Nat} {s before : State} {c : Ctx} {va asid tid uid core bay i line : Nat} {sp : Space} {t : Team}

theorem Lawful.fetchFails {r : FetchR} (h : Lawful n₀ s) : Lawful n₀ (s.fetchFails c va r) := by
  unfold State.fetchFails
  split
  · exact h.parkSplit
  · exact h.gateTrap
  · exact h.groupPath
  · exact h

theorem Lawful.badWord {w : Word} {e : DecodeError} (h : Lawful n₀ s) : Lawful n₀ (s.badWord c w e) := by
  unfold State.badWord
  split
  · exact h.gateTrap
  · split <;> exact h.gateTrap

theorem Lawful.fetchPair (h : Lawful n₀ s) : Lawful n₀ (s.fetchPair t asid va).1 := (Alike.refl s).fetchPair.lawful h

theorem Lawful.fetchNext (h : Lawful n₀ s) : (s.fetchNext tid uid).StaysLawful n₀ := by
  unfold State.fetchNext
  dsimp only
  split
  · exact h
  split
  · split
    · exact h
    split
    next u _ _ e =>
      have h : Lawful n₀ u := .of_fst e h.fetchPair
      split
      · exact h
      · exact h.badWord
    next e => exact (Lawful.of_fst e h.fetchPair).fetchFails
  · exact h

theorem Lawful.tally {losers : List (Nat × Nat)} (h : Lawful n₀ s) : Lawful n₀ (s.tally core bay losers) := by
  refine h.mapTeams rfl le_rfl (fun t _ ht => ?_) fun t => ?_
  · split
    · exact ht.of_parts (by simpa only [List.forall_mem_map] using fun q m => ht.splits m) (fun _ m => ht.deferred m)
        (by simpa only [Option.map_eq_some_iff, forall_exists_index, and_imp, forall_apply_eq_imp_iff₂] using fun q m => ht.handler m)
        rfl rfl
    · exact ht
  · split <;> rfl

theorem Lawful.passOn {who : Nat × Nat} {bays : List Nat} (h : Lawful n₀ s) : Lawful n₀ (s.passOn before core who bays) := by
  unfold State.passOn
  refine h.foldl fun u _ h => ?_
  split
  next q _ =>
    have hu : Lawful n₀ (u.modCore core fun k => k.issuePass u.dbg.lcren q) := h
    exact hu.tally
  · exact h

theorem Lawful.issueOne {p : Split} (h : Lawful n₀ s) : LawfulLeads n₀ (s.issueOne t p) := by
  unfold State.issueOne
  split
  next u e =>
    have hu : Lawful n₀ u := Fetched.StaysLawful.of_eq e h.fetchNext
    change Lawful n₀ (if _ then s else u : State)
    split
    · exact h
    · exact hu
  next u e =>
    have hu : Lawful n₀ u := Fetched.StaysLawful.of_eq e h.fetchNext
    split
    · exact hu.exec
    extract_lets won
    split
    · exact h
    split
    next w e =>
      have hw : Lawful n₀ w := LawfulLeads.of_eq e hu.exec
      exact hw.passOn
    · exact hu.exec

/-- What is due on a core is one of the events. -/
theorem Lawful.due {a : Act} (h : Lawful n₀ s) (e : s.due core = some a) : LawfulLeads n₀ (a s) := by
  obtain ⟨i, -, rfl⟩ := s.due_isEvent core a e
  exact h.exec

theorem Lawful.issueTurn (h : Lawful n₀ s) : LawfulLeads n₀ (s.issueTurn tid uid) := by
  unfold State.issueTurn
  split
  · exact h
  · split
    next e => exact h.due e
    · exact h
    · exact h.issueOne

theorem Lawful.cycleTurn (h : Lawful n₀ s) : LawfulLeads n₀ (s.cycleTurn core) := by
  unfold State.cycleTurn
  split
  next e => exact h.due e
  · change Lawful n₀ (if _ then _ else _ : State)
    split
    · exact h.cycleOn
    · exact h

theorem Lawful.passTurn (h : Lawful n₀ s) : Lawful n₀ (s.passTurn core bay) := by
  unfold State.passTurn
  split
  · split
    · exact h.passOn
    · exact h
  · exact h

theorem Lawful.eventTurn {i : Instr} (h : Lawful n₀ s) : LawfulLeads n₀ (s.eventTurn i) := by
  unfold State.eventTurn
  split
  · exact h
  split
  · split
    · exact h.exec
    · exact h
  · exact h.exec

theorem Lawful.settleTurn (h : Lawful n₀ s) :
    Lawful n₀ (s.modTeam tid fun t => if t.owes uid then t else t.settle uid) := by
  refine h.modOutline fun t => ?_
  split
  · rfl
  · exact t.settle_outline ..

theorem Lawful.jcDone (h : Lawful n₀ s) : Lawful n₀ (s.jcDone i) := h

theorem Lawful.joinAddTurn (h : Lawful n₀ s) : Lawful n₀ (s.joinAddTurn i) := by
  unfold State.joinAddTurn
  split
  · exact h
  extract_lets before early
  split
  · exact h
  split
  · exact h.jcDone.send
  split
  next e => exact .of_fst e h.lineOf
  next u e =>
    have hu : Lawful n₀ u := .of_fst e h.lineOf
    exact Lawful.reportFault hu
  next u _ _ _ e =>
    have hu : Lawful n₀ u := .of_fst e h.lineOf
    split
    next e => exact .of_fst e hu.slcAsk
    next w e =>
      have hw : Lawful n₀ w := .of_fst e hu.slcAsk
      split
      · exact hw.jcDone.send
      split
      next e => exact .of_fst e hw.pteOr
      next e => exact (Lawful.of_fst e hw.pteOr).markDirty.placeWr.jcDone
  next e => exact (Lawful.of_fst e h.lineOf).jcDone.send

theorem Lawful.timeTurn {ns : Nat} (h : Lawful n₀ s) : Lawful n₀ (s.timeTurn ns) := h

theorem Lawful.evictLineTurn {core : Option Nat} (h : Lawful n₀ s) : Lawful n₀ (s.evictLineTurn core line) := by
  unfold State.evictLineTurn
  split
  · split
    next e => exact (Lawful.of_fst e h.cleanL1).dropL1
    next e => exact .of_fst e h.cleanL1
  · split
    next e => exact (Lawful.of_fst e h.cleanL2).dropL2
    next e => exact .of_fst e h.cleanL2

theorem Lawful.evictTlbTurn {core : Option Nat} {vpn : Nat} (h : Lawful n₀ s) : Lawful n₀ (s.evictTlbTurn core asid vpn) := by
  unfold State.evictTlbTurn
  split <;> exact h

theorem Lawful.evictLoopTurn (h : Lawful n₀ s) : Lawful n₀ (s.evictLoopTurn tid va) := h.modOutline (by intro; rfl)

theorem Lawful.poisonTurn {sector : Nat} (h : Lawful n₀ s) : Lawful n₀ (s.poisonTurn sp sector) := by
  unfold State.poisonTurn
  split <;> exact h

theorem Lawful.errorTurn {e : HwError} (h : Lawful n₀ s) : Lawful n₀ (s.errorTurn e) := by
  unfold State.errorTurn
  split
  · split <;> exact h
  · exact h
  · exact h
  · split <;> exact h
  · split
    · split
      · exact h.matFail
      · exact h
    · exact h
  · exact h.groupPath
  · exact h
  · exact h
  · exact h.modOutline (by intro; rfl)
  · split
    · exact h
    · exact h.poisonTurn
  · exact h

/-- Every turn of the agents. -/
theorem Lawful.turn {t : Turn} (h : Lawful n₀ s) : LawfulLeads n₀ (s.turn t) := by
  unfold State.turn
  split
  · exact h.issueTurn
  · exact h.eventTurn
  · exact h.settleTurn
  · exact h.joinAddTurn
  · exact h.ringTurn
  · exact h.passTurn
  · exact h.cycleTurn
  · exact h.engineReadTurn
  · exact h.nodeReadTurn
  · exact h.recordPartTurn
  · exact h.splitReadTurn
  · exact h.timeTurn
  · exact h.evictLineTurn
  · exact h.evictTlbTurn
  · exact h
  · exact h.evictLoopTurn
  · exact h.slcEvict
  · exact h.hostTurn
  · exact h.seeTurn
  · exact h.poisonTurn
  · exact h.errorTurn

/-- The events and the turns keep it, so a step does. -/
theorem Lawful.steps : Steps (Lawful n₀) (LawfulLeads n₀) where
  next _ := Iff.rfl
  event _ _ _ h := h.exec
  turn _ _ h := h.turn
  agenda _ _ h := h

/-- Settles O60: whichever turn a step takes, each function that it runs keeps every MODE legal, and gives no team an identifier
twice. -/
theorem modesStayLegal : Obligations.ModesStayLegal := by
  intro s u h e
  have hs : Lawful s.nextId s := ⟨h, le_rfl⟩
  obtain ⟨hu, -⟩ := LawfulLeads.of_eq e (Lawful.steps.step hs)
  exact hu

end Sys2Proof.Machine
end

section
/-!
PROOFS. The obligation on the events of the banks (R62 to R69): what a result that an event brings leaves in its register (R40), which
slot a promotion gets (R66), and then one lemma per event and case.
-/
namespace Sys2Proof.Machine

variable {s : State} {t : Team} {b : Bank} {k tid tok team row i n : Nat} {pin : Bool} {q : List BankReq}

/-! ### A result that an event brings (R40) -/

theorem Team.raw_writeOn_g (t : Team) (owner ew r : Nat) (bits : LaneMask) (k x l : Nat) :
    (t.writeOn owner ew .g r bits [(k, x)]).raw .g r l = x % 2 ^ 32 := by
  rw [← t.raw_put_g r k x l]
  unfold Team.writeOn
  dsimp only
  repeat' split
  all_goals rfl

theorem Team.covered_eq_false (h : ∀ e ∈ t.unset, tok ∉ e.above) (f : RFile) (r l : Nat) : t.covered tok f r l = false := by
  refine List.any_eq_false.2 fun e he => ?_
  simp [h e he]

/-- A result over which no later write stands is in its g register. -/
theorem Team.raw_land_g (h : ∀ e ∈ t.unset, tok ∉ e.above) (owner r k x l : Nat) (path : Option Nat) :
    (t.land tok owner .g r [(k, x)] path).raw .g r l = x % 2 ^ 32 := by
  have hup : ([(k, x)].filter fun p => !(t.covered tok .g r p.1)) = [(k, x)] := by simp [Team.covered_eq_false h]
  unfold Team.land
  extract_lets bits up olds t₁ t₂ before
  have ht : t₂.raw .g r l = x % 2 ^ 32 := by
    rw [show t₂ = t₁.writeOn owner 0 .g r bits [(k, x)] from congrArg (t₁.writeOn owner 0 .g r bits) hup]
    exact t₁.raw_writeOn_g ..
  split <;> exact ht

theorem Team.raw_deliver_g (h : ∀ e ∈ t.unset, tok ∉ e.above) (r k x l : Nat) :
    (t.deliver tok .g [(r, [(k, x)])]).raw .g r l = x % 2 ^ 32 := Team.raw_land_g h _ _ _ _ l _

/-- A request has been answered: a team that awaits it finds the result in the register that it named. -/
def State.Answers (s u : State) (team tok x : Nat) : Prop :=
  ∀ t a, s.team? team = some t → t.awaits.find? (fun a => decide (a.tok = tok)) = some a → (∀ e ∈ t.unset, tok ∉ e.above) →
    u.reg team .g a.reg 0 = x % 2 ^ 32

theorem State.answer_answers (s : State) (team tok x : Nat) : s.Answers (s.answer team tok x) team tok x := by
  intro t a ht ha hu
  unfold State.reg State.answer
  rw [State.modTeam_find, ht]
  · simp only [Option.map_some, ha]
    exact Team.raw_deliver_g hu ..
  · intro y
    split
    · exact congrArg TeamFace.id (y.deliver_face ..)
    · rfl

/-! ### What a bank holds -/

@[simp] theorem State.bank_putBank (s : State) (k : Nat) (b : Bank) : (s.putBank k b).bank k = b := sget_sset_same ..
@[simp] theorem State.bank_answer (s : State) (team tok x k : Nat) : (s.answer team tok x).bank k = s.bank k := rfl

/-- The slots of a bank alone say which one holds a row, and which one a promotion gets. -/
@[simp] theorem Bank.slotOf_mk (b : Bank) (q : List BankReq) (r : Option SegOp) (d : Bool) (a : List (Nat × Nat)) (row : Nat) :
    (⟨b.slots, q, r, d, a⟩ : Bank).slotOf row = b.slotOf row := rfl
@[simp] theorem Bank.choose_mk (b : Bank) (q : List BankReq) (r : Option SegOp) (d : Bool) (a : List (Nat × Nat)) (n : Nat) :
    (⟨b.slots, q, r, d, a⟩ : Bank).choose n = b.choose n := rfl

/-- R63: a write that is served marks the slot of its row dirty. -/
theorem State.serveBank_slots (s : State) (b : Bank) (row : Nat) (write : Bool) : (s.serveBank b row write).slots =
    b.slots.map fun q => if write = true ∧ q.2.frow = row then (q.1, { q.2 with dirty := true }) else q := by
  cases write
  · simp [State.serveBank, Bank.activate]
  · simp [State.serveBank, Bank.activate]

@[simp] theorem State.serveBank_queue (s : State) (b : Bank) (row : Nat) (write : Bool) : (s.serveBank b row write).queue = b.queue := by
  cases write <;> rfl

theorem fst_ne_of_mem_dropSlot {l : List (Nat × PSlot)} {y : Nat × PSlot} (h : y ∈ dropSlot l i) : y.1 ≠ i := by
  simpa using (List.mem_filter.1 h).2

theorem mem_putSlot (l : List (Nat × PSlot)) (i : Nat) (x : PSlot) : (i, x) ∈ putSlot l i x := by simp [putSlot]

/-- A slot is taken where the bank lists it. -/
theorem Bank.taken_iff : (b.slots.any fun q => decide (q.1 = i)) = true ↔ ∃ x ∈ b.slots, x.1 = i := by simp

/-- R66: the lowest free slot is chosen. -/
theorem Bank.choose_free (hf : ∀ x ∈ b.slots, x.1 ≠ i) (hb : ∀ j < i, ∃ x ∈ b.slots, x.1 = j) (hi : i < n) :
    b.choose n = some (i, none) := by
  have h : ((List.range n).find? fun k => !(b.slots.any fun q => decide (q.1 = k))) = some i := by
    rw [List.find?_range_eq_some]
    refine ⟨?_, List.mem_range.2 hi, fun j hj => ?_⟩
    · simpa using hf
    · rw [Bank.taken_iff.2 (hb j hj)]; rfl
  unfold Bank.choose
  rw [h]

/-- R66: with every slot pinned none is chosen. -/
theorem Bank.choose_pinned (ht : ∀ j < n, ∃ x ∈ b.slots, x.1 = j) (hp : ∀ x ∈ b.slots, x.2.pin = true) : b.choose n = none := by
  have h : ((List.range n).find? fun k => !(b.slots.any fun q => decide (q.1 = k))) = none := by
    refine List.find?_eq_none.2 fun j hj => ?_
    rw [Bank.taken_iff.2 (ht j (List.mem_range.1 hj))]
    simp
  have hn : (b.slots.filter fun q => !q.2.pin) = [] := List.filter_eq_nil_iff.2 fun x hx => by simp [hp x hx]
  unfold Bank.choose
  rw [h, hn]

/-! ### Accesses and refresh (R63, R64) -/

theorem bankAccess_served (row : Nat) (write : Bool) (hr : (s.bank k).running = none) (hq : (s.bank k).queue = []) :
    exec (.bankAccess ⟨k, row, write⟩) s = .next (s.putBank k (s.serveBank (s.bank k) row write)) := by
  change execBankAccess ⟨k, row, write⟩ s = _
  simp only [execBankAccess, hr, hq]

theorem bankAccess_queued (row : Nat) (write : Bool) (hr : (s.bank k).running ≠ none) :
    exec (.bankAccess ⟨k, row, write⟩) s =
      .next (s.putBank k { s.bank k with queue := (s.bank k).queue ++ [.access row write none] }) := by
  obtain ⟨op, hop⟩ := Option.ne_none_iff_exists'.1 hr
  change execBankAccess ⟨k, row, write⟩ s = _
  simp only [execBankAccess, hop]

theorem perBankRefresh_bank (s : State) (k : Nat) : ∃ u, exec (.perBankRefresh ⟨k⟩) s = .next u ∧
    u.bank k = if (s.bank k).running.isSome then { s.bank k with refreshDue := true } else { s.bank k with refreshDue := false, acts := [] } :=
  ⟨_, rfl, s.bank_putBank k _⟩

/-! ### Promotions (R65 to R68) -/

section
variable (hr : (s.bank k).running = none) (hd : (s.bank k).refreshDue = false)
include hr hd

theorem promote_held {x : PSlot} (hq : (s.bank k).queue = .promote row pin tok team :: q) (hs : (s.bank k).slotOf row = some (i, x)) :
    exec (.bankSegmentRequest ⟨k⟩) s = .next ((s.putBank k { s.bank k with
      queue := q, slots := putSlot (s.bank k).slots i { x with pin := x.pin || pin } }).answer team tok (promoteResult i 3)) := by
  change execBankSegmentRequest ⟨k⟩ s = _
  simp [execBankSegmentRequest, hr, hd, hq, hs]

theorem promote_free (hq : (s.bank k).queue = .promote row pin tok team :: q) (hs : (s.bank k).slotOf row = none)
    (hc : (s.bank k).choose s.slotsS = some (i, none)) :
    exec (.bankSegmentRequest ⟨k⟩) s = .next (s.putBank k
      { s.segmentActs { s.bank k with queue := q } row i with running := some (.copy i row pin 0 tok team) }) := by
  change execBankSegmentRequest ⟨k⟩ s = _
  simp [execBankSegmentRequest, hr, hd, hq, hs, hc]

theorem promote_full (hq : (s.bank k).queue = .promote row pin tok team :: q) (hs : (s.bank k).slotOf row = none)
    (hc : (s.bank k).choose s.slotsS = none) :
    exec (.bankSegmentRequest ⟨k⟩) s = .next ((s.putBank k { s.bank k with queue := q }).answer team tok (promoteResult 0 5)) := by
  change execBankSegmentRequest ⟨k⟩ s = _
  simp [execBankSegmentRequest, hr, hd, hq, hs, hc]

/-! ### Demotions (R69) -/

theorem demote_absent (hq : (s.bank k).queue = .demote row tok team :: q) (hs : (s.bank k).slotOf row = none) :
    exec (.bankSegmentRequest ⟨k⟩) s = .next ((s.putBank k { s.bank k with queue := q }).answer team tok (promoteResult 0 6)) := by
  change execBankSegmentRequest ⟨k⟩ s = _
  simp [execBankSegmentRequest, hr, hd, hq, hs]

theorem demote_clean {x : PSlot} (hq : (s.bank k).queue = .demote row tok team :: q) (hs : (s.bank k).slotOf row = some (i, x))
    (hx : x.dirty = false) : exec (.bankSegmentRequest ⟨k⟩) s = .next ((s.putBank k { s.bank k with
      queue := q, slots := dropSlot (s.bank k).slots i }).answer team tok (promoteResult i 1)) := by
  change execBankSegmentRequest ⟨k⟩ s = _
  simp [execBankSegmentRequest, hr, hd, hq, hs, hx]

theorem demote_dirty {x : PSlot} (hq : (s.bank k).queue = .demote row tok team :: q) (hs : (s.bank k).slotOf row = some (i, x))
    (hx : x.dirty = true) : exec (.bankSegmentRequest ⟨k⟩) s = .next (s.putBank k
      { s.segmentActs { s.bank k with queue := q } row i with running := some (.demoteWb i tok team) }) := by
  change execBankSegmentRequest ⟨k⟩ s = _
  simp [execBankSegmentRequest, hr, hd, hq, hs, hx]

end

/-! ### The ends of segment operations (R64, R65, R69) -/

theorem segmentWritebackDone_evict (h : (s.bank k).running = some (.evictWb i row pin tok team)) :
    exec (.segmentWritebackDone ⟨k⟩) s = .next (s.putBank k { s.segmentActs (s.bank k) row i with
      slots := dropSlot (s.bank k).slots i, running := some (.copy i row pin 2 tok team) }) := by
  change execSegmentWritebackDone ⟨k⟩ s = _
  simp only [execSegmentWritebackDone, h]

theorem segmentWritebackDone_demote (h : (s.bank k).running = some (.demoteWb i tok team)) :
    exec (.segmentWritebackDone ⟨k⟩) s = .next ((s.putBank k { s.bank k with
      slots := dropSlot (s.bank k).slots i, running := none }).answer team tok (promoteResult i 2)) := by
  change execSegmentWritebackDone ⟨k⟩ s = _
  simp only [execSegmentWritebackDone, h]

theorem segmentCopyDone_fills {st : Nat} (h : (s.bank k).running = some (.copy i row pin st tok team)) :
    exec (.segmentCopyDone ⟨k⟩) s = .next ((s.putBank k { s.bank k with
      slots := putSlot (s.bank k).slots i { pin := pin, dirty := false, frow := row, stamp := s.time / 1024 % 2 ^ 32 }
      running := none }).answer team tok (promoteResult i st)) := by
  change execSegmentCopyDone ⟨k⟩ s = _
  simp only [execSegmentCopyDone, h]

/-! ### The obligation -/

/-- What is put into a bank touches no team, so an answer behind it reaches the team that awaits it. -/
theorem State.answers_putBank (s : State) (k : Nat) (b : Bank) (team tok x : Nat) :
    s.Answers ((s.putBank k b).answer team tok x) team tok x := (s.putBank k b).answer_answers team tok x

/-- Settles O42: in each case the event's own lemma says what is put into the bank and who is answered, and the answer reaches the
register of the team that awaits it. -/
theorem bankEvents : Obligations.BankEvents := by
  intro s k b answers
  refine ⟨?served, ?queued, perBankRefresh_bank s k, ?promote, ?demote, ?evicted, ?demoted, ?copied⟩
  case served =>
    intro row write hr hq
    refine ⟨_, bankAccess_served row write hr hq, ?_, ?_⟩ <;> rw [State.bank_putBank]
    · exact s.serveBank_slots b row write
    · exact (s.serveBank_queue b row write).trans hq
  case queued =>
    intro row write hr
    refine ⟨_, bankAccess_queued row write hr, ?_, ?_⟩ <;> rw [State.bank_putBank]
  case promote =>
    intro row pin tok team q hr hd hq
    refine ⟨fun i x hs => ⟨_, promote_held hr hd hq hs, ?_, ?_, s.answers_putBank k _ team tok _⟩,
      fun i hs hf hb hi => ⟨_, promote_free hr hd hq hs (Bank.choose_free hf hb hi), ?_⟩,
      fun hs ht hp => ⟨_, promote_full hr hd hq hs (Bank.choose_pinned ht hp), ?_, s.answers_putBank k _ team tok _⟩⟩
    · rw [State.bank_answer, State.bank_putBank]
      exact hr
    · rw [State.bank_answer, State.bank_putBank]
    · rw [State.bank_putBank]
    · rw [State.bank_answer, State.bank_putBank]
  case demote =>
    intro row tok team q hr hd hq
    refine ⟨fun hs => ⟨_, demote_absent hr hd hq hs, ?_, s.answers_putBank k _ team tok _⟩,
      fun i x hs hx => ⟨_, demote_clean hr hd hq hs hx, ?_, s.answers_putBank k _ team tok _⟩,
      fun i x hs hx => ⟨_, demote_dirty hr hd hq hs hx, ?_⟩⟩
    · rw [State.bank_answer, State.bank_putBank]
    · rw [State.bank_answer, State.bank_putBank]
      exact fun y hy => fst_ne_of_mem_dropSlot hy
    · rw [State.bank_putBank]
  case evicted =>
    intro i row pin tok team h
    refine ⟨_, segmentWritebackDone_evict h, ?_, ?_⟩ <;> rw [State.bank_putBank]
    exact fun y hy => fst_ne_of_mem_dropSlot hy
  case demoted =>
    intro i tok team h
    refine ⟨_, segmentWritebackDone_demote h, ?_, ?_, s.answers_putBank k _ team tok _⟩ <;> rw [State.bank_answer, State.bank_putBank]
    exact fun y hy => fst_ne_of_mem_dropSlot hy
  case copied =>
    intro i row pin st tok team h
    refine ⟨_, segmentCopyDone_fills h, ?_, ?_, s.answers_putBank k _ team tok _⟩ <;> rw [State.bank_answer, State.bank_putBank]
    exact mem_putSlot ..

end Sys2Proof.Machine
end

section
/-!
PROOFS. A write at the SLC (R14, R98): the bytes it leaves in every address space, and what it leaves alone.
-/
namespace Sys2Proof.Machine

variable {s u : State} {cells : List (Nat × Byte)} {line k : Nat} {ks : List Nat} {write : Bool}

/-! ### What it leaves alone -/

/-- A state without what a write at the SLC may change: the bytes of main memory and their poison, the banks and the SLC, the staged
copies, and the monitors, which may let teams go on. -/
def State.offSlc (s : State) : State :=
  { s with mem := [], poisoned := [], selfRefresh := false, banks := [], slc := [], staged := [], monRegs := [], teams := [] }

theorem State.bankAsk_offSlc (s : State) (line : Nat) (ks : List Nat) (write : Bool) : (s.bankAsk line ks write).1.offSlc = s.offSlc := by
  unfold State.bankAsk
  split
  · rfl
  · dsimp only
    repeat' split
    all_goals rfl

theorem State.slcMark_offSlc (s : State) (line : Nat) (ks : List Nat) : (s.slcMark line ks).offSlc = s.offSlc := by
  unfold State.slcMark
  split
  · rfl
  · exact s.bankAsk_offSlc ..

theorem State.fireLine_offSlc (s : State) (line : Nat) : (s.fireLine line).offSlc = s.offSlc := by
  unfold State.fireLine
  split
  · dsimp only
    refine (foldl_keeps _ State.offSlc ?_ _ _).trans rfl
    intros; rfl
  · rfl

@[simp] theorem State.slcWrite_offSlc (s : State) (cells : List (Nat × Byte)) : (s.slcWrite cells).offSlc = s.offSlc := by
  unfold State.slcWrite
  extract_lets lines s₁ s₂ s₃
  obtain ⟨q, e⟩ := s.wrCells_glob cells
  calc (lines.foldl (fun s l => s.fireLine l) s₃).offSlc
      = s₂.offSlc := foldl_keeps _ State.offSlc (fun v l => v.fireLine_offSlc l) _ _
    _ = s₁.offSlc := foldl_keeps _ State.offSlc (fun v l => v.slcMark_offSlc l _) _ _
    _ = s.offSlc := by rw [show s₁ = _ from e]; rfl

theorem State.slcWrite_outbox (s : State) (cells : List (Nat × Byte)) : (s.slcWrite cells).outbox = s.outbox := by
  have h := congrArg State.outbox (s.slcWrite_offSlc cells)
  exact h
theorem State.slcWrite_recalls (s : State) (cells : List (Nat × Byte)) : (s.slcWrite cells).recalls = s.recalls := by
  have h := congrArg State.recalls (s.slcWrite_offSlc cells)
  exact h

/-! ### The bytes it leaves -/

theorem Team.wake_face (t : Team) (uid reason : Nat) : (t.wake uid reason).face = t.face := by
  unfold Team.wake
  split
  · rfl
  split
  · rfl
  · rw [Team.modSplit_face _ _ (by intro; rfl)]
    exact t.writeOn_face ..

theorem Team.fire_face (t : Team) (uid : Nat) : (t.fire uid).face = t.face := by
  have h : (t.modSplit uid fun q => { q with mon := .fired }).face = t.face := t.modSplit_face _ fun _ => rfl
  unfold Team.fire
  split
  · rfl
  dsimp only
  split
  · split
    · exact (Team.wake_face ..).trans h
    · exact h
  · rfl

theorem SameFaces.fireLine (h : SameFaces s u) : SameFaces s (u.fireLine line) := by
  unfold State.fireLine
  split
  · exact foldl_holds _ (SameFaces s) (fun _ _ h => h.modTeam _ fun t => t.fire_face _) _ _ h
  · exact h

theorem SameFaces.bankAsk (h : SameFaces s u) : SameFaces s (u.bankAsk line ks write).1 := by
  unfold State.bankAsk
  split
  · exact h
  · dsimp only
    repeat' split
    all_goals exact h

theorem SameFaces.slcMark (h : SameFaces s u) : SameFaces s (u.slcMark line ks) := by
  unfold State.slcMark
  split
  · exact h
  · exact h.bankAsk

/-- Behind the write of the bytes nothing changes a byte. -/
theorem State.slcWrite_sameFaces (s : State) (cells : List (Nat × Byte)) : SameFaces (s.wrCells .glob cells) (s.slcWrite cells) := by
  unfold State.slcWrite
  extract_lets lines s₁ s₂ s₃
  have h₂ : SameFaces s₁ s₂ := foldl_holds _ (SameFaces s₁) (fun _ _ h => h.slcMark) _ _ (.refl s₁)
  have h₃ : SameFaces s₁ s₃ := h₂
  exact foldl_holds _ (SameFaces s₁) (fun _ _ h => h.fireLine) _ _ h₃

theorem State.slcWrite_rdByte_other {sp : Space} {a : Nat} (h : sp ≠ .glob ∨ ∀ c ∈ cells, c.1 ≠ a) :
    (s.slcWrite cells).rdByte sp a = s.rdByte sp a :=
  ((s.slcWrite_sameFaces cells).rdByte sp a).trans (s.rdByte_wrCells_other .glob cells sp a h)

theorem State.slcWrite_rdByte_mem {c : Nat × Byte} (hc : c ∈ cells) (hn : (cells.map (·.1)).Nodup) :
    (s.slcWrite cells).rdByte .glob c.1 = c.2 :=
  ((s.slcWrite_sameFaces cells).rdByte .glob c.1).trans (s.rdByte_wrCells_glob cells c hc hn)

/-! ### Values of several bytes (R4) -/

/-- The bytes of a number, read together, are the number. -/
theorem leNat_of_byteOf {rd : Nat → Byte} {a n x : Nat} (h : ∀ i < n, rd (a + i) = byteOf x i) : leNat rd a n = x % 256 ^ n := by
  induction n generalizing a x with
  | zero => simp [leNat, Nat.mod_one]
  | succ n ih =>
    have h0 : (rd a).toNat = x % 256 := by
      rw [show rd a = byteOf x 0 from h 0 n.succ_pos]
      simp [byteOf]
    have hrest : leNat rd (a + 1) n = x / 256 % 256 ^ n := by
      refine ih fun i hi => ?_
      rw [Nat.add_assoc, Nat.add_comm 1 i, h (i + 1) (Nat.succ_lt_succ hi), byteOf, byteOf, Nat.div_div_eq_div_mul, ← Nat.pow_succ']
    rw [leNat, h0, hrest, Nat.pow_succ', Nat.mod_mul]

/-- A value that is written is read back; R4: its bytes stand at [a, a + n). -/
theorem State.slcWrite_rd_cellsOf (s : State) (a n x : Nat) : (s.slcWrite (cellsOf a n x)).rd .glob a n = x % 256 ^ n :=
  leNat_of_byteOf fun i hi => State.slcWrite_rdByte_mem (c := (a + i, byteOf x i))
    (List.mem_map.2 ⟨i, List.mem_range.2 hi, rfl⟩) (cellsOf_nodup a n x)

theorem State.slcWrite_cellsOf_other {a n x : Nat} {sp : Space} {b : Nat} (h : sp ≠ .glob ∨ b < a ∨ a + n ≤ b) :
    (s.slcWrite (cellsOf a n x)).rdByte sp b = s.rdByte sp b := by
  refine State.slcWrite_rdByte_other (h.imp_right fun h c hc => ?_)
  have := cellsOf_mem a n x c hc
  omega

/-! ### A list of bytes -/

/-- Bytes that are written from an address on. -/
def bytesFrom (a : Nat) (data : List Byte) : List (Nat × Byte) := data.zipIdx.map fun p => (a + p.2, p.1)

theorem bytesFrom_keys (a : Nat) (data : List Byte) : (bytesFrom a data).map (·.1) = (List.range data.length).map (a + ·) := by
  rw [bytesFrom, List.map_map, List.range_eq_range', ← List.zipIdx_map_snd 0 data, List.map_map]
  rfl

theorem bytesFrom_nodup (a : Nat) (data : List Byte) : ((bytesFrom a data).map (·.1)).Nodup := by
  rw [bytesFrom_keys]
  exact List.nodup_range.map fun _ _ h => Nat.add_left_cancel h

theorem bytesFrom_mem {data : List Byte} {i : Nat} (a : Nat) (h : i < data.length) : (a + i, data[i]) ∈ bytesFrom a data :=
  List.mem_map.2 ⟨(data[i], i), List.mk_mem_zipIdx_iff_getElem?.2 (List.getElem?_eq_getElem h), rfl⟩

theorem State.slcWrite_bytesFrom {a i : Nat} {data : List Byte} (h : i < data.length) :
    (s.slcWrite (bytesFrom a data)).rdByte .glob (a + i) = data[i] :=
  State.slcWrite_rdByte_mem (bytesFrom_mem a h) (bytesFrom_nodup a data)

theorem State.slcWrite_bytesFrom_other {a b : Nat} {data : List Byte} {sp : Space} (h : sp ≠ .glob ∨ b < a ∨ a + data.length ≤ b) :
    (s.slcWrite (bytesFrom a data)).rdByte sp b = s.rdByte sp b := by
  refine State.slcWrite_rdByte_other (h.imp_right fun h c hc => ?_)
  have hk : c.1 ∈ (List.range data.length).map (a + ·) := bytesFrom_keys a data ▸ List.mem_map_of_mem hc
  obtain ⟨i, hi, e⟩ := List.mem_map.1 hk
  have := List.mem_range.1 hi
  omega

end Sys2Proof.Machine
end

section
/-!
PROOFS. Cleaning frames (R103): write-backs and drops of lines change the memory side, the caches and the teams, and nothing else. Each
function f on the way has one lemma, CachesOnly.f.
-/
namespace Sys2Proof.Machine

variable {s₀ s u : State} {who : Asker} {write drop clean : Bool} {ks lines frames : List Nat} {core line : Nat}

/-- A state without what coherence traffic may change: what a write at the SLC may, the L2 and the cores, the directory with what waits
there, what is asked of the host, and the accesses of speculation that is discarded. -/
def State.offCaches (s : State) : State :=
  { s.offSlc with l2 := [], cores := [], dir := [], slcQ := [], recalls := [], l1Invs := [], outbox := [], flights := [] }

/-- Two states differ in what coherence traffic may change alone. -/
def CachesOnly (s u : State) : Prop := u.offCaches = s.offCaches

theorem CachesOnly.refl (s : State) : CachesOnly s s := rfl
theorem CachesOnly.trans (h : CachesOnly s₀ s) (h' : CachesOnly s u) : CachesOnly s₀ u := Eq.trans h' h

theorem CachesOnly.cleans (h : CachesOnly s u) : u.cleans = s.cleans := by
  have e := congrArg State.cleans h
  exact e

/-- What changes no more than a write at the SLC does. -/
theorem CachesOnly.of_offSlc (h : CachesOnly s₀ s) (e : u.offSlc = s.offSlc) : CachesOnly s₀ u := by
  refine h.trans ?_
  have e' := congrArg State.offCaches e
  exact e'

/-- The state that a pair binds. -/
theorem CachesOnly.of_fst {α : Type} {r : State × α} {a : α} (e : r = (u, a)) (h : CachesOnly s₀ r.1) : CachesOnly s₀ u := by
  subst e; exact h
theorem CachesOnly.foldl {α : Type} {f : State → α → State} {l : List α} (h : CachesOnly s₀ s)
    (hf : ∀ u a, CachesOnly s₀ u → CachesOnly s₀ (f u a)) : CachesOnly s₀ (l.foldl f s) := foldl_holds f (CachesOnly s₀) hf l s h
theorem CachesOnly.foldl_fst {α β : Type} {f : State × β → α → State × β} {r : State × β} {l : List α} (h : CachesOnly s₀ r.1)
    (hf : ∀ q a, CachesOnly s₀ q.1 → CachesOnly s₀ (f q a).1) : CachesOnly s₀ (l.foldl f r).1 :=
  foldl_holds f (fun q => CachesOnly s₀ q.1) hf l r h

/-! ### The SLC and the directory -/

theorem CachesOnly.bankAsk (h : CachesOnly s₀ s) : CachesOnly s₀ (s.bankAsk line ks write).1 := h.of_offSlc (s.bankAsk_offSlc ..)
theorem CachesOnly.setDir {d : DirEntry} (h : CachesOnly s₀ s) : CachesOnly s₀ (s.setDir line d) := h
theorem CachesOnly.modCore {f : Core → Core} (h : CachesOnly s₀ s) : CachesOnly s₀ (s.modCore core f) := h

theorem CachesOnly.recall (h : CachesOnly s₀ s) : CachesOnly s₀ (s.recall line drop) := by
  unfold State.recall
  split <;> exact h

theorem CachesOnly.slcEvict (h : CachesOnly s₀ s) : CachesOnly s₀ (s.slcEvict line).1 := by
  unfold State.slcEvict
  dsimp only
  split
  · exact h
  split
  · exact h.recall
  split
  · exact h
  split
  · exact h
  split
  · exact h
  · exact h.bankAsk

theorem CachesOnly.slcRoom (h : CachesOnly s₀ s) : CachesOnly s₀ (s.slcRoom line).1 := by
  unfold State.slcRoom
  split
  · exact h
  split
  · exact h.slcEvict
  · exact h

theorem CachesOnly.slcFill (h : CachesOnly s₀ s) : CachesOnly s₀ (s.slcFill line ks).1 := by
  unfold State.slcFill
  dsimp only
  split
  next e => exact .of_fst e h.slcRoom
  next v e =>
    have hv : CachesOnly s₀ v := .of_fst e h.slcRoom
    split
    · exact hv
    split
    next w e =>
      have hw : CachesOnly s₀ w := .of_fst e hv.bankAsk
      exact hw
    · exact hv.bankAsk

theorem CachesOnly.slcDir {core : Option Nat} (h : CachesOnly s₀ s) : CachesOnly s₀ (s.slcDir line write core).1 := by
  unfold State.slcDir
  dsimp only
  split
  · exact h.recall
  repeat' split
  all_goals exact h

theorem CachesOnly.slcAsk {core : Option Nat} (h : CachesOnly s₀ s) : CachesOnly s₀ (s.slcAsk line ks write core who).1 := by
  unfold State.slcAsk
  split
  · exact h
  split
  next v e =>
    have hv : CachesOnly s₀ v := .of_fst e h.slcDir
    exact hv
  next v e =>
    have hv : CachesOnly s₀ v := .of_fst e h.slcDir
    split
    next w e =>
      have hw : CachesOnly s₀ w := .of_fst e hv.slcFill
      exact hw
    · exact hv.slcFill

theorem CachesOnly.slcSectorWrite {k data : Nat} {poison : Bool} (h : CachesOnly s₀ s) :
    CachesOnly s₀ (s.slcSectorWrite line k data poison) := by
  unfold State.slcSectorWrite
  dsimp only
  split <;> exact h.of_offSlc (s.slcWrite_offSlc _)

/-! ### The caches -/

theorem CachesOnly.cleanL2 (h : CachesOnly s₀ s) : CachesOnly s₀ (s.cleanL2 line).1 := by
  unfold State.cleanL2
  dsimp only
  split
  · exact h
  split
  · exact h
  split
  · exact h.slcAsk
  · exact h.slcAsk.foldl fun _ _ h => h.slcSectorWrite

theorem CachesOnly.dropL2 (h : CachesOnly s₀ s) : CachesOnly s₀ (s.dropL2 line) := h

theorem CachesOnly.l2Room (h : CachesOnly s₀ s) : CachesOnly s₀ (s.l2Room line).1 := by
  unfold State.l2Room
  dsimp only
  split
  · exact h
  split
  · split
    next v e =>
      have hv : CachesOnly s₀ v := .of_fst e h.cleanL2
      exact hv
    · exact h.cleanL2
  · exact h

theorem CachesOnly.fireLocal {c : Option Nat} (h : CachesOnly s₀ s) : CachesOnly s₀ (s.fireLocal c line) := by
  unfold State.fireLocal
  extract_lets hit
  split
  · exact h
  · exact h.foldl fun _ _ h => h

theorem CachesOnly.cleanL1 (h : CachesOnly s₀ s) : CachesOnly s₀ (s.cleanL1 core line).1 := by
  unfold State.cleanL1
  dsimp only
  split
  · exact h
  split
  · exact h
  split
  · split
    next e => exact .of_fst e h.l2Room
    next v e =>
      have hv : CachesOnly s₀ v := .of_fst e h.l2Room
      exact CachesOnly.fireLocal hv
  · split
    · exact h.slcAsk
    · exact h.slcAsk.foldl fun _ _ h => h.slcSectorWrite

theorem CachesOnly.forgetCore (h : CachesOnly s₀ s) : CachesOnly s₀ (s.forgetCore core line) := by
  unfold State.forgetCore
  dsimp only
  split <;> exact h

theorem CachesOnly.endFlight {f : Flight} (h : CachesOnly s₀ s) : CachesOnly s₀ (s.endFlight f) := by
  unfold State.endFlight
  dsimp only
  split <;> exact h

theorem CachesOnly.abandonFlight {fid : Nat} (h : CachesOnly s₀ s) : CachesOnly s₀ (s.abandonFlight fid) := by
  unfold State.abandonFlight
  split
  · exact h
  next f _ =>
    have hf : CachesOnly s₀ (s.modFlight fid fun _ => f.unparked) := h
    dsimp only
    split
    · exact hf.endFlight
    · exact hf

theorem CachesOnly.discardFence {tid uid : Nat} (h : CachesOnly s₀ s) : CachesOnly s₀ (s.discardFence tid uid) := by
  unfold State.discardFence
  split
  · exact h
  split
  · exact h
  split
  · exact h
  · extract_lets s₁ s₂
    have h₁ : CachesOnly s₀ s₁ := h
    have h₂ : CachesOnly s₀ s₂ := by
      unfold s₂
      split
      · exact h₁.abandonFlight
      · exact h₁
    exact h₂

/-- R284: speculation that a write or an invalidation meets is discarded. -/
theorem CachesOnly.conflict {sp : Space} {writer : Agent} {c : Option Nat} (h : CachesOnly s₀ s) :
    CachesOnly s₀ (s.conflict sp line writer c) := h.foldl fun _ _ h => h.discardFence

theorem CachesOnly.dropL1 (h : CachesOnly s₀ s) : CachesOnly s₀ (s.dropL1 core line) := by
  unfold State.dropL1
  split
  · exact h.forgetCore
  · exact h.forgetCore.modCore.conflict

/-! ### Lists of lines, and frames -/

/-- A step of maintenance on one line: clean it where that is asked, then drop it where that is asked. -/
theorem CachesOnly.maintLine {r : State × Bool} {v : State} {b : Bool} (h : CachesOnly s₀ r.1) (hv : CachesOnly s₀ v) :
    CachesOnly s₀ (if !r.2 then (r.1, false) else (if drop then v else r.1, b)).1 := by
  repeat' split
  · exact h
  · exact hv
  · exact h

theorem CachesOnly.maintL1 (h : CachesOnly s₀ s) : CachesOnly s₀ (s.maintL1 core lines clean drop).1 := by
  refine h.foldl_fst fun q l h => ?_
  have hc : CachesOnly s₀ (if clean then q.1.cleanL1 core l else (q.1, true)).1 := by
    split
    · exact h.cleanL1
    · exact h
  exact hc.maintLine hc.dropL1

theorem CachesOnly.maintL2 (h : CachesOnly s₀ s) : CachesOnly s₀ (s.maintL2 lines clean drop).1 := by
  refine h.foldl_fst fun q l h => ?_
  have hc : CachesOnly s₀ (if clean then q.1.cleanL2 l else (q.1, true)).1 := by
    split
    · exact h.cleanL2
    · exact h
  exact hc.maintLine hc.dropL2

theorem CachesOnly.cleanFrames (h : CachesOnly s₀ s) : CachesOnly s₀ (s.cleanFrames frames).1 := by
  unfold State.cleanFrames
  extract_lets mine
  split
  next v _ e =>
    have hv : CachesOnly s₀ v := .of_fst e (CachesOnly.foldl_fst h fun _ _ h => h.maintL1)
    split
    next w _ e =>
      have hw : CachesOnly s₀ w := .of_fst e hv.maintL2
      exact CachesOnly.foldl hw fun _ _ h => h.setDir

/-- The work on a CLN request takes no request off the list. -/
theorem State.cleanFrames_cleans (s : State) (frames : List Nat) : (s.cleanFrames frames).1.cleans = s.cleans :=
  (CachesOnly.refl s).cleanFrames.cleans

end Sys2Proof.Machine
end

section
/-!
PROOFS. The obligation on the requests of the host (R71, R100, R103, R383, R384): when the slices of its lines grant a request at once,
what a request that is granted leaves, and then one lemma per request.
-/
namespace Sys2Proof.Machine

variable {s u : State} {own : Bool} {agent line pa n : Nat} {who : Asker} {st : HostSt} {ks ls : List Nat} {x : SlcLine}

/-! ### What only host requests move -/

/-- A state with the same bytes, groups and teams holds the same data. -/
theorem State.sameData_of_eq (hm : u.mem = s.mem) (hl : u.loft = s.loft) (hg : u.groups = s.groups) (ht : u.teams = s.teams) :
    s.sameData u := by
  refine ⟨fun sp a => ?_, fun id f r l => ?_⟩
  · cases sp <;> simp only [State.rdByte, State.group?, State.team?, hm, hl, hg, ht]
  · simp only [State.reg, State.team?, ht]

theorem State.sameData_trans {v : State} (h : s.sameData u) (h' : u.sameData v) : s.sameData v :=
  ⟨fun sp a => (h'.1 sp a).trans (h.1 sp a), fun id f r l => (h'.2 id f r l).trans (h.2 id f r l)⟩

theorem State.sameData_rd (h : s.sameData u) (sp : Space) (a n : Nat) : u.rd sp a n = s.rd sp a n := by
  have e : u.rdByte sp = s.rdByte sp := funext (h.1 sp)
  unfold State.rd
  rw [e]

@[simp] theorem State.dirOf_setDir_same (s : State) (l : Nat) (d : DirEntry) : (s.setDir l d).dirOf l = d := sget_sset_same ..
theorem State.dirOf_setDir_other {l j : Nat} (d : DirEntry) (hj : j ≠ l) : (s.setDir l d).dirOf j = s.dirOf j :=
  sget_sset_other _ _ _ _ _ hj

theorem State.setHost_eq (s : State) (ls : List Nat) (st : HostSt) (agent : Nat) :
    ∃ d, s.setHost ls st agent = { s with dir := d } := by
  refine foldl_holds _ (fun u : State => ∃ d, u = { s with dir := d }) (fun u l hu => ?_) ls s ⟨s.dir, rfl⟩
  obtain ⟨d, rfl⟩ := hu
  exact ⟨_, rfl⟩

/-- Once a line's state is set, no later line of the request takes it back. -/
theorem State.setHost_keeps (ls : List Nat) (agent : Nat) (hl : (s.dirOf line).host = st) :
    ((s.setHost ls st agent).dirOf line).host = st := by
  refine foldl_holds _ (fun u : State => (u.dirOf line).host = st) (fun u l hu => ?_) ls s hl
  by_cases e : line = l
  · rw [e, State.dirOf_setDir_same]
  · rw [State.dirOf_setDir_other _ e, hu]

/-- R100: every line of the request has the host's new state. -/
theorem State.setHost_host (s : State) (st : HostSt) (agent : Nat) (hl : line ∈ ls) : ((s.setHost ls st agent).dirOf line).host = st := by
  induction ls generalizing s with
  | nil => cases hl
  | cons l ls ih =>
    rcases List.mem_cons.1 hl with rfl | hl
    · exact State.setHost_keeps (s := s.setDir line _) ls agent (congrArg DirEntry.host (s.dirOf_setDir_same ..))
    · exact ih _ hl

theorem State.setHost_outbox (s : State) (ls : List Nat) (st : HostSt) (agent : Nat) : (s.setHost ls st agent).outbox = s.outbox := by
  obtain ⟨d, e⟩ := s.setHost_eq ls st agent
  rw [e]

theorem State.setHost_sameData (s : State) (ls : List Nat) (st : HostSt) (agent : Nat) : s.sameData (s.setHost ls st agent) := by
  obtain ⟨d, e⟩ := s.setHost_eq ls st agent
  rw [e]
  exact State.sameData_of_eq rfl rfl rfl rfl

/-- An agent that acquires, takes over its lines and is answered changes no data by it. -/
theorem State.takeOver_sameData (s : State) (id agent : Nat) (plat : Bool) (ls : List Nat) (st : HostSt) (m : Msg) :
    s.sameData (((s.hostAcquires id plat).setHost ls st agent).send m) := by
  obtain ⟨d, e⟩ := (s.hostAcquires id plat).setHost_eq ls st agent
  rw [e]
  exact State.sameData_of_eq rfl rfl rfl rfl

theorem State.noticeHost_eq (s : State) (ls : List Nat) (who : Agent) : ∃ fl, s.noticeHost ls who = { s with flights := fl } := by
  refine foldl_holds _ (fun u : State => ∃ fl, u = { s with flights := fl }) (fun u l hu => ?_) ls s ⟨s.flights, rfl⟩
  obtain ⟨fl, rfl⟩ := hu
  unfold State.missed
  split
  · exact ⟨fl, rfl⟩
  · exact ⟨_, rfl⟩

theorem State.noticeHost_outbox (s : State) (ls : List Nat) (who : Agent) : (s.noticeHost ls who).outbox = s.outbox := by
  obtain ⟨fl, e⟩ := s.noticeHost_eq ls who
  rw [e]

theorem State.noticeHost_sameData (s : State) (ls : List Nat) (who : Agent) : s.sameData (s.noticeHost ls who) := by
  obtain ⟨fl, e⟩ := s.noticeHost_eq ls who
  rw [e]
  exact State.sameData_of_eq rfl rfl rfl rfl

/-- R384: the bytes that are answered do not depend on what the SLC holds. -/
theorem State.hostData_slc (s : State) (c : List SlcLine) (pa n : Nat) : ∃ ps,
    State.hostData { s with slc := c } pa n = .memData 0 ((List.range n).map fun i => s.rdByte .glob (pa + i)) ps := ⟨_, rfl⟩

/-! ### The slices grant a request at once (R100, R101) -/

/-- Nothing stands between a request and a line: no recall is on its way, the SLC holds the line whole, and where the request takes the
line over, no core and no other agent has a copy. -/
def State.Grants (s : State) (own : Bool) (agent line : Nat) : Prop :=
  (∀ r ∈ s.recalls, r.1 ≠ line) ∧ s.inSlc line ∧
  (own = true → (s.dirOf line).cores = 0 ∧ ((s.dirOf line).host = .i ∨ (s.dirOf line).host = .m ∧ (s.dirOf line).owner = agent))

theorem State.hostDir_granted (hg : s.Grants own agent line) : s.hostDir line own agent = (s, true) := by
  obtain ⟨hr, -, ho⟩ := hg
  have hany : (s.recalls.any fun r => decide (r.1 = line)) = false := List.any_eq_false.2 fun r hm => by simpa using hr r hm
  unfold State.hostDir
  dsimp only
  rw [hany]
  cases own with
  | false => rfl
  | true =>
    obtain ⟨hc, hh⟩ := ho rfl
    have hother : ¬((s.dirOf line).host = .s ∨ (s.dirOf line).host = .m ∧ (s.dirOf line).owner ≠ agent) := by
      rcases hh with e | ⟨e, ha⟩
      · simp [e]
      · simp [e, ha]
    have hnone : bitsBelow (0 : BitVec 16) 16 = [] := by decide
    rw [if_neg hother, hc, hnone]
    rfl

theorem State.slcFind_line (hx : s.slcFind line = some x) : x.line = line := by simpa using List.find?_some hx

/-- What the SLC holds is put back: every line is found as before. -/
theorem State.slcFind_slcPut (hx : s.slcFind line = some x) (j : Nat) : (s.slcPut x).slcFind j = s.slcFind j := by
  have hl := State.slcFind_line hx
  have hany : (s.slc.any fun y => decide (y.line = x.line)) = true :=
    List.any_eq_true.2 ⟨x, List.mem_of_find?_eq_some hx, by simp⟩
  have hsame : ((fun y : SlcLine => decide (y.line = j)) ∘ fun y => if y.line = x.line then x else y) = fun y => decide (y.line = j) := by
    funext y
    dsimp only [Function.comp]
    split
    next e => rw [e]
    · rfl
  unfold State.slcFind State.slcPut
  rw [if_pos hany, List.find?_map, hsame]
  cases hf : s.slc.find? fun y => decide (y.line = j) with
  | none => rfl
  | some y =>
    have hy : y.line = j := State.slcFind_line hf
    rw [Option.map_some]
    split
    next e =>
      have hj : line = j := hl.symm.trans (e.symm.trans hy)
      rw [← hf, ← hj]
      exact hx.symm
    · rfl

theorem State.slcFill_present (hx : s.slcFind line = some x) (hv : x.valid = BitVec.allOnes 4) (hk : ∀ k ∈ ks, k < 4) :
    s.slcFill line ks = (s.slcPut x, true) := by
  have hroom : s.slcRoom line = (s, true) := by simp [State.slcRoom, State.slcFits, hx]
  have hneed : (ks.filter fun k => !(x.valid.getLsbD k)) = [] := List.filter_eq_nil_iff.2 fun k hm => by
    rw [hv, BitVec.getLsbD_allOnes]
    simp [hk k hm]
  simp only [State.slcFill, hroom, hx, Option.getD_some, hneed]

theorem State.Grants.slcPut {l : Nat} (hx : s.slcFind l = some x) (hg : s.Grants own agent line) : (s.slcPut x).Grants own agent line := by
  obtain ⟨hr, hi, ho⟩ := hg
  exact ⟨hr, hi.imp fun y hy => ⟨(State.slcFind_slcPut hx line).trans hy.1, hy.2⟩, ho⟩

/-- A request all of whose lines are free is granted, and the SLC alone may differ. -/
theorem State.hostAsk_granted {asks : List (Nat × List Nat)} (hq : s.slcQ = [])
    (hg : ∀ l ∈ asks, s.Grants own agent l.1 ∧ ∀ k ∈ l.2, k < 4) :
    ∃ c, s.hostAsk asks own agent who = ({ s with slc := c }, true) := by
  induction asks generalizing s with
  | nil => exact ⟨s.slc, rfl⟩
  | cons l asks ih =>
    obtain ⟨hl, hk⟩ := hg l List.mem_cons_self
    obtain ⟨x, hx, hv⟩ := hl.2.1
    have hturn : s.turnOf l.1 who = true := by simp [State.turnOf, hq]
    have hstep : s.hostAsk (l :: asks) own agent who = (s.slcPut x).hostAsk asks own agent who := by
      unfold State.hostAsk
      rw [List.foldl_cons]
      simp only [hturn, State.hostDir_granted hl, State.slcFill_present hx hv hk]
      rfl
    rw [hstep]
    exact ih (s := s.slcPut x) hq fun m hm => ⟨(hg m (List.mem_cons_of_mem _ hm)).1.slcPut hx, (hg m (List.mem_cons_of_mem _ hm)).2⟩

theorem lineSectors_spec {fillAll : Bool} {l : Nat × List Nat} (hl : l ∈ lineSectors pa n fillAll) :
    l.1 ∈ linesOf pa n ∧ ∀ k ∈ l.2, k < 4 := by
  obtain ⟨j, hj, rfl⟩ := List.mem_map.1 hl
  exact ⟨hj, fun k hk => List.mem_range.1 (List.mem_filter.1 hk).1⟩

theorem State.hostAsk_lineSectors {fillAll : Bool} (hq : s.slcQ = []) (hg : ∀ l ∈ linesOf pa n, s.Grants own agent l) :
    ∃ c, s.hostAsk (lineSectors pa n fillAll) own agent who = ({ s with slc := c }, true) :=
  State.hostAsk_granted hq fun _ hl => ⟨hg _ (lineSectors_spec hl).1, (lineSectors_spec hl).2⟩

/-- A request that is done where it arrives. -/
theorem State.hostArrive_done {r : HostReq} (hb : 2 ≤ s.boot.state) (hq : s.slcQ = []) (ht : s.hostTry .passing r = (u, true)) :
    s.hostArrive r = u := by
  have ho : s.memOpen = true := by simpa [State.memOpen] using hb
  have hturn : (r.lines.all fun l => s.turnOf l (.host 0)) = true := by simp [State.turnOf, hq]
  unfold State.hostArrive
  rw [ho, hturn, ht]
  rfl

/-! ### Reads (R100, R383, R384) -/

theorem State.hostStatus_unbacked {binding : Option Nat} {ide : Bool} (hu : ∃ i < n, s.backed (pa + i) = false) :
    s.hostStatus binding ide pa n = 1 := by
  obtain ⟨i, hi, hb⟩ := hu
  have hall : ((List.range n).all fun i => s.backed (pa + i)) = false :=
    List.all_eq_false.2 ⟨i, List.mem_range.2 hi, by simp [hb]⟩
  unfold State.hostStatus
  rw [hall]
  rfl

theorem State.hostArrive_unbacked {e : EvHostRead} (hb : 2 ≤ s.boot.state) (hq : s.slcQ = []) (hu : ∃ i < e.n, s.backed (e.pa + i) = false) :
    s.hostArrive (.read e own) = s.send (.memData 1 (List.replicate e.n 255) []) := by
  refine State.hostArrive_done hb hq ?_
  simp only [State.hostTry, State.hostStatus_unbacked hu]

theorem State.hostTry_read {e : EvHostRead} (h0 : s.hostStatus e.binding e.ide e.pa e.n = 0)
    (ha : s.hostAsk (lineSectors e.pa e.n true) own e.agent who = (u, true)) : s.hostTry who (.read e own) =
      (((u.hostAcquires e.agent e.plat).send (u.hostData e.pa e.n)).setHost (linesOf e.pa e.n) (if own then .m else .s) e.agent, true) := by
  simp only [State.hostTry, h0, ha]

/-- A read that is granted answers the bytes, gives the host its state of the lines, and changes no data. -/
theorem State.hostArrive_read {e : EvHostRead} (hb : 2 ≤ s.boot.state) (h0 : s.hostStatus e.binding e.ide e.pa e.n = 0)
    (hq : s.slcQ = []) (hg : ∀ l ∈ linesOf e.pa e.n, s.Grants own e.agent l) :
    ∃ ps, (s.hostArrive (.read e own)).outbox =
        s.outbox ++ [.memData 0 ((List.range e.n).map fun i => s.rdByte .glob (e.pa + i)) ps] ∧
      (∀ l ∈ linesOf e.pa e.n, ((s.hostArrive (.read e own)).dirOf l).host = if own then .m else .s) ∧
      s.sameData (s.hostArrive (.read e own)) := by
  obtain ⟨c, hask⟩ := State.hostAsk_lineSectors (fillAll := true) (who := .passing) hq hg
  rw [State.hostArrive_done hb hq (State.hostTry_read h0 hask)]
  obtain ⟨ps, hmsg⟩ := s.hostData_slc c e.pa e.n
  rw [hmsg]
  refine ⟨ps, State.setHost_outbox .., fun l hl => State.setHost_host _ _ _ hl, State.sameData_trans ?_ (State.setHost_sameData ..)⟩
  exact State.sameData_of_eq rfl rfl rfl rfl

/-! ### Writes and atomics (R383, R384) -/

/-- What the host stores to once its lines are granted: the SLC alone may differ from what was, and those that have read the lines
know of the write. -/
theorem State.noticeHost_granted (s : State) (c : List SlcLine) (ls : List Nat) (who : Agent) :
    (State.noticeHost { s with slc := c } ls who).outbox = s.outbox ∧ s.sameData (State.noticeHost { s with slc := c } ls who) := by
  refine ⟨State.noticeHost_outbox .., State.sameData_trans ?_ (State.noticeHost_sameData ..)⟩
  exact State.sameData_of_eq rfl rfl rfl rfl

theorem State.hostTry_write {e : EvHostWrite} (h0 : s.hostStatus e.binding e.ide e.pa e.data.length = 0)
    (ha : s.hostAsk (lineSectors e.pa e.data.length false) true e.agent who = (u, true)) : s.hostTry who (.write e) =
      ((((u.noticeHost (linesOf e.pa e.data.length) (.host e.agent e.plat)).slcWrite (bytesFrom e.pa e.data)).setHost
        (linesOf e.pa e.data.length) .m e.agent).send (.memDone 0), true) := by
  simp only [State.hostTry, h0, ha, bytesFrom]

theorem State.hostArrive_write {e : EvHostWrite} (hb : 2 ≤ s.boot.state) (h0 : s.hostStatus e.binding e.ide e.pa e.data.length = 0)
    (hq : s.slcQ = []) (hg : ∀ l ∈ linesOf e.pa e.data.length, s.Grants true e.agent l) :
    (s.hostArrive (.write e)).outbox = s.outbox ++ [.memDone 0] ∧
      (∀ i, ∀ h : i < e.data.length, (s.hostArrive (.write e)).rdByte .glob (e.pa + i) = e.data[i]) ∧
      (∀ l ∈ linesOf e.pa e.data.length, ((s.hostArrive (.write e)).dirOf l).host = .m) ∧
      ∀ sp a, (sp ≠ .glob ∨ a < e.pa ∨ e.pa + e.data.length ≤ a) → (s.hostArrive (.write e)).rdByte sp a = s.rdByte sp a := by
  obtain ⟨c, hask⟩ := State.hostAsk_lineSectors (fillAll := false) (who := .passing) hq hg
  rw [State.hostArrive_done hb hq (State.hostTry_write h0 hask)]
  obtain ⟨hout, hv⟩ := s.noticeHost_granted c (linesOf e.pa e.data.length) (.host e.agent e.plat)
  generalize State.noticeHost { s with slc := c } (linesOf e.pa e.data.length) (.host e.agent e.plat) = v at hout hv
  have hz := (v.slcWrite (bytesFrom e.pa e.data)).setHost_sameData (linesOf e.pa e.data.length) .m e.agent
  refine ⟨?_, fun i hi => (hz.1 ..).trans (State.slcWrite_bytesFrom hi), fun l hl => State.setHost_host _ _ _ hl,
    fun sp a h => (hz.1 ..).trans ((State.slcWrite_bytesFrom_other h).trans (hv.1 sp a))⟩
  rw [State.send_outbox, State.setHost_outbox, State.slcWrite_outbox, hout]

/-- R146: operation 0 adds unsigned integers of 4 or 8 bytes. -/
theorem atomNew_add (hn : n = 4 ∨ n = 8) (old x cmp : Nat) :
    atomNew 0 (if n = 8 then 4 else 1) old x cmp = some ((old + x) % 256 ^ n) := by
  rcases hn with rfl | rfl
  · simp [atomNew, atomWidth]
  · simp [atomNew, atomWidth]

theorem State.hostTry_add {e : EvHostAtomic} (hn : (if e.width = 8 then 8 else 4) = n) (hop : e.op = 0)
    (h0 : s.hostStatus e.binding e.ide e.pa n = 0)
    (ha : s.hostAsk (lineSectors e.pa n true) true e.agent who = (u, true)) : s.hostTry who (.atomic e) =
      (((((u.noticeHost (linesOf e.pa n) (.host e.agent e.plat)).slcWrite
        (cellsOf e.pa n ((u.rd .glob e.pa n + e.operand) % 256 ^ n))).hostAcquires e.agent e.plat).setHost
          (linesOf e.pa n) .m e.agent).send (u.hostData e.pa n), true) := by
  have hw : n = 4 ∨ n = 8 := by rw [← hn]; split <;> simp
  simp only [State.hostTry, hn, h0, ha, hop, Nat.zero_mod, atomNew_add hw]

theorem State.hostArrive_add {e : EvHostAtomic} (hn : (if e.width = 8 then 8 else 4) = n) (hb : 2 ≤ s.boot.state) (hop : e.op = 0)
    (h0 : s.hostStatus e.binding e.ide e.pa n = 0) (hq : s.slcQ = []) (hg : ∀ l ∈ linesOf e.pa n, s.Grants true e.agent l) :
    ∃ ps, (s.hostArrive (.atomic e)).outbox =
        s.outbox ++ [.memData 0 ((List.range n).map fun i => s.rdByte .glob (e.pa + i)) ps] ∧
      (s.hostArrive (.atomic e)).rd .glob e.pa n = (s.rd .glob e.pa n + e.operand) % 256 ^ n ∧
      ∀ sp a, (sp ≠ .glob ∨ a < e.pa ∨ e.pa + n ≤ a) → (s.hostArrive (.atomic e)).rdByte sp a = s.rdByte sp a := by
  obtain ⟨c, hask⟩ := State.hostAsk_lineSectors (fillAll := true) (who := .passing) hq hg
  rw [State.hostArrive_done hb hq (State.hostTry_add hn hop h0 hask)]
  obtain ⟨hout, hv⟩ := s.noticeHost_granted c (linesOf e.pa n) (.host e.agent e.plat)
  generalize State.noticeHost { s with slc := c } (linesOf e.pa n) (.host e.agent e.plat) = v at hout hv
  have hold : State.rd { s with slc := c } .glob e.pa n = s.rd .glob e.pa n := rfl
  rw [hold]
  generalize hz : v.slcWrite (cellsOf e.pa n ((s.rd .glob e.pa n + e.operand) % 256 ^ n)) = z
  obtain ⟨ps, hmsg⟩ := s.hostData_slc c e.pa n
  rw [hmsg]
  refine ⟨ps, ?_, (State.sameData_rd (z.takeOver_sameData ..) ..).trans ?_, fun sp a h => ((z.takeOver_sameData ..).1 sp a).trans ?_⟩
  · rw [State.send_outbox, State.setHost_outbox]
    exact congrArg (· ++ _) ((hz ▸ State.slcWrite_outbox ..).trans hout)
  · rw [← hz, State.slcWrite_rd_cellsOf, Nat.mod_mod]
  · rw [← hz, State.slcWrite_cellsOf_other h, hv.1]

/-! ### Snoops and cleans (R100, R103) -/

/-- A dirty sector of the host's reaches the SLC. -/
theorem snoopResponse_spec {drop : Bool} {d : BitVec 128} {k : Nat}
    (hf : s.recalls.find? (fun r => decide (r.1 = line)) = some (line, drop)) (hk : k < 4) :
    ∃ u, exec (.snoopResponse ⟨line, [(k, d)]⟩) s = .next u ∧ (∀ r ∈ u.recalls, r.1 ≠ line) ∧
      (u.dirOf line).host = (if drop then .i else .s) ∧ u.rd .glob (line * 64 + 16 * k) 16 = d.toNat ∧
      ∀ sp a, (sp ≠ .glob ∨ a < line * 64 + 16 * k ∨ line * 64 + 16 * k + 16 ≤ a) → u.rdByte sp a = s.rdByte sp a := by
  generalize hv : ({ s with recalls := s.recalls.filter fun r => r.1 ≠ line } : State).slcWrite
    (cellsOf (line * 64 + 16 * k) 16 d.toNat) = v
  have he : exec (.snoopResponse ⟨line, [(k, d)]⟩) s =
      .next (v.setDir line { v.dirOf line with host := if drop then .i else .s, owner := 0 }) := by
    change execSnoopResponse ⟨line, [(k, d)]⟩ s = _
    simp only [execSnoopResponse, hf, List.foldl_cons, List.foldl_nil, State.slcSectorWrite, Nat.mod_eq_of_lt hk, hv]
    rfl
  have hdir : v.sameData (v.setDir line { v.dirOf line with host := if drop then .i else .s, owner := 0 }) :=
    State.sameData_of_eq rfl rfl rfl rfl
  refine ⟨_, he, ?_, by rw [State.dirOf_setDir_same], ?_, fun sp a h => (hdir.1 sp a).trans ?_⟩
  · change ∀ r ∈ v.recalls, r.1 ≠ line
    rw [← hv, State.slcWrite_recalls]
    exact fun r hr => by simpa using (List.mem_filter.1 hr).2
  · rw [State.sameData_rd hdir, ← hv, State.slcWrite_rd_cellsOf]
    exact Nat.mod_eq_of_lt d.isLt
  · rw [← hv, State.slcWrite_cellsOf_other h]
    exact (State.sameData_of_eq rfl rfl rfl rfl).1 sp a

theorem frameClean_adds (s : State) (frames : List Nat) :
    ∃ u, exec (.frameClean ⟨frames⟩) s = .next u ∧ u.cleans = s.cleans ++ [frames] :=
  ⟨_, rfl, State.cleanFrames_cleans ..⟩

theorem frameCleanComplete_answers {f : List Nat} {fs : List (List Nat)} (hc : s.cleans = f :: fs) (hf : s.cleanFrames f = (u, true)) :
    exec .frameCleanComplete s = .next { u with cleans := fs, outbox := u.outbox ++ [.cleanDone f] } := by
  change execFrameCleanComplete s = _
  simp only [execFrameCleanComplete, hc, hf]
  rfl

/-! ### The obligation -/

/-- Settles O41: a request whose lines are there, with no other copy where it takes them over, is granted at each of its lines and so
done where it arrives; what it then writes and answers is the lemma of its kind. -/
theorem hostMemoryRequests : Obligations.HostMemoryRequests := by
  intro s lines there calm
  have shared : ∀ pa n agent, there pa n → s.slcQ = [] ∧ ∀ l ∈ linesOf pa n, s.Grants false agent l :=
    fun pa n agent ⟨hq, hl⟩ => ⟨hq, fun l hm => ⟨(hl l hm).1, (hl l hm).2, fun e => Bool.noConfusion e⟩⟩
  have owned : ∀ pa n agent, calm pa n agent → s.slcQ = [] ∧ ∀ l ∈ linesOf pa n, s.Grants true agent l :=
    fun pa n agent ⟨⟨hq, hl⟩, hc⟩ => ⟨hq, fun l hm => ⟨(hl l hm).1, (hl l hm).2, fun _ => hc l hm⟩⟩
  refine ⟨fun e hb h0 => ⟨fun ht => ?_, fun hc => ?_⟩, fun e hb hq hu => congrArg _ (State.hostArrive_unbacked hb hq hu),
    fun e hb h0 hc => ?_, fun e => ?_, fun line drop k d hf hk => snoopResponse_spec hf hk, fun frames => frameClean_adds s frames,
    fun f fs s1 hc hf => frameCleanComplete_answers hc hf⟩
  · obtain ⟨hq, hg⟩ := shared _ _ e.agent ht
    obtain ⟨ps, h⟩ := State.hostArrive_read hb h0 hq hg
    exact ⟨_, ps, rfl, h⟩
  · obtain ⟨hq, hg⟩ := owned _ _ _ hc
    obtain ⟨ps, h⟩ := State.hostArrive_read hb h0 hq hg
    exact ⟨_, ps, rfl, h⟩
  · obtain ⟨hq, hg⟩ := owned _ _ _ hc
    exact ⟨_, rfl, State.hostArrive_write hb h0 hq hg⟩
  · intro n hb hop h0 hc
    obtain ⟨hq, hg⟩ := owned _ _ _ hc
    obtain ⟨ps, h⟩ := State.hostArrive_add rfl hb hop h0 hq hg
    exact ⟨_, ps, rfl, h⟩

end Sys2Proof.Machine
end

section
/-!
PROOFS. What an accepted encoding says of its operand fields (R45), the frame of g and b register results, and the team that an
instruction leaves when it completes.
-/
namespace Sys2Proof.Machine

variable {s v : State} {t y : Team} {p : Split} {g : Group} {i : Instr} {c : Ctx} {tid : Nat}

/-! ### Operand fields of an accepted encoding -/

theorem lowest_eq_none {l : List Nat} (h : lowest l = none) : l = [] := by
  cases l with
  | nil => rfl
  | cons a l =>
    unfold lowest at h
    split at h <;> cases h

/-- The operand fields of an instruction that may issue raise no fault. -/
theorem fieldCodes_of_ready (hr : Ready i s t p g) :
    (shape i p.modeEtype).d.codes (fieldsOf i).1 t.gran = [] ∧ (shape i p.modeEtype).a.codes (fieldAOf i) t.gran = [] := by
  obtain ⟨-, he, -⟩ := hr
  have h := lowest_eq_none he
  simp only [encodingFaults, List.append_eq_nil_iff] at h
  obtain ⟨⟨⟨⟨⟨-, hd⟩, ha⟩, -⟩, -⟩, -⟩ := h
  exact ⟨hd, ha⟩

/-- R24: an accepted g field names a g register. -/
theorem Fld.g_of_codes {f : Fld} {x gran : Nat} (h : f.codes x gran = []) (hk : f.kind = .g) : 192 ≤ x := by
  refine Nat.le_of_not_lt fun hx => ?_
  simp [Fld.codes, hk, hx] at h

/-- R37: the operand bytes of an instruction of format R. -/
theorem fieldsOf_encFR {op : Nat} {o : FR} (h : i.word = encFR op o) : fieldsOf i = (o.d.toNat, o.a.toNat, o.b.toNat) := by
  have hd : wD i.word = o.d := by rw [h]; exact wD_bytes ..
  have ha : wA i.word = o.a := by rw [h]; exact wA_bytes ..
  have hb : wB i.word = o.b := by rw [h]; exact wB_bytes ..
  have byte : ∀ k, (i.word.extractLsb' k 8).toNat = i.word.toNat / 2 ^ k % 256 := fun k => by
    rw [BitVec.extractLsb'_toNat, Nat.shiftRight_eq_div_pow]
  have low : (i.word.extractLsb' 0 8).toNat = i.word.toNat % 256 := by rw [byte, Nat.pow_zero, Nat.div_one]
  rw [← hd, ← ha, ← hb]
  exact Prod.ext (byte 16).symm (Prod.ext (byte 8).symm low.symm)

/-- R24: where the first or the second operand of format R must be in g, it is. -/
theorem gD_of_ready {op : Nat} {o : FR} (hr : Ready i s t p g) (hw : i.word = encFR op o)
    (hk : (shape i p.modeEtype).d.kind = .g) : 192 ≤ o.d.toNat := by
  have h := Fld.g_of_codes (fieldCodes_of_ready hr).1 hk
  rwa [fieldsOf_encFR hw] at h
theorem gA_of_ready {op : Nat} {o : FR} (hr : Ready i s t p g) (hw : i.word = encFR op o)
    (ha : fieldAOf i = (fieldsOf i).2.1) (hk : (shape i p.modeEtype).a.kind = .g) : 192 ≤ o.a.toNat := by
  have h := Fld.g_of_codes (fieldCodes_of_ready hr).2 hk
  rwa [ha, fieldsOf_encFR hw] at h

/-! ### Frames of what an instruction does to its team -/

theorem team_of_ready (hr : Ready i s t p g) : (issueState i s t p).team? t.id = some (t.begins i p.uid) := by
  obtain ⟨⟨-, ht, -⟩, -⟩ := hr
  exact issueState_team i p ht

theorem frame_issueState (i : Instr) (s : State) (t : Team) (p : Split) : Frame s (issueState i s t p) t.id [] fun y => y := by
  refine ⟨issueState_rdByte i s t p, fun id f r l _ => issueState_reg i s t p id f r l, ?_⟩
  rw [issueState_still, s.still_modTeam_same t.id fun _ => rfl]

/-- What changes registers of a team alone changes nothing else. -/
theorem Frame.modTeam {h : Team → Team} {dest : List (RFile × Nat)} {eff : Team → Team} (hf : Frame s v tid [] eff)
    (hi : ∀ y, (h y).id = y.id) (hp : ∀ y, (h y).priv = y.priv) (hs : ∀ y, (h y).still = y.still)
    (hr : ∀ y f r l, (f, r) ∉ dest → (h y).raw f r l = y.raw f r l) : Frame s (v.modTeam tid h) tid dest eff := by
  obtain ⟨hb, hreg, hst⟩ := hf
  refine ⟨fun sp a => (v.rdByte_modTeam tid h hi hp sp a).trans (hb sp a), fun id f r l hd => ?_, ?_⟩
  · exact (v.reg_modTeam tid hi (hd.imp_right fun hn y _ => hr y f r l hn)).trans (hreg id f r l (.inr List.not_mem_nil))
  · rw [v.still_modTeam_same tid hs, hst]

theorem State.reg_modTeam_at {h : Team → Team} (hi : ∀ y, (h y).id = y.id) (ht : s.team? tid = some t) (f : RFile) (r l : Nat) :
    (s.modTeam tid h).reg tid f r l = (h t).raw f r l := by
  unfold State.reg
  rw [s.modTeam_find tid h hi, ht, Option.map_some]

/-! ### b registers -/

theorem Frame.wrB {eff : Team → Team} {r : Nat} {x : BufRec} (hc : c.tid = tid) (hf : Frame s v tid [] eff) :
    Frame s (v.wrB c r x) tid [(.b, r)] eff := by
  unfold State.wrB
  rw [hc]
  exact hf.modTeam (fun y => y.write_id ..) (fun y => y.write_priv ..) (fun y => y.write_still ..) fun y f k l hn =>
    y.raw_write_other _ _ _ _ _ _ _ _ (.inl fun e => hn (e ▸ List.mem_singleton_self _))

theorem State.reg_wrB (hc : c.tid = tid) (ht : s.team? tid = some t) (r : Nat) (x : BufRec) : (s.wrB c r x).reg tid .b r 0 = x.toNat := by
  unfold State.wrB
  rw [hc, State.reg_modTeam_at (fun y => y.write_id ..) ht, Team.raw_write_b, Nat.mod_eq_of_lt x.isLt]

/-! ### g registers -/

/-- A team after results in g registers: each value goes as many registers on from `r` as it says. -/
def Team.writeGs (owner r : Nat) (vals : List (Nat × Nat)) (t : Team) : Team :=
  vals.foldl (fun t p => t.write owner 32 .g (r + p.2) [(0, p.1)]) t

theorem State.wrG_eq (s : State) (c : Ctx) (x : Byte) (vals : List Nat) :
    s.wrG c x vals = s.modTeam c.tid (Team.writeGs c.uid (x.toNat - 192) vals.zipIdx) := rfl

@[simp] theorem Team.writeGs_id (owner r : Nat) (vals : List (Nat × Nat)) (t : Team) : (t.writeGs owner r vals).id = t.id :=
  foldl_keeps _ Team.id (fun y _ => y.write_id ..) vals t
@[simp] theorem Team.writeGs_priv (owner r : Nat) (vals : List (Nat × Nat)) (t : Team) : (t.writeGs owner r vals).priv = t.priv :=
  foldl_keeps _ Team.priv (fun y _ => y.write_priv ..) vals t
@[simp] theorem Team.writeGs_still (owner r : Nat) (vals : List (Nat × Nat)) (t : Team) : (t.writeGs owner r vals).still = t.still :=
  foldl_keeps _ Team.still (fun y _ => y.write_still ..) vals t

theorem Team.raw_writeGs_other {owner r r' l : Nat} {f : RFile} {vals : List (Nat × Nat)}
    (h : ∀ q ∈ vals, (f, r') ≠ (RFile.g, r + q.2)) (t : Team) : (t.writeGs owner r vals).raw f r' l = t.raw f r' l := by
  induction vals generalizing t with
  | nil => rfl
  | cons q vals ih =>
    refine (ih (fun x hx => h x (List.mem_cons_of_mem _ hx)) _).trans ?_
    exact t.raw_write_other _ _ _ _ _ _ _ _ (.inl (h q List.mem_cons_self))

/-- A g register that is written once holds the low 32 bits of its value. -/
theorem Team.raw_writeGs {owner r x k l : Nat} {vals : List (Nat × Nat)} (hm : (x, k) ∈ vals) (hn : (vals.map (·.2)).Nodup)
    (t : Team) : (t.writeGs owner r vals).raw .g (r + k) l = x % 2 ^ 32 := by
  induction vals generalizing t with
  | nil => cases hm
  | cons q vals ih =>
    rw [List.map_cons, List.nodup_cons] at hn
    rcases List.mem_cons.1 hm with rfl | hm
    · refine (Team.raw_writeGs_other (fun z hz e => hn.1 (List.mem_map.2 ⟨z, hz, ?_⟩)) _).trans (t.raw_write_g ..)
      exact (Nat.add_left_cancel (congrArg Prod.snd e)).symm
    · exact ih hm hn.2 _

/-- R28: a g field with the registers on from it. -/
theorem fieldReg_g {x k : Nat} (hx : 192 ≤ x) : fieldReg (x + k) = (.g, x - 192 + k) := by
  unfold fieldReg
  rw [if_neg (by omega), Nat.sub_add_comm hx]

theorem Frame.wrG {eff : Team → Team} {x : Byte} {vals : List Nat} (hc : c.tid = tid) (hx : 192 ≤ x.toNat) (hf : Frame s v tid [] eff) :
    Frame s (v.wrG c x vals) tid (fieldRegs x.toNat vals.length) eff := by
  rw [State.wrG_eq, hc]
  refine hf.modTeam (fun y => y.writeGs_id ..) (fun y => y.writeGs_priv ..) (fun y => y.writeGs_still ..) fun y f k l hn => ?_
  refine y.raw_writeGs_other fun q hq e => hn ?_
  obtain ⟨-, hlt, -⟩ := List.mem_zipIdx hq
  exact List.mem_map.2 ⟨q.2, List.mem_range.2 (by omega), (fieldReg_g hx).trans e.symm⟩

theorem State.field_wrG {x : Byte} {vals : List Nat} {k : Nat} (hc : c.tid = tid) (ht : s.team? tid = some t) (hx : 192 ≤ x.toNat)
    (hk : k < vals.length) (l : Nat) : (s.wrG c x vals).field tid (x.toNat + k) l = vals[k] % 2 ^ 32 := by
  unfold State.field
  rw [if_neg (by omega), Nat.sub_add_comm hx, State.wrG_eq, hc, State.reg_modTeam_at (fun y => y.writeGs_id ..) ht]
  refine Team.raw_writeGs ?_ ?_ t
  · exact List.mk_mem_zipIdx_iff_getElem?.2 (List.getElem?_eq_getElem hk)
  · rw [List.zipIdx_map_snd]
    exact List.nodup_range'

/-! ### The core of an instruction that issues -/

theorem Team.writeOn_core (t : Team) (owner ew : Nat) (f : RFile) (r : Nat) (bits : LaneMask) (vals : List (Nat × Nat)) :
    (t.writeOn owner ew f r bits vals).core = t.core := by
  have h : ((t.put f r vals).markWritten f r).core = t.core := by cases f <;> rfl
  unfold Team.writeOn
  split
  · rfl
  · dsimp only
    repeat' split
    all_goals exact h

theorem State.arriving_core (s : State) (t : Team) : (s.arriving t).core = t.core := by
  refine foldl_keeps _ Team.core (fun x a => ?_) _ _
  split
  · dsimp only
    split
    · rfl
    · rfl
    · refine foldl_keeps _ Team.core (fun x c => ?_) _ _
      split
      · rfl
      · exact x.writeOn_core ..
    · exact foldl_keeps _ Team.core (fun x c => x.writeOn_core ..) _ _
  · rfl

theorem issueCtx_core (i : Instr) (s : State) (t : Team) (p : Split) (g : Group) : (issueCtx i s t p g).core = t.core := by
  show (issueTeam i s t p).core = t.core
  have h := s.arriving_core t
  unfold issueTeam
  split
  · exact (congrArg Team.core (Team.still_settle ..)).trans h
  split
  · rfl
  · exact h

/-! ### What an instruction that completes leaves -/

theorem exec_completes {body : State → Ctx → Res} (hr : Ready i s t p g) (he : exec i s = issue i s body)
    (hb : body (issueState i s t p) (issueCtx i s t p g) = .done v) : exec i s = .next (finish s (issueCtx i s t p g) (.done v)) := by
  rw [he, issue_ready i s t p g body hr, hb]

/-- The team of an instruction that has completed: its split goes on, and its slot has issued last unless it waited. -/
def Team.completed (c : Ctx) (t : Team) : Team :=
  { t.modSplit c.uid (Split.goneOn c.len) with lastSlot := if c.sp.st = .blocked then t.lastSlot else some c.sp.slot }

/-- The same, from the effect's own team. -/
theorem finish_done_team? (s v : State) (c : Ctx) : (finish s c (.done v)).team? c.tid = (v.team? c.tid).map (·.completed c) := by
  have h := v.modTeam_find c.tid (fun x => x.modSplit c.uid (Split.goneOn c.len)) fun _ => rfl
  rw [finish_done, State.account_team, show (v.advance c).team? c.tid = _ from h, Option.map_map]
  refine congrArg (fun f => (v.team? c.tid).map f) (funext fun y => ?_)
  by_cases hb : c.sp.st = .blocked
  · simp only [Function.comp, Team.completed, hb, ne_eq, not_true_eq_false, and_false, if_false, if_true]
    rfl
  · simp only [Function.comp, Team.completed, hb, ne_eq, not_false_eq_true, and_true, if_false, if_true]

theorem Team.completed_split? {q : Split} (hq : t.split? c.uid = some q) : (t.completed c).split? c.uid = some (q.goneOn c.len) := by
  have h := t.modSplit_find c.uid (Split.goneOn c.len) fun _ => rfl
  rw [hq] at h
  exact h

theorem finish_done_flights (s : State) (c : Ctx) (v : State) : (finish s c (.done v)).flights = v.flights := by
  rw [finish_done, State.account_flights]
  rfl
theorem finish_done_banks (s : State) (c : Ctx) (v : State) : (finish s c (.done v)).banks = v.banks := by
  rw [finish_done]
  unfold State.account State.book
  split <;> rfl

end Sys2Proof.Machine
end

section
/-!
PROOFS. A formed access that is put in flight (R125): what the flight holds, and that nothing else of the team and no byte changes.
-/
namespace Sys2Proof.Machine

variable {s s₁ : State} {t y : Team} {p : Split} {c : Ctx} {a : AccSpec} {owed : Option Owed} {mk : Flight → Flight} {tid : Nat}

/-- The flight of an access formed in state s₁, before its instruction gives it a kind. -/
def Ctx.flightOf (c : Ctx) (a : AccSpec) (s₁ : State) (suppressed : List Nat) (reqs : List LineReq) (owed : Option Owed) : Flight :=
  { id := s₁.nextId, team := c.tid, split := c.uid, path := a.path, kind := .store, n := a.n, zero := suppressed, reqs := reqs
    held := c.sp.fence.isSome && a.store && !a.need.r, pc := c.sp.pc, recNo := a.recNo, uniform := a.uniform, lanes := c.act
    dst := owed.map fun o => (o.file, o.reg) }

/-- The result that a split awaits of an access. -/
def Ctx.awaitOf (c : Ctx) (s₁ : State) (o : Owed) : Await := ⟨s₁.nextId, c.uid, o.file, o.reg, o.count, o.lanes⟩

/-- R125, R155: with no line parked and room in the queues the access departs and its instruction completes. -/
theorem depart_done {sup : List Nat} {reqs : List LineReq} (hready : ∀ r ∈ reqs, r.st ≠ .parked)
    (hheld : c.sp.fence.isSome = true → a.store = true → a.need.r = false →
      s₁.heldEntries c.tid + (if a.path = 1 then reqs.length else 1) ≤ 64)
    (hread : a.store = false → s₁.readSetFull c reqs = false) :
    depart c a (.ok s₁ sup reqs) owed mk =
      .done (s₁.fresh.2.launch (mk (c.flightOf a s₁ sup reqs owed)) (owed.map (c.awaitOf s₁))) := by
  have hq : (c.sp.fence.isSome && a.store && !a.need.r &&
      decide (64 < s₁.heldEntries c.tid + (if a.path = 1 then reqs.length else 1))) = false := by
    refine Bool.eq_false_iff.2 fun h => ?_
    simp only [Bool.and_eq_true, Bool.not_eq_true', decide_eq_true_eq] at h
    obtain ⟨⟨⟨hf, hs⟩, hr⟩, hlt⟩ := h
    exact Nat.not_lt.2 (hheld hf hs hr) hlt
  have hr : (!a.store && s₁.readSetFull c reqs) = false := by
    cases hs : a.store with
    | true => rfl
    | false => exact hread hs
  have hp : reqs.find? (fun r => decide (r.st = .parked)) = none :=
    List.find?_eq_none.2 fun r hr => by simpa using hready r hr
  unfold depart
  dsimp only
  rw [if_neg (by simp [hq]), if_neg (by simp [hr]), hp]
  rfl

/-- A flight without where and in what order it is performed. -/
def Flight.form (f : Flight) : Flight :=
  { f with core := 0, group := 0, order := 0, scope := 0, zero := [], aux := [], after := [] }

/-- A launched access is in flight, its result is awaited, and no register and no byte changes. -/
theorem State.launch_spec (s : State) (f : Flight) (owed : Option Await) :
    (∃ e ∈ (s.launch f owed).flights, e.form = f.form) ∧
    (s.launch f owed).team? f.team = (s.team? f.team).map (fun y => { y with awaits := y.awaits ++ owed.toList }) ∧
    (∀ id x r l, (s.launch f owed).reg id x r l = s.reg id x r l) ∧ ∀ sp a, (s.launch f owed).rdByte sp a = s.rdByte sp a := by
  cases owed with
  | none =>
    refine ⟨⟨_, List.mem_append_right _ (List.mem_singleton_self _), rfl⟩, ?_, fun _ _ _ _ => rfl, fun sp a => ?_⟩
    · have e : (fun y : Team => { y with awaits := y.awaits ++ (none : Option Await).toList }) = id :=
        funext fun y => congrArg (fun l => { y with awaits := l }) (List.append_nil _)
      rw [e, Option.map_id]
      rfl
    · cases sp <;> rfl
  | some w =>
    refine ⟨⟨_, List.mem_append_right _ (List.mem_singleton_self _), rfl⟩, ?_, fun id x r l => ?_, fun sp a => ?_⟩
    · exact State.modTeam_find _ _ (fun y => { y with awaits := y.awaits ++ [w] }) fun _ => rfl
    · exact State.reg_modTeam _ f.team (f := fun y => { y with awaits := y.awaits ++ [w] }) (fun _ => rfl)
        (.inr fun y _ => by cases x <;> rfl)
    · refine (State.rdByte_modTeam _ f.team (fun y => { y with awaits := y.awaits ++ [w] }) (fun _ => rfl) (fun _ => rfl) sp a).trans ?_
      cases sp <;> rfl

/-- An instruction that forms its access and puts it in flight does what `Launches` says. -/
theorem launches_of_depart {i : Instr} {spec : Ctx → AccSpec} {formed : State → Ctx → Formed} {owed : Ctx → Option Owed}
    {kind : Ctx → AccKind} {mk : Ctx → Flight → Flight}
    (he : ∀ s, exec i s = issue i s fun s c => s.onPath c (spec c).path fun _ => depart c (spec c) (formed s c) (owed c) (mk c))
    (hmk : ∀ c f, (mk c f).form = { f.form with kind := kind c }) : Launches i spec formed owed kind := by
  intro s t p g s₁ sup reqs hr c a hcount hform hready hheld hread
  have hc : c.tid = t.id := issueCtx_tid ..
  have hbody : (issueState i s t p).onPath c a.path (fun _ => depart c a (formed (issueState i s t p) c) (owed c) (mk c)) =
      .done (s₁.fresh.2.launch (mk c (c.flightOf a s₁ sup reqs (owed c))) ((owed c).map (c.awaitOf s₁))) := by
    unfold State.onPath
    rw [if_neg (by rw [hc]; omega), hform]
    exact depart_done hready (hc ▸ hheld) hread
  obtain ⟨⟨f, hf, hff⟩, hteams, hregs, hbytes⟩ :=
    s₁.fresh.2.launch_spec (mk c (c.flightOf a s₁ sup reqs (owed c))) ((owed c).map (c.awaitOf s₁))
  have hflight := hmk c (c.flightOf a s₁ sup reqs (owed c))
  rw [hflight] at hff
  rw [show (mk c (c.flightOf a s₁ sup reqs (owed c))).team = c.tid from congrArg Flight.team hflight] at hteams
  generalize s₁.fresh.2.launch _ _ = v at hbody hf hteams hregs hbytes
  have hu := finish_done_team? s v c
  rw [hteams, Option.map_map] at hu
  refine ⟨_, f, exec_completes hr (he s) hbody,
    (finish_done_flights s c v).symm ▸ hf, congrArg Flight.id hff, (congrArg Flight.team hff).trans hc, congrArg Flight.split hff,
    congrArg Flight.path hff, congrArg Flight.n hff, congrArg Flight.kind hff, congrArg Flight.reqs hff, congrArg Flight.returned hff,
    congrArg Flight.held hff, congrArg Flight.dst hff, fun w x hw hx => ?_, fun q hq => ?_, fun id f r l => ?_, fun sp b => ?_⟩
  · rw [← hc, hu, Option.map_eq_some_iff] at hx
    obtain ⟨y, -, rfl⟩ := hx
    rw [hw]
    exact List.mem_append_right _ (List.mem_singleton_self _)
  · obtain ⟨y, hy, hyq⟩ := Option.bind_eq_some_iff.1 hq
    have hy' : s₁.fresh.2.team? c.tid = some y := hc ▸ hy
    rw [hy', Option.map_some] at hu
    refine ⟨q.goneOn c.len, Option.bind_eq_some_iff.2 ⟨_, hc ▸ hu, ?_⟩, rfl⟩
    exact Team.completed_split? (t := { y with awaits := _ }) hyq
  · exact (finish_done_reg s c v id f r l).trans (hregs id f r l)
  · refine (finish_done_rdByte s c v sp b).trans ((hbytes sp b).trans ?_)
    cases sp <;> rfl

end Sys2Proof.Machine
end

section
/-!
PROOFS. The obligation on record instructions, PROMOTE and DEMOTE.
-/
namespace Sys2Proof.Machine

variable {s s₁ : State} {t : Team} {p : Split} {g : Group} {i : Instr} {c : Ctx} {o : FR}

/-! ### The words of a record (R72, R80) -/

theorem bufWord_ofNat (n : Nat) {k : Nat} (hk : k < 4) : bufWord (BitVec.ofNat 128 n) k = n / 2 ^ (32 * k) % 2 ^ 32 := by
  unfold bufWord bufBits
  rw [BitVec.toNat_ofNat, show (2 : Nat) ^ 128 = 2 ^ (32 * k) * 2 ^ (128 - 32 * k) by rw [← Nat.pow_add]; congr 1; omega,
    Nat.mod_mul_right_div_self]
  exact Nat.mod_mod_of_dvd _ (Nat.pow_dvd_pow 2 (by omega))

/-- R28: an accepted block of g registers is read as such. -/
theorem Ctx.src_g {x : Byte} (hx : 192 ≤ x.toNat) (k l : Nat) : c.src (x.toNat + k) l = c.gAt x k := by
  unfold Ctx.src Ctx.gAt
  rw [if_neg (by omega), Nat.sub_add_comm hx]

/-- R72: one register more stands above the registers below it. -/
theorem Ctx.data_succ (c : Ctx) (x : Byte) (l n : Nat) : c.data x l (n + 1) = c.data x l n + c.src (x.toNat + n) l * 2 ^ (32 * n) := by
  unfold Ctx.data
  rw [List.range_succ, List.foldl_append, List.foldl_cons, List.foldl_nil]

theorem Ctx.data_four {x : Byte} (hx : 192 ≤ x.toNat) :
    c.data x 0 4 = c.gAt x 0 + c.gAt x 1 * 2 ^ 32 + c.gAt x 2 * 2 ^ 64 + c.gAt x 3 * 2 ^ 96 := by
  have h0 : c.data x 0 0 = 0 := rfl
  rw [Ctx.data_succ, Ctx.data_succ, Ctx.data_succ, Ctx.data_succ, h0, Ctx.src_g hx, Ctx.src_g hx, Ctx.src_g hx, Ctx.src_g hx,
    Nat.mul_zero, Nat.pow_zero, Nat.mul_one, Nat.zero_add]

/-! ### BSET, BGET, BNAR -/

/-- An instruction whose effect is one b register. -/
theorem wrB_completes {r : Nat} {x : BufRec} (hr : Ready i s t p g)
    (he : exec i s = .next (finish s (issueCtx i s t p g) (.done ((issueState i s t p).wrB (issueCtx i s t p g) r x)))) :
    ∃ u, exec i s = .next u ∧ u.reg t.id .b r 0 = x.toNat ∧ Frame s u t.id [(.b, r)] (issueCtx i s t p g).passes := by
  refine ⟨_, he, ?_, Frame.done (issueCtx_tid ..) (fun _ => rfl) ((frame_issueState i s t p).wrB (issueCtx_tid ..))⟩
  rw [finish_done_reg]
  exact State.reg_wrB (issueCtx_tid ..) (team_of_ready hr) r x

theorem bset_spec (hr : Ready (.bset o) s t p g) : let c := issueCtx (.bset o) s t p g
    ∃ u, exec (.bset o) s = .next u ∧
      u.reg t.id .b o.d.toNat 0 = (c.gAt o.a 0 + c.gAt o.a 1 * 2 ^ 32 + c.gAt o.a 2 * 2 ^ 64 + c.gAt o.a 3 * 2 ^ 96) % 2 ^ 128 ∧
      Frame s u t.id [(.b, o.d.toNat)] c.passes := by
  intro c
  have ha : 192 ≤ o.a.toNat := gA_of_ready hr rfl rfl rfl
  rw [← Ctx.data_four ha, ← BitVec.toNat_ofNat]
  exact wrB_completes hr (issue_ready (.bset o) s t p g _ hr)

theorem bget_spec (hr : Ready (.bget o) s t p g) : let c := issueCtx (.bget o) s t p g
    ∃ u, exec (.bget o) s = .next u ∧
      (∀ k < 4, u.field t.id (o.d.toNat + k) 0 = c.rd .b o.a.toNat 0 / 2 ^ (32 * k) % 2 ^ 32) ∧
      Frame s u t.id (fieldRegs o.d.toNat 4) c.passes := by
  intro c
  have hd : 192 ≤ o.d.toNat := gD_of_ready hr rfl rfl
  refine ⟨_, issue_ready (.bget o) s t p g _ hr, fun k hk => ?_,
    Frame.done (issueCtx_tid ..) (fun _ => rfl) ((frame_issueState (.bget o) s t p).wrG (issueCtx_tid ..) hd)⟩
  rw [finish_done_field, State.field_wrG (issueCtx_tid ..) (team_of_ready hr) hd (by simpa using hk),
    List.getElem_map, List.getElem_range, bufWord_ofNat _ hk, Nat.mod_mod]

theorem bnar_spec {r : BufRec} (hr : Ready (.bnar o) s t p g)
    (hn : bufNarrow (BitVec.ofNat 128 ((issueCtx (.bnar o) s t p g).rd .b o.a.toNat 0)) ((issueCtx (.bnar o) s t p g).gAt o.b 0)
      ((issueCtx (.bnar o) s t p g).gAt o.b 1) = some r) :
    ∃ u, exec (.bnar o) s = .next u ∧ u.reg t.id .b o.d.toNat 0 = r.toNat ∧
      Frame s u t.id [(.b, o.d.toNat)] (issueCtx (.bnar o) s t p g).passes := by
  refine wrB_completes hr ((issue_ready (.bnar o) s t p g _ hr).trans ?_)
  rw [hn]

/-! ### PROMOTE, DEMOTE -/

/-- R67, R70: the page whose address stands in a pair of g registers. -/
def Ctx.pageAt (c : Ctx) (a : Byte) : Nat := (c.gAt a 0 + c.gAt a 1 % 65536 * 2 ^ 32) / 4096 * 4096
/-- What PROMOTE and DEMOTE need of their page. -/
def promoteNeed : Need := { r := true, anyOwner := true, anyKey := true }

variable {d a : Byte} {mk : Nat → Nat → BankReq} {cc line pte x ch b row : Nat}

/-- R68: a page of the near aperture answers status 4 at once. -/
theorem promoteAt_near (hl : s.lineOf (some c.core) c.grp.asid (c.pageAt a) promoteNeed = (s₁, .ok cc line pte))
    (hb : s₁.backing (line * 64) = .near x) : promoteAt s c d a mk = .done (s₁.wrG c d [promoteResult 0 4]) := by
  unfold promoteAt
  unfold Ctx.pageAt promoteNeed at hl
  dsimp only
  rw [hl]
  dsimp only
  rw [hb]

/-- R67, R69: a page of far memory has its request queued at its bank, with a fresh token that the split awaits. -/
theorem promoteAt_far (hl : s.lineOf (some c.core) c.grp.asid (c.pageAt a) promoteNeed = (s₁, .ok cc line pte))
    (hb : s₁.backing (line * 64) = .far x) (hloc : s₁.locate (line * 64) = some (ch, b, row)) (hq : s₁.channelQueue ch < 16) :
    promoteAt s c d a mk = .done ((s₁.fresh.2.putBank (ch * 16 + b) { s₁.bank (ch * 16 + b) with
      queue := (s₁.bank (ch * 16 + b)).queue ++ [mk row s₁.nextId] }).modTeam c.tid
        fun t => { t with awaits := t.awaits ++ [⟨s₁.nextId, c.uid, .g, d.toNat - 192, 1, 1⟩] }) := by
  unfold promoteAt
  unfold Ctx.pageAt promoteNeed at hl
  dsimp only
  rw [hl]
  dsimp only
  rw [hb, hloc]
  dsimp only
  rw [if_neg (by omega)]
  rfl

variable {ask : Nat → Nat → Nat → BankReq}

/-- What an accepted request leaves: itself at the end of its bank's queue, the result that the split awaits, and every byte. -/
theorem promote_far (hr : Ready i s t p g) (he : exec i s = issue i s fun s c => promoteAt s c d a fun row tok => ask row tok c.tid)
    (hl : (issueState i s t p).lineOf (some t.core) g.asid ((issueCtx i s t p g).pageAt a) promoteNeed = (s₁, .ok cc line pte))
    (hb : s₁.backing (line * 64) = .far x) (hloc : s₁.locate (line * 64) = some (ch, b, row)) (hq : s₁.channelQueue ch < 16) :
    ∃ u, exec i s = .next u ∧
      (sget {} u.banks (ch * 16 + b)).queue = (sget {} s₁.banks (ch * 16 + b)).queue ++ [ask row s₁.nextId t.id] ∧
      (∀ y, u.team? t.id = some y → ⟨s₁.nextId, p.uid, .g, d.toNat - 192, 1, 1⟩ ∈ y.awaits) ∧
      ∀ sp a, u.rdByte sp a = s₁.rdByte sp a := by
  rw [← issueCtx_core i s t p g] at hl
  refine ⟨_, exec_completes hr he (promoteAt_far hl hb hloc hq),
    ?_, fun y hy => ?_, fun sp k => ?_⟩
  · rw [finish_done_banks, issueCtx_tid]
    exact congrArg Bank.queue (sget_sset_same ..)
  · rw [← issueCtx_tid i s t p g, finish_done_team?, State.modTeam_find _ _ _ (by intro; rfl), Option.map_map,
      Option.map_eq_some_iff] at hy
    obtain ⟨z, -, rfl⟩ := hy
    exact List.mem_append_right _ (List.mem_singleton_self _)
  · rw [finish_done_rdByte, State.rdByte_modTeam _ _ _ (by intro; rfl) (by intro; rfl)]
    cases sp <;> rfl

theorem promote_near (hr : Ready i s t p g) (he : exec i s = issue i s fun s c => promoteAt s c d a fun row tok => ask row tok c.tid)
    (hl : (issueState i s t p).lineOf (some t.core) g.asid ((issueCtx i s t p g).pageAt a) promoteNeed = (s₁, .ok cc line pte))
    (hb : s₁.backing (line * 64) = .near x) (hd : 192 ≤ d.toNat) :
    ∃ u, exec i s = .next u ∧ ∀ y, s₁.team? t.id = some y → u.field t.id d.toNat 0 = 4 := by
  rw [← issueCtx_core i s t p g] at hl
  refine ⟨_, exec_completes hr he (promoteAt_near hl hb),
    fun y hy => ?_⟩
  rw [finish_done_field]
  exact State.field_wrG (vals := [promoteResult 0 4]) (k := 0) (issueCtx_tid ..) hy hd Nat.one_pos 0

/-- Settles O22: BSET, BGET and BNAR write one result and go on, BLD departs as a load of one lane, and PROMOTE and DEMOTE differ
only in what they queue. -/
theorem recordsAndPromotion : Obligations.RecordsAndPromotion := by
  refine ⟨fun o s t p g => ⟨bset_spec, bget_spec, fun r => bnar_spec, fun s₁ cc line pte ch b row x => ⟨?_, ?_⟩,
    fun s₁ cc line pte x i hi hr hl hb => ?_⟩, fun o => launches_of_depart (fun _ => rfl) fun _ _ => rfl⟩
  · exact fun hr hl hb hloc hq => promote_far (ask := fun row tok team => .promote row (o.b.getLsbD 0) tok team) hr rfl hl hb hloc hq
  · exact fun hr hl hb hloc hq => promote_far (ask := fun row tok team => .demote row tok team) hr rfl hl hb hloc hq
  · rcases hi with rfl | rfl
    · exact promote_near (ask := fun row tok team => .promote row (o.b.getLsbD 0) tok team) hr rfl hl hb (gD_of_ready hr rfl rfl)
    · exact promote_near (ask := fun row tok team => .demote row tok team) hr rfl hl hb (gD_of_ready hr rfl rfl)

end Sys2Proof.Machine
end

section
/-!
PROOFS. Translation: a walk leaves the cores as they are (R83, R87), and a translation that was found is found again in the core's
own TLB (R88).
-/
namespace Sys2Proof.Machine

variable {s u : State} {e : TlbEntry} {c : Core} {core asid va : Nat}

/-! ### What a walk asks of the memory side leaves the cores alone -/

/-- The state that a pair binds has the cores of the pair's. -/
theorem cores_of_fst {α : Type} {r : State × α} {a : α} (h : r = (u, a)) (hr : r.1.cores = s.cores) : u.cores = s.cores := by
  subst h
  exact hr

theorem State.bankAsk_cores (s : State) (line : Nat) (ks : List Nat) (write : Bool) : (s.bankAsk line ks write).1.cores = s.cores := by
  have h := congrArg State.cores (s.bankAsk_offSlc line ks write)
  exact h

theorem State.recall_cores (s : State) (line : Nat) (drop : Bool) : (s.recall line drop).cores = s.cores := by
  unfold State.recall
  split <;> rfl

theorem State.slcEvict_cores (s : State) (line : Nat) : (s.slcEvict line).1.cores = s.cores := by
  unfold State.slcEvict
  dsimp only
  split
  · rfl
  split
  · exact s.recall_cores ..
  split
  · rfl
  split
  · rfl
  split
  · rfl
  · exact s.bankAsk_cores ..

theorem State.slcRoom_cores (s : State) (line : Nat) : (s.slcRoom line).1.cores = s.cores := by
  unfold State.slcRoom
  split
  · rfl
  split
  · exact s.slcEvict_cores _
  · rfl

theorem State.slcFill_cores (s : State) (line : Nat) (ks : List Nat) : (s.slcFill line ks).1.cores = s.cores := by
  unfold State.slcFill
  split
  next h => exact cores_of_fst h (s.slcRoom_cores line)
  next u h =>
    have hu : u.cores = s.cores := cores_of_fst h (s.slcRoom_cores line)
    dsimp only
    split
    · exact hu
    split
    next v h => exact (cores_of_fst h (u.bankAsk_cores ..)).trans hu
    · exact (u.bankAsk_cores ..).trans hu

theorem State.slcDir_cores (s : State) (line : Nat) (write : Bool) (core : Option Nat) : (s.slcDir line write core).1.cores = s.cores := by
  unfold State.slcDir
  dsimp only
  split
  · exact s.recall_cores ..
  repeat' split
  all_goals rfl

theorem State.slcAsk_cores (s : State) (line : Nat) (ks : List Nat) (write : Bool) (core : Option Nat) (who : Asker) :
    (s.slcAsk line ks write core who).1.cores = s.cores := by
  unfold State.slcAsk
  split
  · rfl
  split
  next v h =>
    have hv : v.cores = s.cores := cores_of_fst h (s.slcDir_cores ..)
    exact hv
  next v h =>
    have hv : v.cores = s.cores := cores_of_fst h (s.slcDir_cores ..)
    split
    next w h =>
      have hw : w.cores = v.cores := cores_of_fst h (v.slcFill_cores ..)
      exact hw.trans hv
    · exact (v.slcFill_cores ..).trans hv

/-- A walk goes down one level at a time. -/
theorem State.walkTables_cores (s : State) (asid va : Nat) (levels : List (Nat × Nat)) (table : Nat) :
    (s.walkTables asid va levels table).1.cores = s.cores := by
  induction levels generalizing s table with
  | nil => rfl
  | cons level rest ih =>
    unfold State.walkTables
    extract_lets +onlyGivenNames a
    split
    · rfl
    split
    · rfl
    split
    next u _ h =>
      have hu : u.cores = s.cores := cores_of_fst h (s.slcAsk_cores ..)
      split
      · exact hu
      split
      · exact hu
      extract_lets x
      split
      · exact hu
      · exact hu
      · exact (ih u _).trans hu

theorem State.pteOr_cores (s : State) (pte bit : Nat) (who : Asker) : (s.pteOr pte bit who).1.cores = s.cores := by
  have hunclaim : ∀ v : State, (v.unclaim who).cores = v.cores := fun v => by
    unfold State.unclaim
    split <;> rfl
  have hmissed : ∀ v : State, (v.missed .glob (pte / 64) .device).cores = v.cores := fun v => by
    unfold State.missed
    split <;> rfl
  have hwrite : ∀ (v : State) cells, (v.slcWrite cells).cores = v.cores := fun v cells => by
    have h := congrArg State.cores (v.slcWrite_offSlc cells)
    exact h
  unfold State.pteOr
  dsimp only
  split
  · rfl
  split
  · exact (hunclaim _).trans (s.slcAsk_cores ..)
  · exact (hwrite _ _).trans ((hmissed _).trans (s.slcAsk_cores ..))

theorem State.walk_cores (s : State) (asid va : Nat) : (s.walk asid va).1.cores = s.cores := by
  unfold State.walk
  split
  · rfl
  split
  next h => exact cores_of_fst h (s.walkTables_cores ..)
  next h => exact cores_of_fst h (s.walkTables_cores ..)
  next h => exact cores_of_fst h (s.walkTables_cores ..)
  next u _ _ _ h =>
    have hu : u.cores = s.cores := cores_of_fst h (s.walkTables_cores ..)
    dsimp only
    split <;> exact (u.pteOr_cores ..).trans hu

/-! ### TLB hits -/

/-- R88: the entry that a leaf makes covers the address that was walked for. -/
theorem tlbOf_matches (asid va pte x lg : Nat) : (tlbOf asid va pte x lg).matches asid va = true := by
  simp [TlbEntry.matches, tlbOf]

theorem State.walk_matches (h : s.walk asid va = (u, some (some e))) : e.matches asid va = true := by
  unfold State.walk at h
  split at h
  · cases h
  split at h
  · cases h
  · cases h
  · cases h
    exact tlbOf_matches asid va 0 0 0
  · dsimp only at h
    split at h
    · cases h
    · cases h
      exact tlbOf_matches ..

/-- A core's L1 TLB answers first. -/
theorem State.translate_hit (hc : s.core? core = some c) (he : c.tlb.find? (fun e => e.matches asid (va % 2 ^ 48)) = some e) :
    s.translate (some core) asid va = (s, some (some e)) := by
  unfold State.translate
  simp only [Option.bind_some, hc, he]

/-- The TLB of a core takes an entry. -/
def Core.fillTlb (e : TlbEntry) (c : Core) : Core := { c with tlb := (e :: c.tlb).take 128 }

theorem State.translate_filled (hc : s.core? core = some c) (he : e.matches asid (va % 2 ^ 48) = true) :
    (s.modCore core (Core.fillTlb e)).translate (some core) asid va = (s.modCore core (Core.fillTlb e), some (some e)) := by
  refine State.translate_hit (c := c.fillTlb e) ?_ ?_
  · rw [s.modCore_find core (Core.fillTlb e) fun _ => rfl, hc, Option.map_some]
  · exact List.find?_cons_of_pos he

/-- R88: a translation that was found is found again, at once: the L1 TLB has answered, or has been filled from the L2 TLB or by a
walk. -/
theorem State.translate_again (hc : s.core? core ≠ none) (h : s.translate (some core) asid va = (u, some (some e)))
    (ha : e.alien = false) : u.translate (some core) asid va = (u, some (some e)) := by
  obtain ⟨c, hc⟩ := Option.ne_none_iff_exists'.1 hc
  unfold State.translate at h
  simp only [Option.bind_some, hc] at h
  split at h
  next hl1 =>
    cases h
    exact State.translate_hit hc hl1
  split at h
  next hl2 =>
    cases h
    have hm := List.find?_some hl2
    rw [Bool.and_eq_true] at hm
    exact State.translate_filled hc hm.2
  split at h
  next v e' hw =>
    rw [Prod.mk.injEq, Option.some.injEq, Option.some.injEq] at h
    obtain ⟨rfl, rfl⟩ := h
    rw [ha]
    have hv : v.core? core = some c := by
      unfold State.core?
      rw [cores_of_fst hw (s.walk_cores ..)]
      exact hc
    exact State.translate_filled hv (State.walk_matches hw)
  next hnone => exact absurd h (hnone _ _)

end Sys2Proof.Machine
end

section
/-!
PROOFS. A trap that is taken in a state that is the issuing one on the face of it (R353, R356).
-/
namespace Sys2Proof.Machine

variable {s w : State} {t t₁ y : Team} {p : Split} {code detail tid uid : Nat} {lanes : LaneMask} {skip : Bool} {epc : Word}

/-- The state in which a precise trap enters: what is done is written, and the split keeps no load for a replay. -/
def State.raised (s : State) (tid uid : Nat) : State := (s.flushParked tid).modSplit tid uid fun q => { q with caps := [] }

/-- R41, R155: with nothing outstanding and no fence a trap that is no debug code is taken at once. -/
theorem State.raise_eq (ht : s.team? tid = some t) (hp : t.split? uid = some p) (hout : s.outstanding t = false)
    (hf : p.fence = none) (hcode : 161 < code) : s.raise tid uid code detail lanes skip epc =
      some ((s.raised tid uid).takeTrap tid uid code detail lanes skip epc false) := by
  unfold State.raise
  simp only [ht, hp, hout, hf, show ¬(159 ≤ code ∧ code ≤ 161) by omega, State.raised]
  simp

/-- Two updates of a split in turn are one. -/
theorem Team.modSplit_modSplit (t : Team) (uid : Nat) {f : Split → Split} (h : Split → Split) (hf : ∀ q, (f q).uid = q.uid) :
    (t.modSplit uid f).modSplit uid h = t.modSplit uid fun q => h (f q) := by
  have e : ((fun q => if q.uid = uid then h q else q) ∘ fun q => if q.uid = uid then f q else q) =
      fun q => if q.uid = uid then h (f q) else q := by
    funext q
    by_cases hq : q.uid = uid
    · simp only [Function.comp, hq, if_true, hf]
    · simp only [Function.comp, hq, if_false]
  simp only [Team.modSplit, List.map_map, Option.map_map, e]

/-- What is cut short of a team by the entry is nothing where no access is parked and no other split speculates. -/
theorem State.readyToTrap_modSplit {f : Split → Split} (hf : ∀ q, (f q).uid = q.uid) (hh : ∀ q, t.handler = some q → q.uid = p.uid)
    (hfence : ∀ q ∈ t.live, q.fence = none) (ht : w.team? tid = some (t.modSplit p.uid f)) :
    (w.readyToTrap tid p.uid (t.modSplit p.uid f)).team? tid = some (t.modSplit p.uid f) := by
  refine State.readyToTrap_team ht fun q _ hn r hr => ?_
  rw [Team.modSplit_find_other _ _ hf hn] at hr
  exact Team.split?_live_fence hh hfence hn hr

/-- The trap of split `p`, taken in a state with the same faces; what is saved is that of the team of `s` where the team comes to the
entry with its splits changed alone. -/
theorem State.takeTrap_takes (hw : SameFaces s w) (ht : s.team? t.id = some t) (hp : t.split? p.uid = some p) (hd : t.depth ≤ 1)
    (hdef : (t.deferred.any fun q => decide (q.uid = p.uid)) = false) (hh : ∀ q, t.handler = some q → q.uid = p.uid)
    (hcut : (∀ f ∈ s.flights, f.team = t.id → f.parked = false) →
      ∃ f : Split → Split, (∀ q, (f q).uid = q.uid) ∧ w.team? t.id = some (t.modSplit p.uid f)) :
    TakesTrap s (w.takeTrap t.id p.uid code detail lanes skip epc false) t p code detail lanes skip epc := by
  obtain ⟨t₁, ht₁, hf₁⟩ := hw.team ht
  have hp₁ := Team.face_split? hf₁ p.uid
  rw [hp, Option.map_some, Option.map_eq_some_iff] at hp₁
  obtain ⟨p₁, hp₁, hfp⟩ := hp₁
  have hd₁ : t₁.depth ≤ 1 := by
    rwa [Team.depth, show t₁.sstatHi = t.sstatHi from congrArg TeamFace.sstatHi hf₁]
  obtain ⟨new, e⟩ := State.takeTrap_eq (code := code) (detail := detail) (lanes := lanes) (skip := skip) (epc := epc) ht₁ hp₁ hd₁
  have hready := hw.trans (w.readyToTrap_sameFaces t.id p.uid t₁)
  obtain ⟨y, hy, hfy⟩ := hready.team ht
  have hsame : (∀ f ∈ s.flights, f.team = t.id → f.parked = false) → (∀ q ∈ t.live, q.fence = none) →
      ∃ f : Split → Split, y = t.modSplit p.uid f := by
    intro hpark hfence
    obtain ⟨f, hf, hwt⟩ := hcut hpark
    obtain rfl := Option.some.inj (ht₁.symm.trans hwt)
    exact ⟨f, Option.some.inj (hy.symm.trans (State.readyToTrap_modSplit hf hh hfence hwt))⟩
  generalize w.readyToTrap t.id p.uid t₁ = v at e hready hy
  have hslot : v.shownSlot y p₁ = p.slot := by
    unfold State.shownSlot
    rw [show p₁.uid = p.uid from congrArg (·.1) hfp, Team.face_deferred hfy, hdef]
    exact congrArg (·.2.2.2) hfp
  have hu := v.modTeam_find t.id (fun x => x.enterHandler p₁ (v.shownSlot x p₁) code detail lanes skip epc new) fun _ => rfl
  rw [hy, Option.map_some] at hu
  obtain ⟨h, hhandler, hcause, hepc, hlo, hhi, hm15, hpc, hmode, hown, hexec⟩ :=
    Team.enterHandler_face (code := code) (detail := detail) (lanes := lanes) (skip := skip) (epc := epc) (new := new) hfy hfp hslot
  rw [e]
  refine ⟨⟨_, h, hu, hhandler, hcause, hepc, hlo, hhi, hm15, hpc, hmode, hown, hexec, fun hpark hfence => ?_⟩, fun sp a => ?_⟩
  · obtain ⟨f, rfl⟩ := hsame hpark hfence
    exact Team.enterHandler_saves (t.modSplit p.uid f) p₁ _ new
  · refine (v.rdByte_modTeam t.id _ ?_ ?_ sp a).trans (hready.rdByte sp a)
    · intro; rfl
    · intro; rfl

/-- The same, of a split that has been changed before it raises the trap. -/
theorem takesTrap_modSplit {f : Split → Split} {g : Group} (hf : ∀ q, (f q).face = q.face) (hfence : (f p).fence = p.fence)
    (ht : s.team? t.id = some t) (hp : t.split? p.uid = some p) (hdef : (t.deferred.any fun q => decide (q.uid = p.uid)) = false)
    (hh : ∀ q, t.handler = some q → q.uid = p.uid) (hc : CanTrap s t p g code) (hcode : 161 < code) :
    ∃ u, (s.modSplit t.id p.uid f).raise t.id p.uid code detail lanes skip epc = some u ∧
      TakesTrap s u t p code detail lanes skip epc := by
  obtain ⟨hout, hpf, hd, -⟩ := hc
  have hid : ∀ q, (f q).uid = q.uid := fun q => congrArg Prod.fst (hf q)
  have ht' := s.modTeam_find t.id (fun x => x.modSplit p.uid f) fun _ => rfl
  rw [ht, Option.map_some] at ht'
  have hp' := t.modSplit_find p.uid f hid
  rw [hp, Option.map_some] at hp'
  have hw : SameFaces s ((s.modSplit t.id p.uid f).raised t.id p.uid) :=
    (((SameFaces.refl s).modSplit _ _ hf).flushParked _).modSplit _ _ fun _ => rfl
  refine ⟨_, State.raise_eq ht' hp' hout (hfence.trans hpf) hcode, State.takeTrap_takes hw ht hp hd hdef hh fun hpark => ?_⟩
  have e : (s.modSplit t.id p.uid f).flushParked t.id = s.modSplit t.id p.uid f := State.flushParked_same hpark
  have hr := (s.modSplit t.id p.uid f).modTeam_find t.id (fun x => x.modSplit p.uid fun q => { q with caps := [] }) fun _ => rfl
  rw [show (s.modSplit t.id p.uid f).team? t.id = _ from ht', Option.map_some, Team.modSplit_modSplit _ _ _ hid] at hr
  refine ⟨fun q => { f q with caps := [] }, hid, ?_⟩
  unfold State.raised
  rw [e]
  exact hr

end Sys2Proof.Machine
end

section
/-!
PROOFS. The obligation on walks, fault replies, replays and translation invalidations.
-/
namespace Sys2Proof.Machine

variable {s : State} {t : Team} {p : Split} {g : Group} {k : Park} {tid uid : Nat}

/-! ### Splits and data -/

theorem State.splitOf_modSplit {f : Split → Split} (hf : ∀ q, (f q).uid = q.uid) (h : s.splitOf tid uid = some p) :
    (s.modSplit tid uid f).splitOf tid uid = some (f p) := by
  obtain ⟨t, ht, hp⟩ := Option.bind_eq_some_iff.1 h
  have ht' := s.modTeam_find tid (fun x => x.modSplit uid f) fun _ => rfl
  rw [ht, Option.map_some] at ht'
  refine Option.bind_eq_some_iff.2 ⟨_, ht', ?_⟩
  rw [t.modSplit_find uid f hf, hp, Option.map_some]

theorem State.modSplit_sameData (s : State) (tid uid : Nat) (f : Split → Split) : s.sameData (s.modSplit tid uid f) :=
  ⟨s.modSplit_rdByte tid uid f, s.modSplit_reg tid uid f⟩

/-- An update of every team that keeps names, registers and private bytes. -/
theorem State.sameData_of_teams {u : State} {f : Team → Team} (ht : u.teams = s.teams.map f) (hi : ∀ t, (f t).id = t.id)
    (hp : ∀ t, (f t).priv = t.priv) (hr : ∀ t x r l, (f t).raw x r l = t.raw x r l) (hm : u.mem = s.mem) (hl : u.loft = s.loft)
    (hg : u.groups = s.groups) : s.sameData u := by
  have hteam : ∀ id, u.team? id = (s.team? id).map f := fun id => by
    unfold State.team?
    rw [ht]
    exact find_map_team s.teams f hi id
  refine ⟨fun sp a => ?_, fun id x r l => ?_⟩
  · cases sp with
    | glob => simp only [State.rdByte, hm]
    | loft => simp only [State.rdByte, hl]
    | win k => simp only [State.rdByte, State.group?, hg]
    | priv k =>
      simp only [State.rdByte, hteam]
      cases s.team? k with
      | none => rfl
      | some t => simp only [Option.map_some, hp]
  · unfold State.reg
    rw [hteam]
    cases s.team? id with
    | none => rfl
    | some t => exact hr t x r l

/-- An acquire changes what flights have heard of. -/
theorem State.splitAcquires_eq (s : State) (tid uid scope : Nat) : ∃ l, s.splitAcquires tid uid scope = { s with flights := l } := by
  unfold State.splitAcquires
  split
  · unfold State.acquired
    split
    · exact ⟨_, rfl⟩
    · exact ⟨_, rfl⟩
  · exact ⟨_, rfl⟩

/-! ### FAULT_REPLY -/

/-- R351: a parked split that the host has answered. -/
def Split.answered (ok : Bool) (q : Split) : Split :=
  { q with park := q.park.map fun k => { k with resumed := ok, refused := !ok } }

/-- R351: the host's answer reaches the parked split; one that lets it go on is an acquire (R288), which moves no data. -/
theorem State.answerSplit_spec (ok : Bool) (hp : s.splitOf tid uid = some p) (hk : p.park = some k) :
    s.sameData (s.answerSplit tid uid ok) ∧ (s.answerSplit tid uid ok).tickets = s.tickets ∧
      (s.answerSplit tid uid ok).splitOf tid uid = some { p with park := some { k with resumed := ok, refused := !ok } } := by
  have e : s.answerSplit tid uid ok = if ok then (s.modSplit tid uid (Split.answered ok)).splitAcquires tid uid 6
      else s.modSplit tid uid (Split.answered ok) := rfl
  have hsplit := State.splitOf_modSplit (f := Split.answered ok) (fun _ => rfl) hp
  rw [Split.answered, hk, Option.map_some] at hsplit
  obtain ⟨hbytes, hregs⟩ := s.modSplit_sameData tid uid (Split.answered ok)
  rw [e]
  split
  · obtain ⟨l, e⟩ := (s.modSplit tid uid (Split.answered ok)).splitAcquires_eq tid uid 6
    rw [e]
    refine ⟨⟨fun sp a => Eq.trans ?_ (hbytes sp a), hregs⟩, rfl, hsplit⟩
    cases sp <;> rfl
  · exact ⟨⟨hbytes, hregs⟩, rfl, hsplit⟩

/-- R387: with no fault waiting a ticket only frees. -/
theorem State.freeFaultTicket_idle (hq : s.faultQ = []) (n : Nat) :
    s.freeFaultTicket n = { s with tickets := s.tickets.filter fun q => q.1 ≠ n } := by
  unfold State.freeFaultTicket
  dsimp only
  rw [hq]

theorem faultReply_split {e : EvReply} {f : FaultMsg} (hf : s.tickets.find? (fun q => decide (q.1 = e.ticket)) = some (e.ticket, .fault f))
    (hsrc : f.src = .split tid uid) (hp : s.splitOf tid uid = some p) (hk : p.park = some k) (hq : s.faultQ = []) :
    ∃ u, exec (.faultReply e) s = .next u ∧ (∀ q ∈ u.tickets, q.1 ≠ e.ticket) ∧ s.sameData u ∧
      u.splitOf tid uid = some { p with
        park := some { k with resumed := decide (e.status = 0), refused := decide (e.status ≠ 0) } } := by
  obtain ⟨⟨hbytes, hregs⟩, htickets, hsplit⟩ :=
    State.answerSplit_spec (s := { s with tickets := s.tickets.filter fun q => q.1 ≠ e.ticket }) (decide (e.status = 0)) hp hk
  have he : exec (.faultReply e) s = .next (State.answerSplit { s with tickets := s.tickets.filter fun q => q.1 ≠ e.ticket }
      tid uid (decide (e.status = 0))) := by
    show execFaultReply e s = _
    unfold execFaultReply
    rw [hf]
    dsimp only
    rw [hsrc, State.freeFaultTicket_idle hq]
  refine ⟨_, he, fun q hm => ?_, ⟨fun sp a => (hbytes sp a).trans ?_, hregs⟩, ?_⟩
  · rw [htickets] at hm
    simpa using (List.mem_filter.1 hm).2
  · cases sp <;> rfl
  · rw [hsplit, decide_not]

/-! ### PARKED_REPLAY -/

/-- R90: a split parked at a fetch that the host has resumed fetches again. -/
theorem parkedReplay_fetches (ht : s.team? t.id = some t) (hp : t.split? p.uid = some p) (hg : s.group? t.group = some g)
    (hk : p.park = some k) (hkind : k.kind = .fetch) (hres : t.residence = .resident) (hh : t.handler = none)
    (hruns : s.groupRuns g = true) (href : k.refused = false) (hgo : k.resumed = true) :
    ∃ u, exec (.parkedReplay ⟨t.id, p.uid⟩) s = .next u ∧
      u.splitOf t.id p.uid = some { p with park := none, st := .ready } ∧ s.sameData u := by
  refine ⟨s.modSplit t.id p.uid fun q => { q with park := none, st := .ready }, ?_,
    State.splitOf_modSplit (fun _ => rfl) (Option.bind_eq_some_iff.2 ⟨t, ht, hp⟩), s.modSplit_sameData ..⟩
  show execParkedReplay ⟨t.id, p.uid⟩ s = _
  unfold execParkedReplay
  simp [ht, hp, hg, hk, hh, hres, hruns, href, hgo, hkind]

/-- R351: a refused split is no longer parked. -/
def Split.unpark (late : Bool) (q : Split) : Split :=
  { q with park := none, busy := if late then q.busy else none, st := if q.st = .parked then .ready else q.st }

/-- R351: the refusal of a split parked at a fetch. -/
theorem State.refuse_fetch (s : State) (t : Team) (p : Split) (hkind : k.kind = .fetch) :
    s.refuse t p k = ((s.modSplit t.id p.uid (Split.unpark k.late)).raise t.id p.uid 323 16 p.exec false p.pc).getD s := by
  unfold State.refuse
  rw [hkind]
  cases k.late <;> rfl

theorem parkedReplay_refused (ht : s.team? t.id = some t) (hp : t.split? p.uid = some p) (hg : s.group? t.group = some g)
    (hk : p.park = some k) (hkind : k.kind = .fetch) (hres : t.residence = .resident) (hh : t.handler = none)
    (hruns : s.groupRuns g = true) (hdef : ∀ q ∈ t.deferred, q.uid ≠ p.uid) (href : k.refused = true) (hc : CanTrap s t p g 323) :
    ∃ u, exec (.parkedReplay ⟨t.id, p.uid⟩) s = .next u ∧ TakesTrap s u t p 323 16 p.exec false p.pc := by
  obtain ⟨u, hu, htrap⟩ := takesTrap_modSplit (detail := 16) (lanes := p.exec) (skip := false) (epc := p.pc) (f := Split.unpark k.late)
    (fun _ => rfl) rfl ht hp (List.any_eq_false.2 fun q hq => by simpa using hdef q hq) (by simp [hh]) hc (by decide)
  refine ⟨u, ?_, htrap⟩
  show execParkedReplay ⟨t.id, p.uid⟩ s = _
  unfold execParkedReplay
  simp [ht, hp, hg, hk, hh, hres, hruns, href, State.refuse_fetch s t p hkind, hu]

/-! ### TRANSLATION_INVALIDATION, INVALIDATION_ACK -/

/-- R93: an invalidation starts a generation and leaves no TLB entry that it covers. -/
theorem translationInvalidation_starts (s : State) (kind : InvKind) (h : s.invs.length < 8) :
    ∃ u, exec (.translationInvalidation ⟨kind⟩) s = .next u ∧ u.gen = s.gen + 1 ∧
      u.invs = s.invs ++ [⟨kind, s.gen⟩] ∧ s.sameData u ∧
      (∀ x ∈ u.l2Tlb, invCovers kind x.asid x.vpn x.lg x.global = false) ∧
      ∀ c ∈ u.cores, ∀ x ∈ c.tlb, invCovers kind x.asid x.vpn x.lg x.global = false := by
  have kept : ∀ (l : List TlbEntry) (x : TlbEntry), x ∈ l.filter (fun x => !(invCovers kind x.asid x.vpn x.lg x.global)) →
      invCovers kind x.asid x.vpn x.lg x.global = false := fun l x hx => by simpa using (List.mem_filter.1 hx).2
  refine ⟨_, if_neg (Nat.not_le.2 h), rfl, rfl, ?_, kept _, fun c hc => ?_⟩
  · refine State.sameData_of_teams (s := s) rfl ?_ ?_ ?_ rfl rfl rfl
    · intro; rfl
    · intro; rfl
    · intro _ x _ _
      cases x <;> rfl
  · obtain ⟨c, -, rfl⟩ := List.mem_map.1 hc
    exact kept _

/-- Settles O40: a found translation is found again; the host's answer reaches the split, which then goes on or traps; an
invalidation filters the TLBs and is acknowledged in its turn. -/
theorem translationEvents : Obligations.TranslationEvents := by
  intro s
  refine ⟨fun core asid va s₁ e hcore hctx h ha => ⟨?_, State.translate_again hcore h ha⟩, fun e f tid uid p k => faultReply_split,
    fun t p g k ht hp hg hk hkind hres hh hruns hdef => ⟨parkedReplay_fetches ht hp hg hk hkind hres hh hruns,
      parkedReplay_refused ht hp hg hk hkind hres hh hruns hdef⟩,
    translationInvalidation_starts s, fun kind h => if_pos h, fun i is hi hd => ?_⟩
  · obtain ⟨c, hc⟩ := Option.ne_none_iff_exists'.1 hcore
    obtain ⟨x, hx⟩ := Option.ne_none_iff_exists'.1 hctx
    show execPageWalkComplete ⟨core, asid, va⟩ s = _
    unfold execPageWalkComplete
    simp only [hc, hx, h]
  · show execInvalidationAck s = _
    unfold execInvalidationAck
    rw [hi]
    exact if_pos hd

end Sys2Proof.Machine
end

section
/-!
PROOFS. Speculation that is discarded (R155, R284): it changes teams and accesses alone, and leaves an access that has not returned,
is not held and has nothing parked.
-/
namespace Sys2Proof.Machine

variable {s u v : State} {t : Team} {f : Flight} {tid uid fid line core : Nat}

/-! ### What it leaves alone -/

/-- A state without what discarding speculation may change. -/
def State.offSpec (s : State) : State := { s with teams := [], flights := [] }

theorem State.endFlight_offSpec (s : State) (f : Flight) : (s.endFlight f).offSpec = s.offSpec := by
  unfold State.endFlight
  dsimp only
  split <;> rfl

theorem State.abandonFlight_offSpec (s : State) (fid : Nat) : (s.abandonFlight fid).offSpec = s.offSpec := by
  unfold State.abandonFlight
  split
  · rfl
  · dsimp only
    split
    · exact State.endFlight_offSpec ..
    · rfl

theorem State.discardFence_offSpec (s : State) (tid uid : Nat) : (s.discardFence tid uid).offSpec = s.offSpec := by
  unfold State.discardFence
  split
  · rfl
  split
  · rfl
  split
  · rfl
  · extract_lets s₁ s₂
    have h : s₂.offSpec = s.offSpec := by
      unfold s₂
      split
      · exact State.abandonFlight_offSpec ..
      · rfl
    exact h

theorem State.conflict_offSpec (s : State) (sp : Space) (line : Nat) (w : Agent) (core : Option Nat) :
    (s.conflict sp line w core).offSpec = s.offSpec := foldl_keeps _ State.offSpec (fun _ _ => State.discardFence_offSpec ..) _ _

@[simp] theorem State.conflict_cores (s : State) (sp : Space) (line : Nat) (w : Agent) (core : Option Nat) :
    (s.conflict sp line w core).cores = s.cores := by
  have h := congrArg State.cores (s.conflict_offSpec sp line w core)
  exact h
@[simp] theorem State.conflict_dir (s : State) (sp : Space) (line : Nat) (w : Agent) (core : Option Nat) :
    (s.conflict sp line w core).dir = s.dir := by
  have h := congrArg State.dir (s.conflict_offSpec sp line w core)
  exact h
@[simp] theorem State.conflict_l1Invs (s : State) (sp : Space) (line : Nat) (w : Agent) (core : Option Nat) :
    (s.conflict sp line w core).l1Invs = s.l1Invs := by
  have h := congrArg State.l1Invs (s.conflict_offSpec sp line w core)
  exact h
@[simp] theorem State.endFlight_cores (s : State) (f : Flight) : (s.endFlight f).cores = s.cores := by
  have h := congrArg State.cores (s.endFlight_offSpec f)
  exact h

theorem SameFaces.conflict {sp : Space} {w : Agent} {c : Option Nat} (h : SameFaces s u) : SameFaces s (u.conflict sp line w c) :=
  foldl_holds _ (SameFaces s) (fun _ _ h => h.discardFence ..) _ _ h

/-! ### Which accesses are a split's own (R275) -/

/-- The names of a split and of those whose instructions precede its own. -/
def Split.kin (p : Split) : Nat × List Nat := (p.uid, p.anc)

/-- A team by its splits' names and ancestors. -/
def Team.kin (t : Team) : Nat × List (Nat × List Nat) × List (Nat × List Nat) × Option (Nat × List Nat) :=
  (t.id, t.splits.map Split.kin, t.deferred.map Split.kin, t.handler.map Split.kin)

theorem Team.modSplit_kin (t : Team) (uid : Nat) {f : Split → Split} (hf : ∀ p, (f p).kin = p.kin) :
    (t.modSplit uid f).kin = t.kin := by
  have h : (Split.kin ∘ fun p => if p.uid = uid then f p else p) = Split.kin := by
    funext p
    dsimp only [Function.comp]
    split
    · exact hf p
    · rfl
  simp only [Team.kin, Team.modSplit, List.map_map, Option.map_map, h]

theorem Team.writeOn_kin (t : Team) (owner ew : Nat) (f : RFile) (r : Nat) (bits : LaneMask) (vals : List (Nat × Nat)) :
    (t.writeOn owner ew f r bits vals).kin = t.kin := by
  have h : ((t.put f r vals).markWritten f r).kin = t.kin := by cases f <;> rfl
  unfold Team.writeOn
  split
  · rfl
  · dsimp only
    repeat' split
    all_goals exact h

theorem Team.land_kin (t : Team) (tok owner : Nat) (f : RFile) (r : Nat) (vals : List (Nat × Nat)) (path : Option Nat) :
    (t.land tok owner f r vals path).kin = t.kin := by
  unfold Team.land
  extract_lets bits up olds t₁ t₂ before
  have h : t₂.kin = t.kin := t₁.writeOn_kin ..
  split <;> exact h

theorem Team.deliver_kin (t : Team) (tok : Nat) (f : RFile) (vals : List (Nat × List (Nat × Nat))) (path : Option Nat) :
    (t.deliver tok f vals path).kin = t.kin := by
  unfold Team.deliver
  exact foldl_keeps _ Team.kin (fun x c => x.land_kin ..) vals t

theorem Team.mark_kin (t : Team) (marks : List (RFile × Nat × Nat)) : (t.mark marks).kin = t.kin := by
  unfold Team.mark
  split <;> rfl

theorem State.modTeam_kin (s : State) (tid : Nat) {f : Team → Team} (hf : ∀ t, (f t).kin = t.kin) :
    (s.modTeam tid f).teams.map Team.kin = s.teams.map Team.kin := by
  rw [State.modTeam_teams, List.map_map]
  refine List.map_congr_left fun x _ => ?_
  dsimp only [Function.comp]
  split
  · exact hf x
  · rfl

/-- R275: an access is its split's own, or of a split that precedes it, or of a team whose handler the split is. -/
theorem State.ofSplit_eq (s : State) (tid uid : Nat) (e : Flight) : s.ofSplit tid uid e = (decide (e.team = tid) &&
    (decide (e.split = uid) || (s.team? tid).any fun t =>
      (t.split? uid).any (fun p => p.anc.contains e.split) || t.handler.any fun h => decide (h.uid = uid))) := by
  unfold State.ofSplit
  cases s.team? tid with
  | none => rfl
  | some t =>
    dsimp only [Option.any_some]
    cases t.split? uid <;> cases t.handler <;> rfl

theorem Team.kin_owns {y : Team} (h : y.kin = t.kin) (uid sp : Nat) :
    ((y.split? uid).any (fun p => p.anc.contains sp) || y.handler.any fun q => decide (q.uid = uid)) =
      ((t.split? uid).any (fun p => p.anc.contains sp) || t.handler.any fun q => decide (q.uid = uid)) := by
  simp only [Team.kin, Prod.mk.injEq] at h
  obtain ⟨-, hsplits, hdeferred, hhandler⟩ := h
  have hsplit : (y.split? uid).map Split.kin = (t.split? uid).map Split.kin := by
    refine find?_outline Split.kin (fun q => decide (q.1 = uid)) ?_
    simp only [List.map_append, hsplits, hdeferred, ← Option.toList_map, hhandler]
  have hanc := congrArg (Option.any fun q => q.2.contains sp) hsplit
  have huid := congrArg (Option.any fun q => decide (q.1 = uid)) hhandler
  simp only [Option.any_map] at hanc huid
  exact congrArg₂ or hanc huid

/-- Whether an access is a split's own is read of names and ancestors. -/
theorem State.ofSplit_congr (h : u.teams.map Team.kin = s.teams.map Team.kin) (tid uid : Nat) {e d : Flight} (ht : d.team = e.team)
    (hs : d.split = e.split) : u.ofSplit tid uid e = s.ofSplit tid uid d := by
  have hteam : (u.team? tid).map Team.kin = (s.team? tid).map Team.kin := find?_outline Team.kin (fun o => decide (o.1 = tid)) h
  rw [State.ofSplit_eq, State.ofSplit_eq, ht, hs]
  congr 2
  cases hy : u.team? tid with
  | none =>
    rw [hy, Option.map_none, eq_comm, Option.map_eq_none_iff] at hteam
    rw [hteam]
  | some y =>
    rw [hy, Option.map_some, eq_comm, Option.map_eq_some_iff] at hteam
    obtain ⟨t, ht, hk⟩ := hteam
    rw [ht, Option.any_some, Option.any_some]
    exact Team.kin_owns hk.symm uid e.split

/-! ### Accesses that stand -/

/-- An access that discarding speculation leaves: it has not returned, it is not held, and nothing of it is parked or done. -/
def Flight.Stands (f : Flight) : Prop := f.returned = false ∧ f.held = false ∧ f.unparked = f ∧ f.performed = false

/-- What an acquire of an access is read of (R275, R277). -/
def Flight.key (f : Flight) : Nat × Nat × Nat × Nat × Nat := (f.id, f.team, f.split, f.order, f.scope)

/-- An access that has not returned was there and had not returned; one that stands is found under its name. -/
structure FlightsKept (l l' : List Flight) : Prop where
  pending : ∀ e ∈ l', e.returned = false → ∃ d ∈ l, d.returned = false ∧ d.key = e.key
  stands : ∀ i f, l.find? (fun x => decide (x.id = i)) = some f → f.Stands → l'.find? (fun x => decide (x.id = i)) = some f

theorem FlightsKept.refl (l : List Flight) : FlightsKept l l := ⟨fun e he hr => ⟨e, he, hr, rfl⟩, fun _ _ h _ => h⟩

theorem FlightsKept.trans {l l' l'' : List Flight} (h : FlightsKept l l') (h' : FlightsKept l' l'') : FlightsKept l l'' := by
  refine ⟨fun e he hr => ?_, fun i f hf hs => h'.stands i f (h.stands i f hf hs) hs⟩
  obtain ⟨d, hd, hdr, hk⟩ := h'.pending e he hr
  obtain ⟨c, hc, hcr, hk'⟩ := h.pending d hd hdr
  exact ⟨c, hc, hcr, hk'.trans hk⟩

theorem FlightsKept.filter (l : List Flight) {p : Flight → Bool} (hp : ∀ f, f.held = false → p f = true) :
    FlightsKept l (l.filter p) := by
  refine ⟨fun e he hr => ⟨e, (List.mem_filter.1 he).1, hr, rfl⟩, fun i f hf ⟨_, hh, _, _⟩ => ?_⟩
  induction l with
  | nil => exact hf
  | cons x xs ih =>
    rw [List.find?_cons] at hf
    rw [List.filter_cons]
    split at hf
    next hx =>
      obtain rfl := Option.some.inj hf
      rw [if_pos (hp x hh), List.find?_cons, hx]
    next hx =>
      split
      · rw [List.find?_cons, hx]
        exact ih hf
      · exact ih hf

theorem mem_of_mem_popReturned {l : List Flight} {b : List (Nat × Nat)} (h : f ∈ popReturned l b) : f ∈ l := by
  induction l generalizing b with
  | nil => exact h
  | cons x xs ih =>
    rw [popReturned] at h
    split at h
    · exact .tail _ (ih h)
    · rcases List.mem_cons.1 h with rfl | h
      · exact .head _
      · exact .tail _ (ih h)

theorem FlightsKept.popReturned (l : List Flight) (b : List (Nat × Nat)) : FlightsKept l (popReturned l b) := by
  refine ⟨fun e he hr => ⟨e, mem_of_mem_popReturned he, hr, rfl⟩, fun i f hf ⟨hr, _⟩ => ?_⟩
  induction l generalizing b with
  | nil => exact hf
  | cons x xs ih =>
    rw [List.find?_cons] at hf
    rw [Machine.popReturned]
    split at hf
    next hx =>
      obtain rfl := Option.some.inj hf
      rw [if_neg (by simp [hr]), List.find?_cons, hx]
    next hx =>
      split
      · exact ih _ hf
      · rw [List.find?_cons, hx]
        exact ih _ hf

theorem State.endFlight_flights (s : State) (f : Flight) :
    (s.endFlight f).flights = popReturned (s.modFlight f.id fun x => { x with returned := true }).flights [] := by
  unfold State.endFlight
  dsimp only
  split <;> rfl

/-- The access of a name ends, where it does not stand. -/
theorem FlightsKept.endFlight (s : State) (f : Flight) (hf : ∀ d, s.flight? f.id = some d → ¬ d.Stands) :
    FlightsKept s.flights (s.endFlight f).flights := by
  rw [State.endFlight_flights]
  refine FlightsKept.trans ⟨fun d hd hr => ?_, fun i g hg hs => ?_⟩ (.popReturned _ _)
  · obtain ⟨x, hx, rfl⟩ := List.mem_map.1 hd
    split at hr
    · simp at hr
    next hn => exact ⟨x, hx, hr, by rw [if_neg hn]⟩
  · by_cases hi : i = f.id
    · subst hi
      exact absurd hs (hf g hg)
    · exact (s.modFlight_find_other f.id i (fun x => { x with returned := true }) (fun _ => rfl) hi).trans hg

/-- An access whose parked lanes are given up is found in the place of those of its name. -/
theorem State.modFlight_unparked (hf : s.flight? fid = some f) : f.id = fid ∧
    s.modFlight fid (fun _ => f.unparked) = s.modFlight fid fun x => { f.unparked with id := x.id } := by
  have hid : f.id = fid := by simpa using List.find?_some hf
  refine ⟨hid, ?_⟩
  unfold State.modFlight
  congr 1
  refine List.map_congr_left fun x _ => ?_
  split
  next hx =>
    show f.unparked = { f.unparked with id := x.id }
    rw [hx, ← hid]
    rfl
  · rfl

theorem FlightsKept.abandonFlight (s : State) (fid : Nat) : FlightsKept s.flights (s.abandonFlight fid).flights := by
  unfold State.abandonFlight
  split
  · exact .refl _
  next f hf =>
    obtain ⟨hid, e⟩ := State.modFlight_unparked hf
    dsimp only
    have hfind : (s.modFlight fid fun _ => f.unparked).flight? fid = some f.unparked := by
      rw [e, s.modFlight_find fid (fun x => { f.unparked with id := x.id }) fun _ => rfl, hf]
      rfl
    have hkept : FlightsKept s.flights (s.modFlight fid fun _ => f.unparked).flights := by
      refine ⟨fun d hd hr => ?_, fun i g hg hs => ?_⟩
      · obtain ⟨x, hx, rfl⟩ := List.mem_map.1 hd
        split at hr
        next hn =>
          rw [if_pos hn]
          exact ⟨f, List.mem_of_find?_eq_some hf, hr, rfl⟩
        next hn => exact ⟨x, hx, hr, by rw [if_neg hn]⟩
      · by_cases hi : i = fid
        · subst hi
          obtain rfl := Option.some.inj (hf.symm.trans hg)
          obtain ⟨_, _, hu, _⟩ := hs
          exact hfind.trans (congrArg some hu)
        · rw [e]
          exact (s.modFlight_find_other fid i (fun x => { f.unparked with id := x.id }) (fun _ => rfl) hi).trans hg
    split
    next hp =>
      refine hkept.trans (.endFlight _ _ fun d hd hs => ?_)
      rw [show f.unparked.id = fid from hid, hfind] at hd
      obtain rfl := Option.some.inj hd
      exact absurd hp (by simp [hs.2.2.2])
    · exact hkept

/-- The splits keep their names and ancestors, and the accesses are kept. -/
def AccessesKept (s u : State) : Prop := u.teams.map Team.kin = s.teams.map Team.kin ∧ FlightsKept s.flights u.flights

theorem AccessesKept.refl (s : State) : AccessesKept s s := ⟨rfl, .refl _⟩
theorem AccessesKept.trans (h : AccessesKept s u) (h' : AccessesKept u v) : AccessesKept s v := ⟨h'.1.trans h.1, h.2.trans h'.2⟩

theorem AccessesKept.abandonFlight (s : State) (fid : Nat) : AccessesKept s (s.abandonFlight fid) := by
  refine ⟨?_, .abandonFlight s fid⟩
  unfold State.abandonFlight
  split
  · rfl
  · dsimp only
    split
    · unfold State.endFlight
      dsimp only
      split
      · rfl
      · exact State.modTeam_kin _ _ fun t => (Team.mark_kin ..).trans (Team.deliver_kin ..)
    · rfl

theorem AccessesKept.discardFence (s : State) (tid uid : Nat) : AccessesKept s (s.discardFence tid uid) := by
  unfold State.discardFence
  split
  · exact .refl s
  split
  · exact .refl s
  split
  · exact .refl s
  · extract_lets s₁ s₂
    have h₁ : AccessesKept s s₁ := ⟨rfl, .filter _ fun f hf => by simp [hf]⟩
    have h₂ : AccessesKept s s₂ := by
      unfold s₂
      split
      · exact h₁.trans (.abandonFlight ..)
      · exact h₁
    exact h₂.trans ⟨State.modTeam_kin _ _ fun t => t.modSplit_kin _ fun _ => rfl, .refl _⟩

theorem AccessesKept.conflict {sp : Space} {w : Agent} {c : Option Nat} (h : AccessesKept s u) :
    AccessesKept s (u.conflict sp line w c) :=
  foldl_holds _ (AccessesKept s) (fun _ _ h => h.trans (.discardFence ..)) _ _ h

end Sys2Proof.Machine
end

section
/-!
PROOFS. The obligation on L1 invalidations, fences, timeouts of monitors and maintenance.
-/
namespace Sys2Proof.Machine

variable {s u : State} {t : Team} {p : Split} {g : Group} {c : Core} {f : Flight} {r : LineReq} {core line tid uid : Nat}

/-! ### L1_INVALIDATION -/

/-- R100: a core that is forgotten has no presence bit. -/
theorem State.forgetCore_dirOf (s : State) (core line : Nat) : ((s.forgetCore core line).dirOf line).cores.getLsbD core = false := by
  unfold State.forgetCore
  dsimp only
  split
  next h =>
    rw [State.dirOf_setDir_same]
    have hbit : (BitVec.ofNat 16 (2 ^ core)).getLsbD core = decide (core < 16) := by
      rw [BitVec.getLsbD_ofNat, Nat.testBit_two_pow_self, Bool.and_true]
    rw [BitVec.getLsbD_and, BitVec.getLsbD_not, hbit, Bool.and_not_self, Bool.and_false]
  next h => simpa using h

theorem State.forgetCore_eq (s : State) (core line : Nat) : ∃ d, s.forgetCore core line = { s with dir := d } := by
  unfold State.forgetCore
  dsimp only
  split
  · exact ⟨_, rfl⟩
  · exact ⟨_, rfl⟩

@[simp] theorem State.forgetCore_core? (s : State) (core line k : Nat) : (s.forgetCore core line).core? k = s.core? k := by
  obtain ⟨d, e⟩ := s.forgetCore_eq core line
  rw [e]
  rfl

@[simp] theorem State.forgetCore_l1Invs (s : State) (core line : Nat) : (s.forgetCore core line).l1Invs = s.l1Invs := by
  obtain ⟨d, e⟩ := s.forgetCore_eq core line
  rw [e]

/-- R101: of a line that an invalidation drops, what an earlier class has left dirty stays in the L1. -/
theorem State.dropHcCopy_l1 (hc : (s.dropHcCopy core line).core? core = some c) : ∀ x ∈ c.l1, x.line = line → x.dirty ≠ 0 := by
  unfold State.dropHcCopy at hc
  rw [State.modCore_find, Option.map_eq_some_iff] at hc
  case hf => intro; rfl
  obtain ⟨k, -, rfl⟩ := hc
  intro x hx hl
  obtain ⟨y, hy, rfl⟩ := List.mem_map.1 hx
  have hkept := (List.mem_filter.1 hy).2
  split at hl
  next h => simpa [h] using hkept
  next h => exact absurd hl h

theorem l1Invalidation_takes (h : (core, line) ∈ s.l1Invs) : ∃ u, exec (.l1Invalidation ⟨core, line⟩) s = .next u ∧
    (core, line) ∉ u.l1Invs ∧ (u.dirOf line).cores.getLsbD core = false ∧
    ∀ c, u.core? core = some c → ∀ x ∈ c.l1, x.line = line → x.dirty ≠ 0 := by
  refine ⟨_, if_pos (List.contains_iff_mem.2 h), ?_, ?_, fun c hc => ?_⟩
  · rw [State.conflict_l1Invs]
    unfold State.dropHcCopy
    rw [State.modCore_l1Invs, State.forgetCore_l1Invs]
    simp
  · unfold State.dirOf
    rw [State.conflict_dir]
    exact State.forgetCore_dirOf ..
  · unfold State.core? at hc
    rw [State.conflict_cores] at hc
    exact State.dropHcCopy_l1 hc

/-! ### FENCE_COMPLETE -/

/-- R155: a split whose fence has been met speculates no more … -/
def Split.calmed (p : Split) : Split :=
  { p with restarts := 0, fence := p.fence.map fun f => { f with kind := if f.kind = 3 then 3 else 2, readSet := [] } }
/-- … and its fence ends. -/
def Split.unfenced (p : Split) : Split := { p with fence := none }

/-- R277: the end of a fence is an acquire, but of one that has been met before or has a trap to take. -/
def State.fenceMet (s : State) (tid uid : Nat) (e : FenceSt) : State :=
  if e.kind ≠ 2 ∧ e.trap = none then s.splitAcquires tid uid e.scope else s

theorem State.fenceMet_eq (s : State) (tid uid : Nat) (e : FenceSt) : ∃ l, s.fenceMet tid uid e = { s with flights := l } := by
  unfold State.fenceMet
  split
  · exact s.splitAcquires_eq ..
  · exact ⟨_, rfl⟩

theorem State.fenceMet_calmed (hp : s.splitOf tid uid = some p) (e : FenceSt) :
    ((s.fenceMet tid uid e).modSplit tid uid Split.calmed).splitOf tid uid = some p.calmed := by
  obtain ⟨l, hl⟩ := s.fenceMet_eq tid uid e
  rw [hl]
  exact State.splitOf_modSplit (fun _ => rfl) hp

section
variable {e : FenceSt} (hp : s.splitOf tid uid = some p) (he : p.fence = some e) (htrap : e.trap = none)
include hp he htrap

/-- R283: with no store held a fence that is ready ends. -/
theorem fenceComplete_eq (hready : s.fenceReady tid uid e.kind e.scope e.before = true)
    (hheld : ∀ x ∈ s.flights, x.team = tid → x.split = uid → x.held = false) :
    exec (.fenceComplete ⟨tid, uid⟩) s =
      .next (((s.fenceMet tid uid e).modSplit tid uid Split.calmed).modSplit tid uid Split.unfenced) := by
  have hnone : ((s.flights.filter fun f => decide (f.team = tid) && decide (f.split = uid)).filter fun f => f.held) = [] := by
    refine List.filter_eq_nil_iff.2 fun x hx => ?_
    obtain ⟨hx, hmine⟩ := List.mem_filter.1 hx
    simp only [Bool.and_eq_true, decide_eq_true_eq] at hmine
    simp [hheld x hx hmine.1 hmine.2]
  have hnotrap : (((s.fenceMet tid uid e).modSplit tid uid Split.calmed).splitOf tid uid).bind
      (fun p => p.fence.bind (·.trap)) = none := by
    rw [State.fenceMet_calmed hp]
    simp [Split.calmed, he, htrap]
  have hidle (l : List Flight) : l.any (fun _ => false) = false := by simp
  have hp' : (s.team? tid).bind (·.split? uid) = some p := hp
  show execFenceComplete ⟨tid, uid⟩ s = _
  unfold execFenceComplete
  simp only [hp', he, hready, hnone, List.map_nil, ne_eq, not_true_eq_false, decide_false, Bool.and_false, hidle, State.releaseAll,
    Bool.not_true, Bool.false_eq_true, if_false]
  split
  · rfl
  next h => cases hnotrap.symm.trans h

theorem fenceComplete_ends (hready : s.fenceReady tid uid e.kind e.scope e.before = true)
    (hheld : ∀ x ∈ s.flights, x.team = tid → x.split = uid → x.held = false) :
    ∃ u, exec (.fenceComplete ⟨tid, uid⟩) s = .next u ∧ u.splitOf tid uid = some { p with fence := none, restarts := 0 } ∧
      s.sameData u := by
  refine ⟨_, fenceComplete_eq hp he htrap hready hheld,
    State.splitOf_modSplit (f := Split.unfenced) (fun _ => rfl) (State.fenceMet_calmed hp e), ?_⟩
  obtain ⟨l, hl⟩ := s.fenceMet_eq tid uid e
  rw [hl]
  exact State.sameData_trans (State.sameData_of_eq rfl rfl rfl rfl)
    (State.sameData_trans (State.modSplit_sameData ..) (State.modSplit_sameData ..))

end

/-! ### WAITMON_TIMEOUT -/

theorem Team.split?_write (t : Team) (owner ew : Nat) (f : RFile) (r : Nat) (vals : List (Nat × Nat)) (uid : Nat) :
    (t.write owner ew f r vals).split? uid = t.split? uid := by
  have h : ((t.put f r vals).markWritten f r).split? uid = t.split? uid := by cases f <;> rfl
  unfold Team.write Team.writeOn
  split
  · rfl
  · dsimp only
    repeat' split
    all_goals exact h

/-- R153: a waiting WAITMON ends: its reason is written, and the split goes on. -/
theorem Team.wake_eq {w : MonWait} (hp : t.split? uid = some p) (hw : p.monWait = some w) (reason : Nat) :
    t.wake uid reason = (t.write uid 32 .g w.dst [(0, reason)]).modSplit uid fun q =>
      { q with monWait := none, mon := if reason = 2 then q.mon else .disarmed, st := .ready, pc := q.pc + 4 } := by
  unfold Team.wake
  rw [hp]
  dsimp only
  rw [hw]

theorem waitmonTimeout_wakes {d dl : Nat} (ht : s.team? tid = some t) (hp : t.split? uid = some p)
    (hw : p.monWait = some ⟨d, some dl, none⟩) (hdl : dl ≤ s.time) (hst : p.st = .monWait) (hres : t.residence = .resident)
    (hh : t.handler = none) (hdef : ∀ q ∈ t.deferred, q.uid ≠ uid) :
    ∃ u q, exec (.waitmonTimeout ⟨tid, uid⟩) s = .next u ∧ u.reg tid .g d 0 = 3 ∧ u.splitOf tid uid = some q ∧ q.st = .ready ∧
      q.pc = p.pc + 4 ∧ q.mon = .disarmed ∧ q.monWait = none := by
  have hthaw : t.thawed p.uid = true := by
    unfold Team.thawed
    rw [hh]
  have huid : p.uid = uid := Team.split?_uid hp
  have hall : t.deferred.all (fun q => decide (q.uid ≠ p.uid)) = true := by simpa [huid] using hdef
  have hid (x : Team) : (x.wake uid 3).id = x.id := congrArg TeamFace.id (x.wake_face ..)
  refine ⟨{ s.modTeam tid (fun t => t.wake uid 3) with
      monRegs := s.monRegs.filter fun r => !(decide (r.2.1 = tid) && decide (r.2.2.1 = uid)) },
    { p with monWait := none, mon := .disarmed, st := .ready, pc := p.pc + 4 }, ?_, ?_, ?_, rfl, rfl, rfl, rfl⟩
  · show execWaitmonTimeout ⟨tid, uid⟩ s = _
    unfold execWaitmonTimeout
    simp only [ht, hp, hw]
    exact if_pos ⟨hdl, hst, hres, hthaw, huid ▸ hall⟩
  · refine (State.reg_modTeam_at hid ht .g d 0).trans ?_
    rw [Team.wake_eq hp hw, Team.raw_modSplit]
    exact t.raw_writeOn_g ..
  · refine Option.bind_eq_some_iff.2 ⟨t.wake uid 3, (s.modTeam_find tid _ hid).trans (congrArg _ ht), ?_⟩
    rw [Team.wake_eq hp hw, Team.modSplit_find _ _ _ (by intro; rfl), Team.split?_write, hp]
    rfl

/-! ### CMAINT_COMPLETE -/

theorem dropLine_of_findLine {l : List CacheLine} (h : findLine l line = none) : dropLine l line = l := by
  refine List.filter_eq_self.2 fun x hx => ?_
  simpa using List.find?_eq_none.1 h x hx

/-- R103: a line leaves the L1 of one core. -/
theorem State.dropL1_core? (hc : s.core? core = some c) (line : Nat) :
    (s.dropL1 core line).core? core = some { c with l1 := dropLine c.l1 line } := by
  unfold State.dropL1
  split
  next h =>
    unfold State.l1Line at h
    rw [hc, Option.bind_some] at h
    rw [State.forgetCore_core?, hc, dropLine_of_findLine h]
  · unfold State.core?
    rw [State.conflict_cores]
    exact State.modCore_core (f := fun c => { c with l1 := dropLine c.l1 line }) core ((s.forgetCore_core? ..).trans hc) fun _ => rfl

/-- Some lines leave the L1 of one core, whatever they hold. -/
def State.dropAll (s : State) (core : Nat) (lines : List Nat) : State := lines.foldl (fun s l => s.dropL1 core l) s

/-- An invalidation cleans nothing and drops each line. -/
theorem State.maintL1_drop (s : State) (core : Nat) (lines : List Nat) :
    s.maintL1 core lines false true = (s.dropAll core lines, true) := by
  unfold State.maintL1 State.dropAll
  induction lines generalizing s with
  | nil => rfl
  | cons l ls ih => exact ih _

theorem State.dropAll_core? (lines : List Nat) (hc : s.core? core = some c) :
    ∃ c', (s.dropAll core lines).core? core = some c' ∧ ∀ x ∈ c'.l1, x ∈ c.l1 ∧ x.line ∉ lines := by
  induction lines generalizing s c with
  | nil => exact ⟨c, hc, fun x hx => ⟨hx, List.not_mem_nil⟩⟩
  | cons l ls ih =>
    obtain ⟨c', hc', hl⟩ := ih (State.dropL1_core? hc l)
    refine ⟨c', hc', fun x hx => ?_⟩
    obtain ⟨hx, hn⟩ := hl x hx
    obtain ⟨hx, hne⟩ := List.mem_filter.1 hx
    exact ⟨hx, by simpa [hn] using hne⟩

/-- R284: beside the directory and the core a line that leaves an L1 touches only what speculation it meets. -/
theorem State.dropL1_holds {P : State → Prop} (hm : ∀ d cs, P { s with dir := d, cores := cs })
    (hc : ∀ u, P u → P (u.conflict .glob line .device (some core))) : P (s.dropL1 core line) := by
  obtain ⟨d, e⟩ := s.forgetCore_eq core line
  unfold State.dropL1
  rw [e]
  split
  · exact hm d s.cores
  · exact hc _ (hm d _)

/-- Dropping lines keeps the accesses … -/
theorem AccessesKept.dropAll (s : State) (core : Nat) (lines : List Nat) : AccessesKept s (s.dropAll core lines) :=
  foldl_holds _ (AccessesKept s) (fun _ _ h => State.dropL1_holds (fun _ _ => h) fun _ h => h.conflict) _ _ (.refl s)

/-- … and every byte. -/
theorem SameFaces.dropAll (s : State) (core : Nat) (lines : List Nat) : SameFaces s (s.dropAll core lines) :=
  foldl_holds _ (SameFaces s) (fun _ _ h => State.dropL1_holds (fun _ _ => h) fun _ h => h.conflict) _ _ (.refl s)

theorem State.mayPerform_facts (h : s.mayPerform f r = true) :
    f.held = false ∧ (r.st = .ready ∨ r.st = .seen) ∧ ∀ e ∈ s.earlier f, e.blocks f r = false := by
  unfold State.mayPerform at h
  simp only [Bool.and_eq_true, decide_eq_true_eq] at h
  obtain ⟨⟨⟨⟨⟨⟨⟨hheld, hst⟩, -⟩, hes⟩, -⟩, -⟩, -⟩, -⟩ := h
  exact ⟨by simpa using hheld, hst, fun e he => by simpa using List.all_eq_true.1 hes e he⟩

/-- R274: no acquire is before what may be performed and is no load. -/
theorem Flight.acquires_of_not_blocks {e : Flight} (h : e.blocks f r = false) (hk : f.kind.isLoad = false) : e.acquires = false := by
  unfold Flight.blocks at h
  simp only [Bool.or_eq_false_iff, hk, Bool.false_and, Bool.not_false, Bool.and_true] at h
  exact h.1.2

/-- A maintenance that may be performed stands. -/
theorem Flight.stands_of_mayPerform (h : s.mayPerform f r = true) (hr : f.reqs = [r]) (hret : f.returned = false)
    (hk : f.kind ≠ .samp) : f.Stands := by
  obtain ⟨hheld, hst, -⟩ := State.mayPerform_facts h
  have hparked : r.st ≠ .parked := by rcases hst with e | e <;> rw [e] <;> decide
  have hdone : r.st ≠ .done := by rcases hst with e | e <;> rw [e] <;> decide
  refine ⟨hret, hheld, ?_, ?_⟩
  · have hreqs : (f.reqs.filter fun q => decide (q.st ≠ .parked)) = f.reqs := by rw [hr]; simp [hparked]
    unfold Flight.unparked
    dsimp only
    rw [if_neg hk, hreqs]
  · unfold Flight.performed
    rw [hr]
    simp [hdone]

/-- All requests of an access are performed. -/
def Flight.fulfilled (f : Flight) : Flight := { f with reqs := f.reqs.map fun r => { r with st := .done } }

theorem Flight.fulfilled_performed (f : Flight) : f.fulfilled.performed = true := by
  unfold Flight.performed Flight.fulfilled
  simp

/-- An access that ends is found under its name only as one that has returned. -/
theorem State.endFlight_returned {e : Flight} (he : e ∈ (s.endFlight f).flights) (hid : e.id = f.id) : e.returned = true := by
  rw [State.endFlight_flights] at he
  obtain ⟨x, -, rfl⟩ := List.mem_map.1 (mem_of_mem_popReturned he)
  split at hid
  next h => rw [if_pos h]
  next h => exact absurd hid h

/-- What is done to an access changes nothing that is before it. -/
theorem State.mem_earlier_of_modFlight {e : Flight} {h : Flight → Flight} (hid : ∀ x, (h x).id = x.id)
    (he : e ∈ (s.modFlight f.id h).earlier f) : e ∈ s.earlier f := by
  obtain ⟨hmem, hbefore⟩ := List.mem_filter.1 he
  obtain ⟨x, hx, rfl⟩ := List.mem_map.1 hmem
  split at hbefore
  next hf => simp [hid, hf] at hbefore
  next hf =>
    rw [if_neg hf]
    exact List.mem_filter.2 ⟨hx, hbefore⟩

/-- What is before an access after discarded speculation was before it. -/
theorem AccessesKept.earlier (h : AccessesKept s u) {e : Flight} (he : e ∈ u.earlier f) :
    ∃ d ∈ s.earlier f, d.order = e.order ∧ d.scope = e.scope := by
  unfold State.earlier at he
  simp only [List.mem_filter, Bool.and_eq_true, decide_eq_true_eq, Bool.not_eq_true'] at he
  obtain ⟨hmem, ⟨hof, hlt⟩, hret⟩ := he
  obtain ⟨d, hd, hdr, hkey⟩ := h.2.pending e hmem hret
  simp only [Flight.key, Prod.mk.injEq] at hkey
  obtain ⟨hid, hteam, hsplit, horder, hscope⟩ := hkey
  refine ⟨d, List.mem_filter.2 ⟨hd, ?_⟩, horder, hscope⟩
  rw [State.ofSplit_congr h.1 _ _ hteam hsplit] at hof
  simp [hof, hid, hlt, hdr]

/-- A maintenance that could be performed returns, whatever speculation its work discards. -/
theorem State.returnFlight_fulfilled (hf : s.flight? f.id = some f) (h : AccessesKept s u) (hm : s.mayPerform f r = true)
    (hr : f.reqs = [r]) (hret : f.returned = false) (hk : f.kind.isLoad = false) :
    (u.modFlight f.id Flight.fulfilled).returnFlight f.id = (u.modFlight f.id Flight.fulfilled).endFlight f.fulfilled := by
  have hfind : (u.modFlight f.id Flight.fulfilled).flight? f.id = some f.fulfilled := by
    have hstands : f.Stands := Flight.stands_of_mayPerform hm hr hret fun e => by simp [e, AccKind.isLoad] at hk
    rw [State.modFlight_find _ _ Flight.fulfilled fun _ => rfl]
    exact congrArg (Option.map Flight.fulfilled) (h.2.stands f.id f hf hstands)
  have hplain : ((u.modFlight f.id Flight.fulfilled).earlier f.fulfilled).any (fun e => e.acquires && !e.performed) = false := by
    refine List.any_eq_false.2 fun e he => ?_
    have he' : e ∈ u.earlier f := State.mem_earlier_of_modFlight (h := Flight.fulfilled) (fun _ => rfl) he
    obtain ⟨d, hd, ho, hs⟩ := h.earlier he'
    have hd' := Flight.acquires_of_not_blocks ((State.mayPerform_facts hm).2.2 d hd) hk
    unfold Flight.acquires at hd'
    rw [ho, hs] at hd'
    unfold Flight.acquires
    rw [hd', Bool.false_and]
    exact Bool.false_ne_true
  unfold State.returnFlight
  rw [hfind]
  dsimp only
  rw [if_neg]
  rw [hplain, f.fulfilled_performed]
  simp [Flight.fulfilled, hret]

/-- R105: an invalidation up to device scope that may be performed is the drop of its lines, and returns. -/
theorem cmaintComplete_eq {extent scope : Nat} (hf : s.flight? f.id = some f) (hk : f.kind = .cmaint 1 extent scope)
    (hr : f.reqs = [r]) (hm : s.mayPerform f r = true) (hret : f.returned = false) (he : extent ≤ 1) (hs : scope ≤ 5) :
    exec (.cmaintComplete ⟨f.id⟩) s =
      .next (((s.dropAll f.core f.zero).modFlight f.id Flight.fulfilled).endFlight f.fulfilled) := by
  rw [← State.returnFlight_fulfilled hf (.dropAll s f.core f.zero) hm hr hret (by rw [hk]; rfl)]
  show execCmaintComplete ⟨f.id⟩ s = _
  unfold execCmaintComplete
  simp only [hf, hk, hr, hm, show extent ≠ 2 by omega, show ¬ 6 ≤ scope by omega]
  simp only [ne_eq, not_true_eq_false, decide_false, one_ne_zero, not_false_eq_true, decide_true, if_false, State.maintL1_drop]
  rfl

theorem cmaintComplete_drops {extent scope : Nat} (hf : s.flight? f.id = some f) (hk : f.kind = .cmaint 1 extent scope)
    (hr : f.reqs = [r]) (hm : s.mayPerform f r = true) (hret : f.returned = false) (he : extent ≤ 1) (hs : scope ≤ 5)
    (hc : s.core? f.core = some c) :
    ∃ u c', exec (.cmaintComplete ⟨f.id⟩) s = .next u ∧ u.core? f.core = some c' ∧ (∀ x ∈ c'.l1, x.line ∉ f.zero) ∧
      (∀ e ∈ u.flights, e.id = f.id → e.returned = true) ∧ ∀ sp x, u.rdByte sp x = s.rdByte sp x := by
  obtain ⟨c', hc', hl⟩ := State.dropAll_core? f.zero hc
  have hsame : SameFaces s ((s.dropAll f.core f.zero).modFlight f.id Flight.fulfilled) := SameFaces.dropAll ..
  refine ⟨_, c', cmaintComplete_eq hf hk hr hm hret he hs, ?_, fun x hx => (hl x hx).2,
    fun e he hid => State.endFlight_returned he hid, (hsame.endFlight _).rdByte⟩
  unfold State.core?
  rw [State.endFlight_cores]
  exact hc'

/-! ### ICINV_COMPLETE -/

/-- R106: a range of code leaves an instruction cache. -/
def Core.dropCode (asid lo hi : Nat) (c : Core) : Core :=
  { c with icache := c.icache.filter fun l => !(decide (l.asid = asid) && decide (lo ≤ l.line * 64) && decide (l.line * 64 < hi)) }

/-- R106: a range of code leaves a loop buffer. -/
def Team.dropLoop (asid lo hi : Nat) (t : Team) : Team :=
  { t with loop := t.loop.filter fun l =>
      !(decide (l.asid = asid) && decide (lo < l.va + (if l.w1.isSome then 8 else 4)) && decide (l.va < hi)) }

theorem Core.dropCode_icache {asid lo hi : Nat} {x : ILine} (hx : x ∈ (c.dropCode asid lo hi).icache) (ha : x.asid = asid) :
    x.line * 64 < lo ∨ hi ≤ x.line * 64 := by
  have h := (List.mem_filter.1 hx).2
  simp only [ha, decide_true, Bool.true_and, Bool.not_eq_true', Bool.and_eq_false_iff, decide_eq_false_iff_not] at h
  omega

theorem Team.dropLoop_loop {asid lo hi : Nat} {x : LoopEnt} (hx : x ∈ (t.dropLoop asid lo hi).loop) (ha : x.asid = asid) :
    x.va + (if x.w1.isSome then 8 else 4) ≤ lo ∨ hi ≤ x.va := by
  have h := (List.mem_filter.1 hx).2
  simp only [ha, decide_true, Bool.true_and, Bool.not_eq_true', Bool.and_eq_false_iff, decide_eq_false_iff_not] at h
  omega

theorem icinvComplete_drops {lo hi : Nat} (ht : s.team? tid = some t) (hp : t.split? uid = some p) (hg : s.group? t.group = some g)
    (hicinv : p.icinv = some (lo, hi)) :
    ∃ u, exec (.icinvComplete ⟨tid, uid⟩) s = .next u ∧ u.splitOf tid uid = some { p with icinv := none } ∧
      (∀ c ∈ u.cores, ∀ x ∈ c.icache, x.asid = g.asid → x.line * 64 < lo ∨ hi ≤ x.line * 64) ∧
      (∀ y ∈ u.teams, ∀ x ∈ y.loop, x.asid = g.asid → x.va + (if x.w1.isSome then 8 else 4) ≤ lo ∨ hi ≤ x.va) ∧ s.sameData u := by
  have hid : t.id = tid := by simpa using List.find?_some ht
  have huid : p.uid = uid := Team.split?_uid hp
  refine ⟨State.modSplit { s with cores := s.cores.map (Core.dropCode g.asid lo hi), teams := s.teams.map (Team.dropLoop g.asid lo hi) }
    tid uid fun q => { q with icinv := none }, ?_, ?_, ?_, ?_, ?_⟩
  · show execIcinvComplete ⟨tid, uid⟩ s = _
    unfold execIcinvComplete
    simp only [ht, hp, hg, hicinv, hid, huid]
    rfl
  · refine State.splitOf_modSplit (f := fun q => { q with icinv := none }) (fun _ => rfl) ?_
    refine Option.bind_eq_some_iff.2 ⟨_, (find_map_team s.teams (Team.dropLoop g.asid lo hi) (fun _ => rfl) tid).trans
      (congrArg (Option.map _) ht), hp⟩
  · intro c hc
    obtain ⟨k, -, rfl⟩ := List.mem_map.1 hc
    exact fun x hx => Core.dropCode_icache hx
  · intro y hy
    obtain ⟨z, hz, rfl⟩ := List.mem_map.1 hy
    obtain ⟨k, -, rfl⟩ := List.mem_map.1 hz
    intro x hx
    split at hx
    · exact Team.dropLoop_loop hx
    · exact Team.dropLoop_loop hx
  · refine State.sameData_trans ?_ (State.modSplit_sameData ..)
    refine State.sameData_of_teams (f := Team.dropLoop g.asid lo hi) rfl (fun _ => rfl) (fun _ => rfl) ?_ rfl rfl rfl
    intro _ x _ _
    cases x <;> rfl

/-- Settles O39: each clause is one of the events above. -/
theorem fencesMonitorsMaintenanceComplete : Obligations.FencesMonitorsMaintenanceComplete := by
  intro s
  refine ⟨fun core line => l1Invalidation_takes, fun core line h => if_neg fun hc => h (List.contains_iff_mem.1 hc),
    fun tid uid p f => fenceComplete_ends, fun tid t uid p d dl => waitmonTimeout_wakes,
    fun f r c extent scope hf hk hr hm hret he hs hc _ => cmaintComplete_drops hf hk hr hm hret he hs hc,
    fun tid t uid p g lo hi => icinvComplete_drops⟩

end Sys2Proof.Machine
end

section
/-!
PROOFS. What an instruction that goes on or waits leaves of its group and of its split (R294), and the acceptance of commands by the
engines (R116, R122).
-/
namespace Sys2Proof.Machine

variable {s v : State} {t : Team} {p : Split} {g : Group} {i : Instr} {c : Ctx} {k tid : Nat} {op fn : Nat}

/-! ### The issuing group -/

theorem State.group?_id (h : s.group? k = some g) : g.id = k := by
  simpa using List.find?_some h

/-- The group of the instruction that issues is found by its own name. -/
theorem group_of_ready (hr : Ready i s t p g) : s.group? g.id = some g := by
  obtain ⟨⟨-, -, -, hg, -⟩, -⟩ := hr
  rw [State.group?_id hg]
  exact hg

@[simp] theorem issueState_group? (i : Instr) (s : State) (t : Team) (p : Split) (k : Nat) :
    (issueState i s t p).group? k = s.group? k := rfl

/-! ### Operand fields of format E (R37) -/

/-- R24: where the first or the second operand of format E must be in g, it is. -/
theorem gD_of_readyE {o : FE} (hr : Ready i s t p g) (hw : i.word = encFE op fn o) (hk : (shape i p.modeEtype).d.kind = .g) :
    192 ≤ o.d.toNat :=
  gD_of_ready (o := ⟨o.m, o.d, o.a, o.gs ++ BitVec.ofNat 4 fn⟩) hr hw hk

/-! ### Frames -/

/-- An effect on a group beside an effect on the issuing team. -/
theorem Frame.modGroup {dest : List (RFile × Nat)} {eff : Team → Team} (hf : Frame s v tid dest eff) (k : Nat) {f : Group → Group}
    (hi : ∀ x, (f x).id = x.id) (hw : ∀ x, (f x).win = x.win) : Frame (s.modGroup k f) (v.modGroup k f) tid dest eff := by
  obtain ⟨hb, hreg, hst⟩ := hf
  refine ⟨fun sp a => ?_, hreg, congrArg (fun u : State => u.modGroup k f) hst⟩
  rw [State.rdByte_modGroup _ _ _ hi hw, State.rdByte_modGroup _ _ _ hi hw, hb]

/-- An instruction that completes with nothing beside its frame. -/
theorem frame_completes {dest : List (RFile × Nat)} {s₀ : State} (hf : Frame s₀ v t.id dest fun y => y) :
    Frame s₀ (finish s (issueCtx i s t p g) (.done v)) t.id dest (issueCtx i s t p g).passes :=
  Frame.done (s := s₀) (issueCtx_tid ..) (fun _ => rfl) hf

/-- R294: a split waits at an instruction with the values it has read. -/
def Split.waits (i : Instr) (vals : List Nat) (q : Split) : Split := { q with st := .blocked, busy := some (i, vals) }

/-- R294: an instruction that waits. -/
theorem blocks_of_blocked {vals : List Nat}
    (he : exec i s = .next (finish s (issueCtx i s t p g) ((issueCtx i s t p g).blocked (issueState i s t p) vals))) :
    Blocks i s (finish s (issueCtx i s t p g) ((issueCtx i s t p g).blocked (issueState i s t p) vals)) t p vals := by
  refine ⟨he, ?_⟩
  have hc : (issueCtx i s t p g).tid = t.id := issueCtx_tid ..
  rw [Ctx.blocked, finish_hold, hc]
  refine ⟨fun sp a => ?_, fun id f r l _ => ?_, ?_⟩
  · rw [State.modSplit_rdByte, State.account_rdByte, State.block, State.modSplit_rdByte, issueState_rdByte]
  · rw [State.modSplit_reg, State.account_reg, State.block, State.modSplit_reg, issueState_reg]
  · have hblock : ∀ q : Split, (q.waits i vals).still = q.still.waits i vals := fun _ => rfl
    have hwait : (issueState i s t p).block t.id p.uid i vals = (issueState i s t p).modSplit t.id p.uid (Split.waits i vals) := rfl
    rw [State.modSplit, State.still_modTeam_same _ _ fun x => ?_, State.still_account, issueCtx_uid,
      show (issueCtx i s t p g).i = i from rfl, hwait, State.still_modSplit _ _ _ hblock, issueState_still]
    · exact (s.still_modSplit _ _ hblock).symm
    · exact (x.still_modSplit _ (f' := fun q => q) (by intro; rfl)).trans (Team.modSplit_self ..)

/-! ### Acceptance (R116, R122) -/

/-- The command that an engine context accepts. -/
def Ctx.command (c : Ctx) (s : State) (n : Nat) : EngCmd :=
  { n := n, op := .copy, team := c.tid, tword := BitVec.ofNat 32 c.team.teamReg, core := c.core, block := [], before := s.nextId }

/-- A context that a command joins, as the last one accepted. -/
def EngCtx.join (cmd : EngCmd) (x : EngCtx) : EngCtx := { x with accepted := cmd.n, cmds := x.cmds ++ [cmd] }

variable {sel : Nat} {d : Byte} {mk : EngCmd → EngCmd}

theorem acceptCmd_room (hg : s.group? c.grp.id = some g) (hn : ∀ x, (mk x).n = x.n) (hroom : (g.eng sel).accepted - (g.eng sel).c < 32) :
    acceptCmd s c sel d mk =
      .done ((s.modEng c.grp.id sel (EngCtx.join (mk (c.command s ((g.eng sel).accepted + 1))))).wrG c d
        [((g.eng sel).accepted + 1) % 2 ^ 32, ((g.eng sel).accepted + 1) / 2 ^ 32]) := by
  have hj : EngCtx.join (mk (c.command s ((g.eng sel).accepted + 1))) = fun x =>
      { x with accepted := (g.eng sel).accepted + 1, cmds := x.cmds ++ [mk (c.command s ((g.eng sel).accepted + 1))] } :=
    funext fun x => by rw [EngCtx.join, hn]; rfl
  unfold acceptCmd
  rw [hg, hj]
  exact if_neg (by omega)

theorem acceptCmd_full (hg : s.group? c.grp.id = some g) (hfull : 32 ≤ (g.eng sel).accepted - (g.eng sel).c) :
    acceptCmd s c sel d mk = c.blocked s [] := by
  unfold acceptCmd
  rw [hg]
  exact if_pos hfull

/-- What an instruction that completes has left in g registers. -/
theorem finish_done_wrG (s : State) {t' : Team} {x : Byte} {vals : List Nat} (hv : v.team? t.id = some t') (hc : c.tid = t.id) (hx : 192 ≤ x.toNat)
    (hk : k < vals.length) : (finish s c (.done (v.wrG c x vals))).field t.id (x.toNat + k) 0 = vals[k] % 2 ^ 32 := by
  rw [finish_done_field]
  exact State.field_wrG hc hv hx hk 0

/-- R116, R122: an instruction that gives its engine a command. -/
theorem accepts_of_acceptCmd {room : State → Ctx → Prop} {what : Ctx → EngCmd → Prop} {mk : Ctx → EngCmd → EngCmd}
    (he : ∀ s, exec i s = issue i s fun s c => acceptCmd s c sel d (mk c)) (hd : ∀ s t p g, Ready i s t p g → 192 ≤ d.toNat)
    (hmk : ∀ c x, (mk c x).n = x.n ∧ (mk c x).st = x.st ∧ (mk c x).team = x.team ∧ (mk c x).before = x.before)
    (hwhat : ∀ c x, what c (mk c x)) : Accepts i sel d room what := by
  intro s t p g hr c n _ hroom
  have hc : c.tid = t.id := issueCtx_tid ..
  have hteam : ((issueState i s t p).modEng g.id sel (EngCtx.join (mk c (c.command (issueState i s t p) n)))).team? t.id =
      some (t.begins i p.uid) := team_of_ready hr
  have hg : (issueState i s t p).group? c.grp.id = some g := (group_of_ready hr :)
  obtain ⟨hn, hst, hxt, hb⟩ := hmk c (c.command (issueState i s t p) n)
  have hframe := (frame_issueState i s t p).modGroup g.id
    (f := fun h => h.modEng sel (EngCtx.join (mk c (c.command (issueState i s t p) n)))) (fun _ => rfl) fun _ => rfl
  have hjoin : EngCtx.join (mk c (c.command (issueState i s t p) n)) = fun e : EngCtx =>
      { e with accepted := n, cmds := e.cmds ++ [mk c (c.command (issueState i s t p) n)] } :=
    funext fun x => by rw [EngCtx.join, hn]; rfl
  refine ⟨_, mk c (c.command (issueState i s t p) n), exec_completes hr (he s) (acceptCmd_room hg (fun x => (hmk c x).1) hroom), hn, hst, hxt.trans hc, hb, hwhat c _, ?_, ?_, ?_⟩
  · exact (finish_done_wrG s (k := 0) hteam hc (hd s t p g hr) (by simp)).trans (Nat.mod_mod ..)
  · exact finish_done_wrG s (k := 1) hteam hc (hd s t p g hr) (by simp)
  · rw [← hjoin]
    exact frame_completes (Frame.wrG hc (hd s t p g hr) hframe)

/-- R122: an instruction whose engine has no room for its command. -/
theorem blocks_of_acceptCmd {mk : Ctx → EngCmd → EngCmd} (he : ∀ s, exec i s = issue i s fun s c => acceptCmd s c sel d (mk c))
    (hr : Ready i s t p g) (hfull : 32 ≤ (g.eng sel).accepted - (g.eng sel).c) : ∃ u, Blocks i s u t p [] := by
  refine ⟨_, blocks_of_blocked (g := g) ?_⟩
  rw [he s, issue_ready i s t p g _ hr, acceptCmd_full (g := g) (group_of_ready hr) hfull]

/-! ### The words of a block -/

theorem bw_block {n : Nat} (a : Byte) (hk : k < n) : bw (c.block a n) k = c.gAt a k % 2 ^ 32 := by
  simp [bw, Ctx.block, hk]

/-- R117: the records of a block that lies in global memory. -/
theorem mem_blockRecs {n : Nat} {a : Byte} (hk : k = 0 ∨ k = 2) (hn : k < n) (hl : c.gAt a k % 2 ^ 32 / 2 ^ 29 = 0) :
    (k, BitVec.ofNat 128 (c.rd .b (c.gAt a k % 2 ^ 32 / 2 ^ 24 % 32) 0)) ∈ c.blockRecs (c.block a n) := by
  refine List.mem_filterMap.2 ⟨k, by simpa using hk, ?_⟩
  rw [lvlOf, bw_block a hn, if_pos hl]

end Sys2Proof.Machine
end

section
/-!
PROOFS. The obligation on the acceptance of COPY to COLL and RAST.
-/
namespace Sys2Proof.Machine

/-- R117, R118: a copy command has its block and the records that its words name. -/
def Ctx.copyCommand (c : Ctx) (o : FE) (op : CmdOp) (x : EngCmd) : EngCmd :=
  let b := c.block o.a 8
  let y (k : Nat) : List Nat := if lvlOf (bw b k) = 2 then [bw b (k + 1) / 2 ^ 24 % 8] else []
  { x with op := op, block := b, recs := c.blockRecs b, gs := o.gs.toNat, bar := b.getD 7 0
           yard := (y 0 ++ y 2 ++ yardTargets ([bw b 7] ++ if op = .gather ∨ op = .scatter then [bw b 5] else [])).eraseDups }

theorem acceptCopy_eq (s : State) (c : Ctx) (o : FE) (op : CmdOp) :
    acceptCopy s c o op = acceptCmd s c 0 o.d (c.copyCommand o op) := rfl

theorem accepts_of_acceptCopy {i : Instr} {o : FE} {op : CmdOp} (he : ∀ s, exec i s = issue i s fun s c => acceptCopy s c o op)
    (hd : ∀ s t p g, Ready i s t p g → 192 ≤ o.d.toNat) : Accepts i 0 o.d (fun _ _ => True) fun c x =>
      (x.op = op ∧ x.block = (List.range 8).map (fun k => BitVec.ofNat 32 (c.gAt o.a k)) ∧ x.gs = o.gs.toNat ∧
        x.bar = BitVec.ofNat 32 (c.gAt o.a 7)) ∧
      ∀ k, (k = 0 ∨ k = 2) → c.gAt o.a k % 2 ^ 32 / 2 ^ 29 = 0 →
        (k, BitVec.ofNat 128 (c.rd .b (c.gAt o.a k % 2 ^ 32 / 2 ^ 24 % 32) 0)) ∈ x.recs :=
  accepts_of_acceptCmd (mk := fun c => c.copyCommand o op) he hd (fun _ _ => ⟨rfl, rfl, rfl, rfl⟩) fun _ _ =>
    ⟨⟨rfl, rfl, rfl, rfl⟩, fun _ hk hl => mem_blockRecs hk (by omega) hl⟩

/-- R119, R265: the commands of COLL and RAST. -/
def Ctx.collCommand (c : Ctx) (o : FE) (x : EngCmd) : EngCmd :=
  let b := c.block o.a 8
  { x with op := .coll, block := b, gs := o.gs.toNat, bar := b.getD 7 0
           yard := (bitsBelow (b.getD 1 0) 8 ++ yardTargets [bw b 7]).eraseDups }
def Ctx.rastCommand (c : Ctx) (o : FE) (x : EngCmd) : EngCmd :=
  let b := c.block o.a 8
  { x with op := .rast, block := b, recs := c.opRecs b [1, 3], gs := o.gs.toNat, bar := b.getD 7 0
           yard := yardTargets [bw b 1, bw b 3, bw b 7] }

/-- Settles O30: each of the six instructions hands its engine one command, made from its block. -/
theorem copyCommandsAccepted : Obligations.CopyCommandsAccepted := by
  intro o keeps recs any
  refine ⟨?_, ?_, ?_, ?_, ?_, ?_, fun s t p g hr hfull => ?_⟩
  · exact accepts_of_acceptCopy (fun _ => rfl) fun s t p g hr => gD_of_readyE (fn := 0) hr rfl rfl
  · exact accepts_of_acceptCopy (fun _ => rfl) fun s t p g hr => gD_of_readyE (fn := 1) hr rfl rfl
  · exact accepts_of_acceptCopy (fun _ => rfl) fun s t p g hr => gD_of_readyE (fn := 2) hr rfl rfl
  · exact accepts_of_acceptCopy (fun _ => rfl) fun s t p g hr => gD_of_readyE (fn := 3) hr rfl rfl
  · exact accepts_of_acceptCmd (mk := fun c => c.collCommand o) (fun _ => rfl) (fun s t p g hr => gD_of_readyE (fn := 4) hr rfl rfl)
      (fun _ _ => ⟨rfl, rfl, rfl, rfl⟩) fun _ _ => ⟨rfl, rfl, rfl, rfl⟩
  · exact accepts_of_acceptCmd (mk := fun c => c.rastCommand o) (fun _ => rfl) (fun s t p g hr => gD_of_readyE (fn := 6) hr rfl rfl)
      (fun _ _ => ⟨rfl, rfl, rfl, rfl⟩) fun _ _ => ⟨rfl, rfl, rfl, rfl⟩
  · exact blocks_of_acceptCmd (mk := fun c => c.copyCommand o .copy) (fun _ => rfl) hr hfull

end Sys2Proof.Machine
end

section
/-!
PROOFS. The obligation on WAITP, WAITT, TLGET, RPOLL, GRES and QRES.
-/
namespace Sys2Proof.Machine

variable {s v : State} {t : Team} {p : Split} {g h : Group} {i : Instr} {c : Ctx} {k tid uid sel mode scope : Nat} {o : FE}

/-! ### Waiting on a path (R126) -/

@[simp] theorem Team.settlePath_id (t : Team) (uid path : Nat) (ids : List Nat) : (t.settlePath uid path ids).id = t.id := by
  unfold Team.settlePath; split <;> rfl
@[simp] theorem Team.settlePath_priv (t : Team) (uid path : Nat) (ids : List Nat) : (t.settlePath uid path ids).priv = t.priv := by
  unfold Team.settlePath; split <;> rfl
@[simp] theorem Team.settlePath_still (t : Team) (uid path : Nat) (ids : List Nat) : (t.settlePath uid path ids).still = t.still := by
  unfold Team.settlePath; split <;> rfl
@[simp] theorem Team.settlePath_raw (t : Team) (uid path : Nat) (ids : List Nat) (f : RFile) (r l : Nat) :
    (t.settlePath uid path ids).raw f r l = t.raw f r l := by
  unfold Team.settlePath
  split
  · rfl
  · cases f <;> rfl

/-- What only orders reads behind writes is seen by no frame. -/
theorem Frame.settlePath {dest : List (RFile × Nat)} {eff : Team → Team} (hf : Frame s v tid [] eff) (uid path : Nat) (ids : List Nat) :
    Frame s (v.modTeam tid fun t => t.settlePath uid path ids) tid dest eff :=
  hf.modTeam (fun y => y.settlePath_id ..) (fun y => y.settlePath_priv ..) (fun y => y.settlePath_still ..) fun y _ _ _ _ =>
    y.settlePath_raw ..

/-! ### What a split hears of (R275) -/

theorem Team.begins_place (t : Team) (i : Instr) (uid : Nat) : (t.begins i uid).core = t.core ∧ (t.begins i uid).group = t.group := by
  obtain ⟨l, e⟩ := t.begins_eq i uid
  rw [e]
  exact ⟨rfl, rfl⟩

/-- An acquire of the issuing split hears in the issuing state what it hears in the state before. -/
theorem issueState_splitAcquires (i : Instr) (p : Split) (ht : s.team? t.id = some t) (scope : Nat) :
    (issueState i s t p).splitAcquires t.id p.uid scope =
      { issueState i s t p with flights := (s.splitAcquires t.id p.uid scope).flights } := by
  obtain ⟨hcore, hgroup⟩ := t.begins_place i p.uid
  unfold State.splitAcquires
  rw [issueState_team i p ht, ht]
  dsimp only
  rw [hcore, hgroup]
  unfold State.acquired
  have hfl : (issueState i s t p).flights = s.flights := rfl
  rw [hfl]
  by_cases hq : scope = 0 ∨ (s.flights.all fun f => f.reqs.all fun r => decide (r.heard = [])) = true
  · rw [if_pos hq, if_pos hq]
    rfl
  · rw [if_neg hq, if_neg hq]
    rfl

theorem frame_splitAcquires (i : Instr) (p : Split) (ht : s.team? t.id = some t) (scope : Nat) :
    Frame (s.splitAcquires t.id p.uid scope) ((issueState i s t p).splitAcquires t.id p.uid scope) t.id [] fun y => y := by
  obtain ⟨l, e⟩ := s.splitAcquires_eq t.id p.uid scope
  obtain ⟨hb, hreg, hst⟩ := frame_issueState i s t p
  rw [issueState_splitAcquires i p ht, e]
  refine ⟨fun sp a => ?_, hreg, congrArg (fun u : State => { u with flights := l }) hst⟩
  have hs : ({ s with flights := l } : State).rdByte sp a = s.rdByte sp a := by cases sp <;> rfl
  rw [hs, ← hb sp a]
  cases sp <;> rfl

/-! ### Timelines (R123) -/

/-- A ready instruction ends as its own effect says, however it ends. -/
theorem exec_issues {body : State → Ctx → Res} {r : Res} (hr : Ready i s t p g) (he : exec i s = issue i s body)
    (hb : body (issueState i s t p) (issueCtx i s t p g) = r) : exec i s = .next (finish s (issueCtx i s t p g) r) := by
  rw [he, issue_ready i s t p g body hr, hb]

theorem waitTimeline_eq {n : Nat} (hg : s.group? c.grp.id = some g) : waitTimeline s c sel n =
    if (g.eng sel).accepted < n then .trap s (192 + 8 * selEngine sel + 7) (engDetail sel) c.act false
    else if n ≤ (g.eng sel).c then .done (s.splitAcquires c.tid c.uid 5)
    else match (g.eng sel).halted with
      | some code => .trap s code (engDetail sel) c.act false
      | none => c.blocked s [sel, n] := by
  unfold waitTimeline
  generalize s.group? c.grp.id = q at hg
  subst hg
  rfl

/-- R123: what TLGET shows of the commands that are held. -/
def Group.heldWord (g : Group) (x : EngCtx) : Nat :=
  match x.cmds.find? fun q => decide (q.st = .queued) with
  | some q => if g.ruling q = .pending then q.gs * 16 + 2 else 0
  | none => 0

theorem Group.heldWord_even (g : Group) (x : EngCtx) : g.heldWord x % 2 = 0 := by
  unfold Group.heldWord
  split
  · split <;> omega
  · rfl

theorem tlget_spec (hr : Ready (.tlget o) s t p g) : let c := issueCtx (.tlget o) s t p g
    let x := g.eng o.a.toNat
    ∃ u, exec (.tlget o) s = .next u ∧ u.field t.id o.d.toNat 0 = x.c % 2 ^ 32 ∧
      u.field t.id (o.d.toNat + 1) 0 = x.c / 2 ^ 32 % 2 ^ 32 ∧ u.field t.id (o.d.toNat + 2) 0 = (x.accepted - x.c) % 2 ^ 32 ∧
      (u.field t.id (o.d.toNat + 3) 0 % 2 = 1 ↔ x.halted ≠ none) ∧ Frame s u t.id (fieldRegs o.d.toNat 4) c.passes := by
  intro c x
  have hg : (issueState (.tlget o) s t p).group? c.grp.id = some g := (group_of_ready hr :)
  have hx : 192 ≤ o.d.toNat := gD_of_readyE (fn := 7) hr rfl rfl
  have hfield : ∀ (vals : List Nat) (k : Nat) (hk : k < vals.length),
      (finish s c (.done ((issueState (.tlget o) s t p).wrG c o.d vals))).field t.id (o.d.toNat + k) 0 = vals[k] % 2 ^ 32 :=
    fun vals k hk => finish_done_wrG s (team_of_ready hr) (issueCtx_tid ..) hx hk
  refine ⟨_, exec_completes hr rfl (v := (issueState (.tlget o) s t p).wrG c o.d
    [x.c % 2 ^ 32, x.c / 2 ^ 32, x.accepted - x.c, g.heldWord x + if x.halted.isSome then 1 else 0]) ?_, ?_, ?_, ?_, ?_, ?_⟩
  · dsimp only
    rw [hg]
    rfl
  · exact (hfield _ 0 (by simp)).trans (Nat.mod_mod ..)
  · exact hfield _ 1 (by simp)
  · exact hfield _ 2 (by simp)
  · have heven := g.heldWord_even x
    rw [hfield _ 3 (by simp)]
    cases hh : x.halted with
    | none => simp; omega
    | some k => simp; omega
  · exact frame_completes (Frame.wrG (issueCtx_tid ..) hx (frame_issueState ..))

/-! ### RPOLL, GRES (R124, R255) -/

theorem rpoll_spec (hr : Ready (.rpoll o) s t p g) : let c := issueCtx (.rpoll o) s t p g
    ∃ u, exec (.rpoll o) s = .next u ∧ u.field t.id o.d.toNat 0 = (g.rayEnded * 65536 + g.rayCount % 65536) % 2 ^ 32 ∧
      Frame (s.modGroup g.id fun h => { h with rayEnded := 0 }) u t.id [fieldReg o.d.toNat] c.passes := by
  intro c
  have hg : (issueState (.rpoll o) s t p).myGroup c = g := by
    unfold State.myGroup
    rw [show (issueState (.rpoll o) s t p).group? c.grp.id = some g from (group_of_ready hr :)]
    rfl
  have hx : 192 ≤ o.d.toNat := gD_of_readyE (fn := 2) hr rfl rfl
  have hteam : ((issueState (.rpoll o) s t p).modGroup g.id fun g => { g with rayEnded := 0 }).team? t.id = some (t.begins (.rpoll o) p.uid) :=
    team_of_ready hr
  have he : exec (.rpoll o) s = .next (finish s c (.done (((issueState (.rpoll o) s t p).modGroup g.id fun g =>
      { g with rayEnded := 0 }).wrG c o.d [g.rayEnded * 65536 + g.rayCount % 65536]))) :=
    exec_completes hr rfl (by dsimp only; rw [hg]; rfl)
  refine ⟨_, he, ?_, ?_⟩
  · exact finish_done_wrG s (k := 0) hteam (issueCtx_tid ..) hx (by simp)
  · exact frame_completes (Frame.wrG (vals := [_]) (issueCtx_tid ..) hx ((frame_issueState ..).modGroup g.id (fun _ => rfl) fun _ => rfl))

theorem guardValue_eq (x : Nat) : guardValue x = if x % 4 = 0 then .no else if x % 4 = 1 then .yes else .pending := by
  unfold guardValue
  split
  next h => rw [if_pos h]
  next h => rw [h]; rfl
  next h0 h1 => rw [if_neg h0, if_neg h1]

/-! ### QRES (R132) -/

/-- A group without the bytes of its window. -/
def Group.offWin (g : Group) : Group := { g with win := [] }

theorem State.wrCells_offWin (s : State) (sp : Space) (cells : List (Nat × Byte)) (k : Nat) :
    ((s.wrCells sp cells).group? k).map Group.offWin = (s.group? k).map Group.offWin := by
  cases sp with
  | glob => obtain ⟨q, e⟩ := s.wrCells_glob cells; rw [e]; rfl
  | loft => obtain ⟨q, e⟩ := s.wrCells_loft cells; rw [e]; rfl
  | priv t => obtain ⟨q, e⟩ := s.wrCells_priv t cells; rw [e]; rfl
  | win j =>
    obtain ⟨q, e⟩ := s.wrCells_win j cells
    rw [e]
    by_cases hk : k = j
    · subst hk
      rw [State.modGroup_find _ _ (fun x : Group => { x with win := ssets 0 x.win cells }) fun _ => rfl, Option.map_map]
      rfl
    · rw [State.modGroup_find_other _ _ _ (fun x : Group => { x with win := ssets 0 x.win cells }) (fun _ => rfl) hk]
      rfl

/-- A write of a local level discards speculation, and beside that writes its bytes. -/
theorem State.localWrite_offSpec (s : State) (sp : Space) (cells : List (Nat × Byte)) (w : Agent) :
    (s.localWrite sp cells w).offSpec = (s.wrCells sp cells).offSpec :=
  foldl_keeps _ State.offSpec (fun u l => u.conflict_offSpec sp l w none) _ _

/-- A write changes of a group no more than its window. -/
theorem State.localWrite_offWin (s : State) (sp : Space) (cells : List (Nat × Byte)) (w : Agent) (k : Nat) :
    ((s.localWrite sp cells w).group? k).map Group.offWin = (s.group? k).map Group.offWin := by
  have hgroups : (s.localWrite sp cells w).groups = (s.wrCells sp cells).groups :=
    (congrArg State.groups (s.localWrite_offSpec sp cells w) :)
  rw [State.group?, hgroups]
  exact s.wrCells_offWin sp cells k

/-- An engine context of a group, by their names. -/
def State.eng? (s : State) (k sel : Nat) : Option EngCtx := (s.group? k).map fun g => g.eng sel

theorem State.eng?_of_offWin (h : (v.group? k).map Group.offWin = (s.group? k).map Group.offWin) (sel : Nat) :
    v.eng? k sel = s.eng? k sel := by
  have e : ∀ u : State, u.eng? k sel = ((u.group? k).map Group.offWin).map fun g => g.eng sel := fun u => by
    rw [Option.map_map]; rfl
  rw [e, e, h]

@[simp] theorem State.eng?_localWrite (s : State) (sp : Space) (cells : List (Nat × Byte)) (w : Agent) (k sel : Nat) :
    (s.localWrite sp cells w).eng? k sel = s.eng? k sel := State.eng?_of_offWin (s.localWrite_offWin ..) sel

theorem State.eng?_modGroup (s : State) (k sel : Nat) {f : Group → Group} (hi : ∀ x, (f x).id = x.id) (he : ∀ x, (f x).engs = x.engs) :
    (s.modGroup k f).eng? k sel = s.eng? k sel := by
  have e : (fun g : Group => g.eng sel) ∘ f = fun g => g.eng sel := funext fun g => by
    simp only [Function.comp, Group.eng, he]
  rw [State.eng?, State.modGroup_find s k f hi, Option.map_map, e]
  rfl

theorem State.eng?_modEng (s : State) (k sel : Nat) (f : EngCtx → EngCtx) : (s.modEng k sel f).eng? k sel = (s.eng? k sel).map f := by
  have e : (fun g : Group => g.eng sel) ∘ (fun g : Group => g.modEng sel f) = f ∘ fun g : Group => g.eng sel :=
    funext fun g => sget_sset_same ..
  rw [State.eng?, State.modEng, State.modGroup_find s k (fun g => g.modEng sel f) fun _ => rfl, Option.map_map, e, ← Option.map_map]
  rfl

theorem Group.retryInv_keeps (g : Group) (sel : Nat) : (g.retryInv sel).id = g.id ∧ (g.retryInv sel).engs = g.engs := by
  unfold Group.retryInv
  split <;> exact ⟨rfl, rfl⟩

/-- A command of a context that QRES lets go on. -/
def EngCmd.resume (mode : Nat) (c : EngCmd) : EngCmd :=
  if c.st = .failed then
    if mode = 2 then
      { c with st := .queued, gs := 0, ruled := none, again := max c.again c.progress
               progress := if c.op = .mloop then c.progress else 0, moved := 0, pend := [], buf := [], idx := [], ce := false
               ahead := [], rays := if c.op = .rast then [] else c.rays }
    else { c with st := .done }
  else if (mode = 1 ∨ mode = 3) ∧ c.st = .queued then { c with st := .done }
  else c

theorem EngCmd.resume_st (mode : Nat) (c : EngCmd) :
    (c.resume mode).st ≠ .failed ∧ (mode = 1 ∨ mode = 3 → (c.resume mode).st ≠ .queued) := by
  unfold EngCmd.resume
  split
  next hf =>
    split
    · exact ⟨by simp, by omega⟩
    · exact ⟨by simp, by simp⟩
  next hf =>
    split
    next hq => exact ⟨by simp, by simp⟩
    next hq => exact ⟨hf, fun hm hst => hq ⟨hm, hst⟩⟩

theorem mem_of_mem_advanceC {x : EngCmd} {l : List EngCmd} {n : Nat} (h : x ∈ (advanceC n l).2) : x ∈ l := by
  induction l generalizing n with
  | nil => exact h
  | cons y l ih =>
    unfold advanceC at h
    split at h
    · exact List.mem_cons_of_mem _ (ih h)
    · exact h

/-- R132: a context that is not halted is left alone; a halted one goes on. -/
theorem State.qres_running (hg : s.group? k = some g) (hh : (g.eng sel).halted = none) : s.qres k sel mode = s := by
  unfold State.qres
  simp only [hg, hh]

theorem State.qres_halted (hg : s.group? k = some g) (hh : (g.eng sel).halted ≠ none) :
    (s.qres k sel mode).eng? k sel =
      some ({ g.eng sel with halted := none, cmds := (g.eng sel).cmds.map (EngCmd.resume mode) } : EngCtx).settleC := by
  obtain ⟨code, hcode⟩ := Option.ne_none_iff_exists'.1 hh
  have hwrite : ∀ (b : Bool) cells w, (if b = true then s.localWrite (.win k) cells w else s).eng? k sel = s.eng? k sel := by
    intro b cells w
    split
    · exact s.eng?_localWrite ..
    · rfl
  have hretry : ∀ u : State, (if mode = 2 then u.modGroup k fun g => g.retryInv sel else u).eng? k sel = u.eng? k sel := by
    intro u
    split
    · exact u.eng?_modGroup k sel (fun x => (x.retryInv_keeps sel).1) fun x => (x.retryInv_keeps sel).2
    · rfl
  unfold State.qres
  simp only [hg, hcode]
  rw [State.eng?_modEng, hretry, hwrite, State.eng?, hg]
  rfl

@[simp] theorem finish_done_group? (s : State) (c : Ctx) (v : State) (k : Nat) : (finish s c (.done v)).group? k = v.group? k := by
  rw [finish_done, State.group?, State.account_groups]
  rfl

theorem qres_spec (hr : Ready (.qres o) s t p g) : let c := issueCtx (.qres o) s t p g
    exec (.qres o) s = .next (finish s c (.done ((issueState (.qres o) s t p).qres g.id o.d.toNat (c.g o.a % 4)))) :=
  exec_completes hr rfl rfl

/-! ### The obligation -/

/-- Settles O34: each instruction's effect, read off with the waits and traps of its issue. -/
theorem waitsAndGuards : Obligations.WaitsAndGuards := by
  intro o s t p g
  refine ⟨fun hr => ?_, fun hr => ?_, fun hr => tlget_spec hr, fun hr => rpoll_spec hr, fun hr => ?_, fun hr => ?_⟩
  · intro c limit
    have hc : c.tid = t.id := issueCtx_tid ..
    by_cases hle : s.counter t.id o.d.toNat ≤ limit
    · refine ⟨finish s c (.done ((issueState (.waitp o) s t p).modTeam c.tid fun y => y.settlePath c.uid o.d.toNat
        ((s.flights.filter fun f => decide (f.team = c.tid) && decide (f.path = o.d.toNat)).map (·.id)))), ?_⟩
      rw [if_pos hle]
      refine ⟨exec_issues hr rfl (if_pos ?_), frame_completes ?_⟩
      · rw [hc]; exact hle
      · rw [hc]; exact (frame_issueState ..).settlePath ..
    · refine ⟨finish s c (c.blocked (issueState (.waitp o) s t p) [limit]), ?_⟩
      rw [if_neg hle]
      refine blocks_of_blocked (g := g) (exec_issues hr rfl (if_neg ?_))
      rw [hc]; exact hle
  · intro c x n detail
    have hg : (issueState (.waitt o) s t p).group? c.grp.id = some g := (group_of_ready hr :)
    have hcode : 192 + 8 * selEngine o.d.toNat + 7 = 199 + 8 * (o.d.toNat % 8) := by unfold selEngine; omega
    have he : exec (.waitt o) s = .next (finish s c (waitTimeline (issueState (.waitt o) s t p) c o.d.toNat n)) :=
      exec_issues hr rfl rfl
    rw [waitTimeline_eq hg, hcode, show c.tid = t.id from issueCtx_tid .., show c.uid = p.uid from rfl] at he
    refine ⟨fun hacc hn => ?_, fun hacc hn hh => ?_, fun k hacc hn hh hct => ?_, fun hacc hct => ?_⟩
    · rw [if_neg (show ¬ x.accepted < n by omega), if_pos hn] at he
      exact ⟨_, he, frame_completes (frame_splitAcquires _ p hr.1.2.1 5)⟩
    · rw [if_neg (show ¬ x.accepted < n by omega), if_neg (show ¬ n ≤ x.c by omega), hh] at he
      exact ⟨_, blocks_of_blocked (g := g) he⟩
    · rw [if_neg (show ¬ x.accepted < n by omega), if_neg (show ¬ n ≤ x.c by omega), hh] at he
      exact ⟨_, he, takesTrap_finish hr hct ..⟩
    · rw [if_pos hacc] at he
      exact ⟨_, he, takesTrap_finish hr hct ..⟩
  · intro c w
    refine ⟨_, exec_completes hr rfl rfl, frame_completes ?_⟩
    rw [guardValue_eq]
    exact (frame_issueState ..).modGroup g.id (fun _ => rfl) fun _ => rfl
  · intro c
    have hg : (issueState (.qres o) s t p).group? g.id = some g := (group_of_ready hr :)
    refine ⟨fun hh => ⟨_, qres_spec hr, ?_⟩, fun hh => ?_⟩
    · rw [State.qres_running hg hh]
      exact frame_completes (frame_issueState ..)
    · obtain ⟨h, hu, he⟩ := Option.map_eq_some_iff.1 (State.qres_halted (mode := c.g o.a % 4) hg hh)
      have hmem : ∀ y ∈ (h.eng o.d.toNat).cmds, ∃ x, y = EngCmd.resume (c.g o.a % 4) x := fun y hy => by
        rw [he] at hy
        obtain ⟨x, -, e⟩ := List.mem_map.1 (mem_of_mem_advanceC hy)
        exact ⟨x, e.symm⟩
      refine ⟨_, h, qres_spec hr, (finish_done_group? ..).trans hu, by rw [he]; rfl, fun y hy => ?_, fun hm y hy => ?_⟩
      · obtain ⟨x, rfl⟩ := hmem y hy
        exact (x.resume_st _).1
      · obtain ⟨x, rfl⟩ := hmem y hy
        exact (x.resume_st _).2 hm

end Sys2Proof.Machine
end

section
/-!
PROOFS. Writes of a local level (R107, R284): the bytes they leave in every address space, and what they leave alone.
-/
namespace Sys2Proof.Machine

variable {s u v : State} {c : Ctx} {sp : Space} {cells : List (Nat × Byte)} {w : Agent} {a b n x k tid : Nat}

/-! ### The bytes a write leaves -/

/-- An address space that is there: a window of a group, the private area of a team, or memory. -/
def State.has (s : State) (sp : Space) : Prop :=
  match sp with | .win k => s.group? k ≠ none | .priv k => s.team? k ≠ none | _ => True

/-- A byte that a write names once reads as written, where its space is there. -/
theorem State.rdByte_wrCells_mem {q : Nat × Byte} (hs : s.has sp) (hq : q ∈ cells) (hn : (cells.map (·.1)).Nodup) :
    (s.wrCells sp cells).rdByte sp q.1 = q.2 := by
  have put : ∀ m, sget (0 : Byte) (ssets 0 m cells) q.1 = q.2 := fun m => sget_ssets_mem 0 cells m q hq hn
  cases sp with
  | glob => exact s.rdByte_wrCells_glob cells q hq hn
  | loft =>
    obtain ⟨p, e⟩ := s.wrCells_loft cells
    rw [e]
    exact put _
  | win k =>
    obtain ⟨p, e⟩ := s.wrCells_win k cells
    obtain ⟨g, hg⟩ := Option.ne_none_iff_exists'.1 (show s.group? k ≠ none from hs)
    have hg' : ({ s with poisoned := p } : State).group? k = some g := hg
    rw [e, State.rdByte_modGroup_win _ k (fun y : Group => { y with win := ssets 0 y.win cells }) fun _ => rfl, hg']
    exact put _
  | priv k =>
    obtain ⟨p, e⟩ := s.wrCells_priv k cells
    obtain ⟨t, ht⟩ := Option.ne_none_iff_exists'.1 (show s.team? k ≠ none from hs)
    have ht' : ({ s with poisoned := p } : State).team? k = some t := ht
    rw [e, State.rdByte_modTeam_priv _ k (fun y : Team => { y with priv := ssets 0 y.priv cells }) fun _ => rfl, ht']
    exact put _

/-- Discarding speculation changes no byte. -/
theorem State.localWrite_sameFaces (s : State) (sp : Space) (cells : List (Nat × Byte)) (w : Agent) :
    SameFaces (s.wrCells sp cells) (s.localWrite sp cells w) :=
  foldl_holds _ (SameFaces (s.wrCells sp cells)) (fun _ _ h => h.conflict) _ _ (.refl _)

theorem State.localWrite_rdByte_mem {q : Nat × Byte} (hs : s.has sp) (hq : q ∈ cells) (hn : (cells.map (·.1)).Nodup) :
    (s.localWrite sp cells w).rdByte sp q.1 = q.2 :=
  ((s.localWrite_sameFaces sp cells w).rdByte sp q.1).trans (State.rdByte_wrCells_mem hs hq hn)

theorem State.localWrite_rdByte_other {sp' : Space} (h : sp' ≠ sp ∨ ∀ q ∈ cells, q.1 ≠ a) :
    (s.localWrite sp cells w).rdByte sp' a = s.rdByte sp' a :=
  ((s.localWrite_sameFaces sp cells w).rdByte sp' a).trans (s.rdByte_wrCells_other sp cells sp' a h)

/-! ### Values of several bytes (R4) -/

theorem leNat_congr {rd rd' : Nat → Byte} {a n : Nat} (h : ∀ i < n, rd (a + i) = rd' (a + i)) : leNat rd a n = leNat rd' a n := by
  induction n generalizing a with
  | zero => rfl
  | succ n ih =>
    have hrest : leNat rd (a + 1) n = leNat rd' (a + 1) n := ih fun i hi => by
      rw [Nat.add_assoc, Nat.add_comm 1 i]
      exact h (i + 1) (Nat.succ_lt_succ hi)
    rw [leNat, leNat, hrest, show rd a = rd' a from h 0 n.succ_pos]

theorem leNat_lt (rd : Nat → Byte) (a n : Nat) : leNat rd a n < 256 ^ n := by
  induction n generalizing a with
  | zero => exact Nat.one_pos
  | succ n ih =>
    have h := ih (a + 1)
    have hb := (rd a).isLt
    rw [leNat, Nat.pow_succ']
    omega

/-- A value lies among written bytes. -/
theorem mem_cellsOf {i : Nat} (a x : Nat) (hi : i < n) : (a + i, byteOf x i) ∈ cellsOf a n x :=
  List.mem_map.2 ⟨i, List.mem_range.2 hi, rfl⟩

/-- A value among what is written is read back; R4: its bytes stand at [a, a + n). -/
theorem State.localWrite_rd (hs : s.has sp) (hn : (cells.map (·.1)).Nodup) (hx : cellsOf a n x ⊆ cells) :
    (s.localWrite sp cells w).rd sp a n = x % 256 ^ n :=
  leNat_of_byteOf fun _ hi => State.localWrite_rdByte_mem hs (hx (mem_cellsOf a x hi)) hn

/-- A value that nothing is written to stays. -/
theorem State.localWrite_rd_other (h : ∀ q ∈ cells, q.1 < a ∨ a + n ≤ q.1) : (s.localWrite sp cells w).rd sp a n = s.rd sp a n :=
  leNat_congr fun i hi => State.localWrite_rdByte_other (.inr fun q hq e => by have := h q hq; omega)

/-- Values that are written behind one another lie apart. -/
theorem nodup_append_cellsOf (b n x : Nat) (hn : (cells.map (·.1)).Nodup) (hb : ∀ q ∈ cells, q.1 < b) :
    ((cells ++ cellsOf b n x).map (·.1)).Nodup := by
  rw [List.map_append, List.nodup_append]
  refine ⟨hn, cellsOf_nodup b n x, fun y hy z hz => ?_⟩
  obtain ⟨q, hq, rfl⟩ := List.mem_map.1 hy
  obtain ⟨r, hr, rfl⟩ := List.mem_map.1 hz
  have h := hb q hq
  have h' := cellsOf_mem b n x r hr
  omega

/-! ### What it leaves of teams and groups -/

/-- A write of a local level takes no team away. -/
theorem State.localWrite_team {t : Team} (ht : s.team? tid = some t) : ∃ y, (s.localWrite sp cells w).team? tid = some y := by
  have hw : ∃ y, (s.wrCells sp cells).team? tid = some y := by
    cases sp with
    | glob => obtain ⟨q, e⟩ := s.wrCells_glob cells; exact ⟨t, by rw [e]; exact ht⟩
    | loft => obtain ⟨q, e⟩ := s.wrCells_loft cells; exact ⟨t, by rw [e]; exact ht⟩
    | win j => obtain ⟨q, e⟩ := s.wrCells_win j cells; exact ⟨t, by rw [e]; exact ht⟩
    | priv j =>
      obtain ⟨q, e⟩ := s.wrCells_priv j cells
      have ht' : ({ s with poisoned := q } : State).team? tid = some t := ht
      rw [e]
      by_cases hj : tid = j
      · subst hj
        rw [State.modTeam_find _ _ (fun y : Team => { y with priv := ssets 0 y.priv cells }) fun _ => rfl, ht']
        exact ⟨_, rfl⟩
      · rw [State.modTeam_find_other _ _ _ (fun y : Team => { y with priv := ssets 0 y.priv cells }) (fun _ => rfl) hj]
        exact ⟨t, ht'⟩
  obtain ⟨y, hy⟩ := hw
  obtain ⟨z, hz, -⟩ := (s.localWrite_sameFaces sp cells w).team hy
  exact ⟨z, hz⟩

theorem State.rdByte_wrG (s : State) (c : Ctx) (d : Byte) (vals : List Nat) (sp : Space) (a : Nat) :
    (s.wrG c d vals).rdByte sp a = s.rdByte sp a := by
  rw [State.wrG_eq]
  exact s.rdByte_modTeam _ _ (fun y => y.writeGs_id ..) (fun y => y.writeGs_priv ..) sp a

end Sys2Proof.Machine
end

section
/-!
PROOFS. Barrier objects (R127, R128): where an operation on an object finds it, and what each operation leaves.
-/
namespace Sys2Proof.Machine

variable {s u v s₁ : State} {t : Team} {p : Split} {g : Group} {i : Instr} {c : Ctx} {lvl : Level} {sp : Space} {a b n x w tid : Nat}
variable {r : LineReq} {sup : List Nat} {write release : Bool} {o : FE}

/-! ### Where an object lies -/

/-- R142: a location of a local level lies in a space that is there. -/
theorem State.locate1_has {disp align lane : Nat} {q : Space × Nat} (hg : s.group? c.grp.id ≠ none) (ht : s.team? c.tid ≠ none)
    (h : s.locate1 c lvl b disp n align lane write = .ok q) : s.has q.1 := by
  cases lvl with
  | win =>
    simp only [State.locate1] at h
    repeat' split at h
    all_goals cases h
    exact hg
  | priv =>
    simp only [State.locate1] at h
    repeat' split at h
    all_goals cases h
    exact ht
  | loft =>
    simp only [State.locate1] at h
    repeat' split at h
    all_goals cases h
    all_goals trivial
  | yard =>
    simp only [State.locate1] at h
    split at h
    · cases h
    split at h
    · cases h
    split at h
    · cases h
    next m _ y hy =>
    repeat' split at h
    all_goals cases h
    rw [State.has, State.group?_id hy, hy]
    exact Option.some_ne_none y

/-- R142: an access of one lane that is formed at a local level moves nothing, and its line lies in a space that is there. -/
theorem State.formLocal_one {disp align : Nat} {uniform : Bool} {l : LaneAcc} (hg : s.group? c.grp.id ≠ none) (ht : s.team? c.tid ≠ none)
    (h : s.formLocal c lvl disp n align write uniform [(b, l)] = .ok s₁ sup [r]) : s₁ = s ∧ s.has r.space := by
  unfold State.formLocal at h
  dsimp only at h
  split at h
  · cases h
  split at h
  · cases h
  · simp only [Formed.ok.injEq] at h
    obtain ⟨hs, -, hreq⟩ := h
    refine ⟨hs.symm, ?_⟩
    cases hq : s.locate1 c lvl b disp n align l.lane write with
    | error e => simp [hq] at hreq
    | ok q =>
      simp only [List.map_cons, List.map_nil, hq] at hreq
      have hsp : [q.1] = [r.space] := congrArg (List.map LineReq.space) hreq
      rw [← (List.cons.inj hsp).1]
      exact State.locate1_has hg ht hq

/-- Where an operation finds its object: the request that it forms. -/
structure ObjectAt (c : Ctx) (s : State) (w : Nat) (write : Bool) (lvl : Level) (r : LineReq) : Prop where
  level : barLevel w = some lvl
  formed : ∃ sup, s.formLocal c lvl 0 16 16 write true [(offOf w, { lane := 0, off := 0 })] = .ok s sup [r]
  clear : s.lineClear c r.space r.line = true
  there : s.has r.space

/-- The address of an object. -/
def LineReq.objectAddr (r : LineReq) : Nat := r.line * 64 + (r.lanes.headD { lane := 0, off := 0 }).off

theorem objectAt_of_ready (hr : Ready i s t p g) (hl : barLevel w = some lvl)
    (hf : (issueState i s t p).formLocal (issueCtx i s t p g) lvl 0 16 16 write true [(w % 2 ^ 29, { lane := 0, off := 0 })] = .ok s₁ sup [r])
    (hc : s₁.lineClear (issueCtx i s t p g) r.space r.line = true) :
    s₁ = issueState i s t p ∧ ObjectAt (issueCtx i s t p g) (issueState i s t p) w write lvl r := by
  have hg : (issueState i s t p).group? (issueCtx i s t p g).grp.id ≠ none := by
    rw [show (issueState i s t p).group? (issueCtx i s t p g).grp.id = some g from (group_of_ready hr :)]
    exact Option.some_ne_none g
  have ht : (issueState i s t p).team? (issueCtx i s t p g).tid ≠ none := by
    rw [issueCtx_tid, team_of_ready hr]
    exact Option.some_ne_none _
  obtain ⟨rfl, hs⟩ := State.formLocal_one hg ht hf
  exact ⟨rfl, hl, ⟨sup, hf⟩, hc, hs⟩

/-- R128: an operation on an object that lies in reach. -/
theorem onObject_eq {f : Space → Nat → Res} (h : ObjectAt c s w write lvl r) (hrel : release = true → s.releasedAt c.tid lvl = true) :
    onObject s c w write release f = f r.space r.objectAddr := by
  obtain ⟨hl, ⟨sup, hf⟩, hc, -⟩ := h
  unfold onObject
  rw [hl]
  dsimp only
  rw [hf]
  dsimp only
  cases release with
  | false => rw [Bool.false_and, Bool.false_or, hc]; rfl
  | true => rw [hrel rfl, hc]; rfl

/-! ### What an operation leaves -/

/-- R365: a g register that is poisoned reads as before. -/
theorem objectPoison_field (s : State) (c : Ctx) (bad : Bool) (d : Byte) (id x l : Nat) :
    (s.objectPoison c bad (some d)).field id x l = s.field id x l := by
  cases bad with
  | false => rfl
  | true =>
    have h : ∀ f r l, (s.objectPoison c true (some d)).reg id f r l = s.reg id f r l := fun f r l =>
      s.reg_modTeam _ (f := fun t => { t with poison := t.poison ++ [(.g, d.toNat - 192, 0)] }) (fun _ => rfl) (.inr fun y _ => by cases f <;> rfl)
    unfold State.field
    rw [h, h]

theorem objectPoison_rdByte (s : State) (c : Ctx) (bad : Bool) (d : Byte) (sp : Space) (a : Nat) :
    (s.objectPoison c bad (some d)).rdByte sp a = s.rdByte sp a := by
  cases bad with
  | false => rfl
  | true =>
    exact s.rdByte_modTeam _ (fun t => { t with poison := t.poison ++ [(.g, d.toNat - 192, 0)] }) (fun _ => rfl) (fun _ => rfl) sp a

theorem Frame.objectPoison {dest : List (RFile × Nat)} {eff : Team → Team} (hf : Frame s v tid dest eff) (bad : Bool) (d : Byte) :
    Frame s (v.objectPoison c bad (some d)) tid dest eff := by
  cases bad with
  | false => exact hf
  | true =>
    obtain ⟨hb, hreg, hst⟩ := hf
    refine ⟨fun sp a => (objectPoison_rdByte v c true d sp a).trans (hb sp a), fun id f r l h => ?_, ?_⟩
    · exact (v.reg_modTeam _ (f := fun t => { t with poison := t.poison ++ [(.g, d.toNat - 192, 0)] }) (fun _ => rfl)
        (.inr fun y _ => by cases f <;> rfl)).trans (hreg id f r l h)
    · exact (v.still_modTeam_same _ (f := fun t => { t with poison := t.poison ++ [(.g, d.toNat - 192, 0)] }) fun _ => rfl).trans hst

theorem finish_done_rd (s : State) (c : Ctx) (v : State) (sp : Space) (a n : Nat) : (finish s c (.done v)).rd sp a n = v.rd sp a n :=
  leNat_congr fun _ _ => finish_done_rdByte ..
theorem issueState_rd (i : Instr) (s : State) (t : Team) (p : Split) (sp : Space) (a n : Nat) :
    (issueState i s t p).rd sp a n = s.rd sp a n := leNat_congr fun _ _ => issueState_rdByte ..
theorem State.rd_lt (s : State) (sp : Space) (a : Nat) : s.rd sp a 4 < 2 ^ 32 := leNat_lt ..

/-! ### BINIT, BARV -/

/-- R127: the words of a new object. -/
def initCells (a expect phase : Nat) : List (Nat × Byte) :=
  cellsOf a 4 expect ++ cellsOf (a + 4) 4 0 ++ cellsOf (a + 8) 4 (phase / 2 * 2) ++ cellsOf (a + 12) 4 0

theorem initCells_range {q : Nat × Byte} {expect phase : Nat} (h : q ∈ initCells a expect phase) : a ≤ q.1 ∧ q.1 < a + 16 := by
  simp only [initCells, List.mem_append] at h
  rcases h with ((h | h) | h) | h
  all_goals
    have := cellsOf_mem _ _ _ q h
    omega

theorem initCells_words (a expect phase : Nat) :
    cellsOf a 4 expect ⊆ initCells a expect phase ∧ cellsOf (a + 4) 4 0 ⊆ initCells a expect phase ∧
      cellsOf (a + 8) 4 (phase / 2 * 2) ⊆ initCells a expect phase ∧ cellsOf (a + 12) 4 0 ⊆ initCells a expect phase := by
  refine ⟨fun q h => ?_, fun q h => ?_, fun q h => ?_, fun q h => ?_⟩ <;> simp [initCells, h]

theorem initCells_nodup (a expect phase : Nat) : ((initCells a expect phase).map (·.1)).Nodup := by
  have h₁ : ∀ q ∈ cellsOf a 4 expect, q.1 < a + 4 := fun q h => (cellsOf_mem _ _ _ q h).2
  have h₂ : ∀ q ∈ cellsOf a 4 expect ++ cellsOf (a + 4) 4 0, q.1 < a + 8 := fun q h => by
    rcases List.mem_append.1 h with h | h <;> have := cellsOf_mem _ _ _ q h <;> omega
  have h₃ : ∀ q ∈ cellsOf a 4 expect ++ cellsOf (a + 4) 4 0 ++ cellsOf (a + 8) 4 (phase / 2 * 2), q.1 < a + 12 := fun q h => by
    rcases List.mem_append.1 h with h | h
    · have := h₂ q h
      omega
    · have := cellsOf_mem _ _ _ q h
      omega
  exact nodup_append_cellsOf _ _ _ (nodup_append_cellsOf _ _ _ (nodup_append_cellsOf _ _ _ (cellsOf_nodup ..) h₁) h₂) h₃

/-- R128: BINIT. -/
theorem binit_spec (hr : Ready (.binit o) s t p g)
    (h : ObjectAt (issueCtx (.binit o) s t p g) (issueState (.binit o) s t p) ((issueCtx (.binit o) s t p g).g o.a) true lvl r) :
    ∃ u, exec (.binit o) s = .next u ∧ u.rd r.space r.objectAddr 4 = (issueCtx (.binit o) s t p g).g o.d % 2 ^ 32 ∧
      u.rd r.space (r.objectAddr + 4) 4 = 0 ∧ u.rd r.space (r.objectAddr + 8) 4 = s.rd r.space (r.objectAddr + 8) 4 / 2 * 2 ∧
      u.rd r.space (r.objectAddr + 12) 4 = 0 ∧
      ∀ sp x, (sp ≠ r.space ∨ x < r.objectAddr ∨ r.objectAddr + 16 ≤ x) → u.rdByte sp x = s.rdByte sp x := by
  have he : exec (.binit o) s = .next (finish s (issueCtx (.binit o) s t p g) (.done ((issueState (.binit o) s t p).localWrite r.space
      (initCells r.objectAddr ((issueCtx (.binit o) s t p g).g o.d) ((issueState (.binit o) s t p).rd r.space (r.objectAddr + 8) 4))
      (issueCtx (.binit o) s t p g).agent))) := exec_completes hr rfl (onObject_eq h (by simp))
  rw [issueState_rd] at he
  have hlt := s.rd_lt r.space (r.objectAddr + 8)
  obtain ⟨h₀, h₄, h₈, h₁₂⟩ := initCells_words r.objectAddr ((issueCtx (.binit o) s t p g).g o.d) (s.rd r.space (r.objectAddr + 8) 4)
  refine ⟨_, he, ?_, ?_, ?_, ?_, fun sp x hx => ?_⟩
  · exact (finish_done_rd ..).trans (State.localWrite_rd h.there (initCells_nodup ..) h₀)
  · exact (finish_done_rd ..).trans (State.localWrite_rd h.there (initCells_nodup ..) h₄)
  · exact (finish_done_rd ..).trans ((State.localWrite_rd h.there (initCells_nodup ..) h₈).trans (Nat.mod_eq_of_lt (by omega)))
  · exact (finish_done_rd ..).trans (State.localWrite_rd h.there (initCells_nodup ..) h₁₂)
  · rw [finish_done_rdByte, State.localWrite_rdByte_other (hx.imp_right fun hx q hq => ?_), issueState_rdByte]
    have := initCells_range hq
    omega

/-- R128: the words that an arrival writes. -/
def arriveCells (a arrived phase : Nat) : List (Nat × Byte) := cellsOf (a + 4) 4 arrived ++ cellsOf (a + 8) 4 phase

theorem arriveCells_range {q : Nat × Byte} {arrived phase : Nat} (h : q ∈ arriveCells a arrived phase) : a + 4 ≤ q.1 ∧ q.1 < a + 12 := by
  rcases List.mem_append.1 h with h | h
  all_goals
    have := cellsOf_mem _ _ _ q h
    omega

theorem arriveCells_nodup (a arrived phase : Nat) : ((arriveCells a arrived phase).map (·.1)).Nodup :=
  nodup_append_cellsOf _ _ _ (cellsOf_nodup ..) fun q h => by
    have := cellsOf_mem _ _ _ q h
    omega

theorem arriveWords_eq (expect arrived phase : Nat) : arriveWords expect arrived phase =
    (if expect ≤ (arrived + 1) % 2 ^ 32 then 0 else (arrived + 1) % 2 ^ 32,
      if expect ≤ (arrived + 1) % 2 ^ 32 then phase ^^^ 1 else phase) := by
  unfold arriveWords
  dsimp only
  split <;> rfl

/-- The state that an arrival leaves: the words of the object, the phase in the result, and the poison that it has read. -/
def State.arriveAt (s : State) (c : Ctx) (d : Byte) (sp : Space) (a arrived phase : Nat) : State :=
  ((s.localWrite sp (arriveCells a arrived phase) c.agent).wrG c d [s.rd sp (a + 8) 4 % 2]).objectPoison c (s.isPoisoned sp a 16) (some d)

theorem State.arriveAt_rdByte (s : State) (c : Ctx) (d : Byte) (sp : Space) (a arrived phase : Nat) (sp' : Space) (x : Nat) :
    (s.arriveAt c d sp a arrived phase).rdByte sp' x = (s.localWrite sp (arriveCells a arrived phase) c.agent).rdByte sp' x := by
  rw [State.arriveAt, objectPoison_rdByte, State.rdByte_wrG]

theorem State.arriveAt_rd (s : State) (c : Ctx) (d : Byte) (sp : Space) (a arrived phase : Nat) (sp' : Space) (x n : Nat) :
    (s.arriveAt c d sp a arrived phase).rd sp' x n = (s.localWrite sp (arriveCells a arrived phase) c.agent).rd sp' x n :=
  leNat_congr fun _ _ => s.arriveAt_rdByte ..

/-- R128: BARV. -/
theorem barv_spec (hr : Ready (.barv o) s t p g)
    (h : ObjectAt (issueCtx (.barv o) s t p g) (issueState (.barv o) s t p) ((issueCtx (.barv o) s t p g).g o.a) true lvl r)
    (hrel : (issueState (.barv o) s t p).releasedAt t.id lvl = true) :
    let n := (s.rd r.space (r.objectAddr + 4) 4 + 1) % 2 ^ 32
    let last := decide (s.rd r.space r.objectAddr 4 ≤ n)
    ∃ u, exec (.barv o) s = .next u ∧ u.field t.id o.d.toNat 0 = s.rd r.space (r.objectAddr + 8) 4 % 2 ∧
      u.rd r.space r.objectAddr 4 = s.rd r.space r.objectAddr 4 ∧ u.rd r.space (r.objectAddr + 4) 4 = (if last then 0 else n) ∧
      u.rd r.space (r.objectAddr + 8) 4 =
        (if last then s.rd r.space (r.objectAddr + 8) 4 ^^^ 1 else s.rd r.space (r.objectAddr + 8) 4) ∧
      u.rd r.space (r.objectAddr + 12) 4 = s.rd r.space (r.objectAddr + 12) 4 ∧
      ∀ sp x, (sp ≠ r.space ∨ x < r.objectAddr ∨ r.objectAddr + 16 ≤ x) → u.rdByte sp x = s.rdByte sp x := by
  intro n last
  have hc : (issueCtx (.barv o) s t p g).tid = t.id := issueCtx_tid ..
  have hx : 192 ≤ o.d.toNat := gD_of_readyE (fn := 10) hr rfl rfl
  have hlt := s.rd_lt r.space (r.objectAddr + 8)
  obtain ⟨arr, harr⟩ : ∃ arr, arr = if last then 0 else n := ⟨_, rfl⟩
  obtain ⟨ph, hph⟩ : ∃ ph, ph = if last then s.rd r.space (r.objectAddr + 8) 4 ^^^ 1 else s.rd r.space (r.objectAddr + 8) 4 := ⟨_, rfl⟩
  have harrlt : arr < 256 ^ 4 := by
    rw [harr]
    split
    · omega
    · exact Nat.mod_lt _ (by omega)
  have hphlt : ph < 256 ^ 4 := by
    rw [hph]
    split
    · exact Nat.xor_lt_two_pow (n := 32) hlt (by omega)
    · exact hlt
  have he : exec (.barv o) s = .next (finish s (issueCtx (.barv o) s t p g) (.done
      ((issueState (.barv o) s t p).arriveAt (issueCtx (.barv o) s t p g) o.d r.space r.objectAddr arr ph))) := by
    refine exec_completes hr rfl ((onObject_eq h fun _ => by rw [hc]; exact hrel).trans ?_)
    simp only [State.arriveAt, issueState_rd, arriveWords_eq, harr, hph, last, n, decide_eq_true_eq, arriveCells]
  rw [← harr, ← hph]
  refine ⟨_, he, ?_, ?_, ?_, ?_, ?_, fun sp x hx => ?_⟩
  · obtain ⟨y, hy⟩ := State.localWrite_team (sp := r.space) (cells := arriveCells r.objectAddr arr ph)
      (w := (issueCtx (.barv o) s t p g).agent) (team_of_ready hr)
    rw [finish_done_field, State.arriveAt, objectPoison_field, issueState_rd]
    exact (State.field_wrG (k := 0) hc hy hx (by simp) 0).trans (Nat.mod_eq_of_lt (by simp; omega))
  · rw [finish_done_rd, State.arriveAt_rd, State.localWrite_rd_other fun q hq => ?_, issueState_rd]
    have := arriveCells_range hq
    omega
  · rw [finish_done_rd, State.arriveAt_rd, State.localWrite_rd h.there (arriveCells_nodup ..) (x := arr) fun q hq => by
      simp [arriveCells, hq], Nat.mod_eq_of_lt harrlt]
  · rw [finish_done_rd, State.arriveAt_rd, State.localWrite_rd h.there (arriveCells_nodup ..) (x := ph) fun q hq => by
      simp [arriveCells, hq], Nat.mod_eq_of_lt hphlt]
  · rw [finish_done_rd, State.arriveAt_rd, State.localWrite_rd_other fun q hq => ?_, issueState_rd]
    have := arriveCells_range hq
    omega
  · rw [finish_done_rdByte, State.arriveAt_rdByte, State.localWrite_rdByte_other (hx.imp_right fun hx q hq => ?_), issueState_rdByte]
    have := arriveCells_range hq
    omega

end Sys2Proof.Machine
end

section
/-!
PROOFS. The obligation on barrier objects, YJOIN and YLEAVE.
-/
namespace Sys2Proof.Machine

variable {s v s₁ : State} {t : Team} {p : Split} {g : Group} {i : Instr} {c : Ctx} {lvl : Level} {r : LineReq} {o : FE} {tid tok : Nat}

/-! ### BWAIT, BSTAT (R128) -/

/-- R128: BWAIT on an object that is not poisoned. -/
theorem bwait_spec (hr : Ready (.bwait o) s t p g) : let c := issueCtx (.bwait o) s t p g
    let was := c.asIssued [c.g o.a, c.g o.d]
    ObjectAt c (issueState (.bwait o) s t p) (was.headD 0) false lvl r → s.isPoisoned r.space r.objectAddr 16 = false →
    exec (.bwait o) s = .next (finish s c (if s.rd r.space (r.objectAddr + 8) 4 % 2 ≠ was.getD 1 0 % 2 then
      .done ((issueState (.bwait o) s t p).splitAcquires t.id p.uid lvl.scope) else c.blocked (issueState (.bwait o) s t p) was)) := by
  intro c was h hp
  refine exec_issues hr rfl ((onObject_eq h (by simp)).trans ?_)
  rw [show (issueState (.bwait o) s t p).isPoisoned r.space r.objectAddr 16 = false from hp, if_neg (by simp), issueState_rd, h.level,
    show c.tid = t.id from issueCtx_tid ..]
  rfl

/-- R128: BSTAT. -/
theorem bstat_spec (hr : Ready (.bstat o) s t p g) : let c := issueCtx (.bstat o) s t p g
    ObjectAt c (issueState (.bstat o) s t p) (c.g o.a) false lvl r →
    ∃ u, exec (.bstat o) s = .next u ∧ u.field t.id o.d.toNat 0 = s.rd r.space (r.objectAddr + 12) 4 ∧
      Frame s u t.id [fieldReg o.d.toNat] c.passes := by
  intro c h
  have hx : 192 ≤ o.d.toNat := gD_of_readyE (fn := 12) hr rfl rfl
  have hc : c.tid = t.id := issueCtx_tid ..
  have he := exec_completes hr rfl (onObject_eq (release := false) (f := fun sp a =>
    .done (((issueState (.bstat o) s t p).wrG c o.d [(issueState (.bstat o) s t p).rd sp (a + 12) 4]).objectPoison c
      ((issueState (.bstat o) s t p).isPoisoned sp a 16) (some o.d))) h (by simp))
  rw [issueState_rd] at he
  refine ⟨_, he, ?_, frame_completes ((Frame.wrG (vals := [_]) hc hx (frame_issueState ..)).objectPoison ..)⟩
  rw [finish_done_field, objectPoison_field]
  exact (State.field_wrG (k := 0) hc (team_of_ready hr) hx (by simp) 0).trans (Nat.mod_eq_of_lt (s.rd_lt ..))

/-! ### Results that are owed (R113) -/

/-- A team that is owed a g result. -/
def Team.owed (a : Await) (t : Team) : Team := { t with awaits := t.awaits ++ [a] }

theorem Team.owed_raw (a : Await) (t : Team) (f : RFile) (r l : Nat) : (t.owed a).raw f r l = t.raw f r l := by cases f <;> rfl

/-- What is owed changes no byte and no register. -/
theorem State.owe_sameData (s : State) (tid : Nat) (a : Await) : s.sameData (s.modTeam tid (Team.owed a)) :=
  ⟨s.rdByte_modTeam tid (Team.owed a) (fun _ => rfl) fun _ => rfl,
    fun _ f r l => s.reg_modTeam tid (f := Team.owed a) (fun _ => rfl) (.inr fun y _ => y.owed_raw a f r l)⟩

/-- The state in which an instruction owes its g field a result. -/
def Ctx.owing (c : Ctx) (s : State) (d : Byte) : State :=
  s.fresh.2.modTeam c.tid (Team.owed ⟨s.nextId, c.uid, .g, d.toNat - 192, 1, 1⟩)

theorem State.oweG_eq (s : State) (c : Ctx) (d : Byte) : s.oweG c d = (s.nextId, c.owing s d) := rfl

/-- What an instruction leaves that completes and owes a result, in a state that differs beside it in no team and no byte. -/
theorem owing_completes (hr : Ready i s t p g) {d : Byte} (hv : (issueCtx i s t p g).owing (issueState i s t p) d |>.sameData v)
    (ht : v.teams = ((issueCtx i s t p g).owing (issueState i s t p) d).teams) :
    (∃ y, (finish s (issueCtx i s t p g) (.done v)).team? t.id = some y ∧ ⟨s.nextId, p.uid, .g, d.toNat - 192, 1, 1⟩ ∈ y.awaits) ∧
      s.sameData (finish s (issueCtx i s t p g) (.done v)) := by
  have hc : (issueCtx i s t p g).tid = t.id := issueCtx_tid ..
  refine ⟨?_, fun sp a => ?_, fun id f r l => ?_⟩
  · have hfind := finish_done_team? s v (issueCtx i s t p g)
    have hteam : v.team? t.id = some ((t.begins i p.uid).owed ⟨s.nextId, p.uid, .g, d.toNat - 192, 1, 1⟩) := by
      have h := (issueState i s t p).fresh.2.modTeam_find t.id (Team.owed ⟨s.nextId, p.uid, .g, d.toNat - 192, 1, 1⟩) fun _ => rfl
      rw [show (issueState i s t p).fresh.2.team? t.id = some (t.begins i p.uid) from team_of_ready hr] at h
      rw [State.team?, ht, Ctx.owing, hc]
      exact h
    rw [hc, hteam] at hfind
    exact ⟨_, hfind, List.mem_append.2 (.inr (List.mem_singleton_self _))⟩
  · have h := ((issueState i s t p).fresh.2.owe_sameData (issueCtx i s t p g).tid ⟨s.nextId, p.uid, .g, d.toNat - 192, 1, 1⟩).1 sp a
    rw [finish_done_rdByte, hv.1, ← issueState_rdByte i s t p]
    refine h.trans ?_
    cases sp <;> rfl
  · have h := ((issueState i s t p).fresh.2.owe_sameData (issueCtx i s t p g).tid ⟨s.nextId, p.uid, .g, d.toNat - 192, 1, 1⟩).2 id f r l
    rw [finish_done_reg, hv.2, ← issueState_reg i s t p]
    exact h

/-! ### YJOIN (R113) -/

/-- R113: the yards in which a group waits at the yard of a key. -/
def joinYards (ys : List Yard) (asid key : Nat) (w : YWait) : List Yard :=
  match ys.find? fun y => decide (y.asid = asid ∧ y.key = key) with
  | some _ => ys.map fun y => if y.asid = asid ∧ y.key = key then { y with waiting := y.waiting ++ [w] } else y
  | none => ys ++ [{ asid := asid, key := key, waiting := [w] }]

theorem joinYards_waits (ys : List Yard) (asid key : Nat) (w : YWait) :
    ∃ z ∈ joinYards ys asid key w, z.asid = asid ∧ z.key = key ∧ w ∈ z.waiting := by
  unfold joinYards
  split
  next y hy =>
    have hk : y.asid = asid ∧ y.key = key := by simpa using List.find?_some hy
    refine ⟨_, List.mem_map_of_mem (List.mem_of_find?_eq_some hy), ?_⟩
    rw [if_pos hk]
    exact ⟨hk.1, hk.2, List.mem_append.2 (.inr (List.mem_singleton_self w))⟩
  next => exact ⟨_, List.mem_append.2 (.inr (List.mem_singleton_self _)), rfl, rfl, List.mem_singleton_self w⟩

theorem finish_done_yards (s : State) (c : Ctx) (v : State) : (finish s c (.done v)).yards = v.yards := by
  rw [finish_done]
  unfold State.account State.book
  split <;> rfl

/-- An instruction that completes with one g result. -/
theorem wrG_completes {d : Byte} {x : Nat} (hr : Ready i s t p g) (hx : 192 ≤ d.toNat)
    (he : exec i s = .next (finish s (issueCtx i s t p g) (.done ((issueState i s t p).wrG (issueCtx i s t p g) d [x])))) :
    ∃ u, exec i s = .next u ∧ u.yards = s.yards ∧ u.field t.id d.toNat 0 = x % 2 ^ 32 ∧
      Frame s u t.id [fieldReg d.toNat] (issueCtx i s t p g).passes :=
  ⟨_, he, finish_done_yards .., finish_done_wrG s (k := 0) (team_of_ready hr) (issueCtx_tid ..) hx (by simp),
    frame_completes (Frame.wrG (vals := [_]) (issueCtx_tid ..) hx (frame_issueState ..))⟩

theorem yjoin_refused (hr : Ready (.yjoin o) s t p g) (hy : g.yardOk = false) : let c := issueCtx (.yjoin o) s t p g
    ∃ u, exec (.yjoin o) s = .next u ∧ u.yards = s.yards ∧
      u.field t.id o.d.toNat 0 = (4 * 2 ^ 24 + 8 * (match s.yards.find? fun y => decide (y.asid = g.asid ∧ y.key = c.g o.a) with
        | some y => y.members.length
        | none => 0)) % 2 ^ 32 ∧
      Frame s u t.id [fieldReg o.d.toNat] c.passes := by
  intro c
  have he : exec (.yjoin o) s = .next (finish s c (.done ((issueState (.yjoin o) s t p).wrG c o.d
      [yardResult 4 (match s.yards.find? fun y => decide (y.asid = g.asid ∧ y.key = c.g o.a) with
        | some y => y.members.length
        | none => 0) 0]))) := exec_completes hr rfl (if_pos (by rw [show c.grp = g from rfl, hy]; rfl))
  rw [yardResult, Nat.add_zero, Nat.mul_comm _ 8] at he
  exact wrG_completes hr (gD_of_readyE (fn := 13) hr rfl rfl) he

theorem yjoin_waits (hr : Ready (.yjoin o) s t p g) (hy : g.yardOk = true) : let c := issueCtx (.yjoin o) s t p g
    ∃ u y z, exec (.yjoin o) s = .next u ∧ u.team? t.id = some y ∧
      ⟨s.nextId, p.uid, .g, o.d.toNat - 192, 1, 1⟩ ∈ y.awaits ∧ z ∈ u.yards ∧ z.asid = g.asid ∧ z.key = c.g o.a ∧
      ⟨g.id, t.id, s.nextId⟩ ∈ z.waiting ∧ s.sameData u := by
  intro c
  have hc : c.tid = t.id := issueCtx_tid ..
  have he : exec (.yjoin o) s = .next (finish s c (.done { c.owing (issueState (.yjoin o) s t p) o.d with
      yards := joinYards s.yards g.asid (c.g o.a) ⟨g.id, c.tid, s.nextId⟩ })) := by
    refine exec_completes hr rfl ((if_neg (by rw [show (issueCtx (.yjoin o) s t p g).grp = g from rfl, hy]; simp)).trans ?_)
    rfl
  obtain ⟨z, hz, hasid, hkey, hw⟩ := joinYards_waits s.yards g.asid (c.g o.a) ⟨g.id, c.tid, s.nextId⟩
  rw [hc] at hw
  obtain ⟨⟨y, hty, hay⟩, hsame⟩ := owing_completes hr (v := { c.owing (issueState (.yjoin o) s t p) o.d with
    yards := joinYards s.yards g.asid (c.g o.a) ⟨g.id, c.tid, s.nextId⟩ }) (State.sameData_of_eq rfl rfl rfl rfl) rfl
  exact ⟨_, y, z, he, hty, hay, by rw [finish_done_yards]; exact hz, hasid, hkey, hw, hsame⟩

/-! ### YLEAVE (R113) -/

theorem State.markLeaving_eq (s : State) (gid : Nat) : ∃ ys n, s.markLeaving gid = { s with yards := ys, nextId := n } := by
  unfold State.markLeaving
  dsimp only
  split
  · exact ⟨s.yards, s.nextId, rfl⟩
  · exact ⟨_, _, rfl⟩

/-- R113: a group that is marked is leaving every yard that it is in. -/
theorem State.markLeaving_leaving {gid : Nat} {z : Yard} {k : YMember} (hz : z ∈ (s.markLeaving gid).yards) (hk : k ∈ z.members)
    (hg : k.group = gid) : k.leaving = true := by
  unfold State.markLeaving at hz
  dsimp only at hz
  split at hz
  next h =>
    have h' := List.all_eq_true.1 (List.all_eq_true.1 h z hz) k hk
    simpa [hg] using h'
  next h =>
    obtain ⟨y, -, rfl⟩ := List.mem_map.1 hz
    obtain ⟨m, -, rfl⟩ := List.mem_map.1 hk
    by_cases hm : m.group = gid
    · rw [if_pos hm]
    · rw [if_neg hm] at hg
      exact absurd hg hm

theorem yleave_outside (hr : Ready (.yleave o) s t p g) (hy : s.yardOf g.id = none) :
    ∃ u, exec (.yleave o) s = .next u ∧ u.field t.id o.d.toNat 0 = 2 ^ 24 ∧
      Frame s u t.id [fieldReg o.d.toNat] (issueCtx (.yleave o) s t p g).passes := by
  have hy' : (issueState (.yleave o) s t p).yardOf (issueCtx (.yleave o) s t p g).grp.id = none := hy
  have he : exec (.yleave o) s = .next (finish s (issueCtx (.yleave o) s t p g) (.done
      ((issueState (.yleave o) s t p).wrG (issueCtx (.yleave o) s t p g) o.d [yardResult 1 0 0]))) :=
    exec_completes hr rfl (by dsimp only; rw [hy'])
  obtain ⟨u, hu, -, hf, hframe⟩ := wrG_completes hr (gD_of_readyE (fn := 14) hr rfl rfl) he
  exact ⟨u, hu, hf, hframe⟩

theorem yleave_marks (hr : Ready (.yleave o) s t p g) {q : Yard × YMember} (hy : s.yardOf g.id = some q) :
    ∃ u h, exec (.yleave o) s = .next u ∧ u.group? g.id = some h ∧ h.leavingYard = g.leavingYard ++ [(t.id, s.nextId)] ∧
      (∀ z ∈ u.yards, ∀ k ∈ z.members, k.group = g.id → k.leaving = true) ∧ s.sameData u := by
  have hc : (issueCtx (.yleave o) s t p g).tid = t.id := issueCtx_tid ..
  have hy' : (issueState (.yleave o) s t p).yardOf (issueCtx (.yleave o) s t p g).grp.id = some q := hy
  obtain ⟨w, hw⟩ : ∃ w, w = ((issueCtx (.yleave o) s t p g).owing (issueState (.yleave o) s t p) o.d).modGroup g.id fun h =>
    { h with leavingYard := h.leavingYard ++ [((issueCtx (.yleave o) s t p g).tid, s.nextId)] } := ⟨_, rfl⟩
  have he : exec (.yleave o) s = .next (finish s (issueCtx (.yleave o) s t p g) (.done (w.markLeaving g.id))) := by
    refine exec_completes hr rfl ?_
    dsimp only
    rw [hy', hw]
    rfl
  obtain ⟨ys, n, hmark⟩ := w.markLeaving_eq g.id
  have hgroup : w.group? g.id = some { g with leavingYard := g.leavingYard ++ [(t.id, s.nextId)] } := by
    have h := ((issueCtx (.yleave o) s t p g).owing (issueState (.yleave o) s t p) o.d).modGroup_find g.id
      (fun h => { h with leavingYard := h.leavingYard ++ [((issueCtx (.yleave o) s t p g).tid, s.nextId)] }) fun _ => rfl
    rw [show ((issueCtx (.yleave o) s t p g).owing (issueState (.yleave o) s t p) o.d).group? g.id = some g from (group_of_ready hr :), hc] at h
    rw [hw, hc]
    exact h
  have hdata : ((issueCtx (.yleave o) s t p g).owing (issueState (.yleave o) s t p) o.d).sameData (w.markLeaving g.id) := by
    refine State.sameData_trans (u := w) ⟨fun sp a => ?_, fun _ _ _ _ => by rw [hw]; rfl⟩ ?_
    · rw [hw]
      refine State.rdByte_modGroup _ _ _ ?_ ?_ sp a <;> intro <;> rfl
    · rw [hmark]
      exact State.sameData_of_eq rfl rfl rfl rfl
  obtain ⟨-, hsame⟩ := owing_completes hr hdata (by rw [hmark, hw]; rfl)
  refine ⟨_, { g with leavingYard := g.leavingYard ++ [(t.id, s.nextId)] }, he, ?_, rfl, fun z hz k hk hg => ?_, hsame⟩
  · rw [finish_done_group?, hmark]
    exact hgroup
  · rw [finish_done_yards] at hz
    exact State.markLeaving_leaving hz hk hg

/-! ### The obligation -/

/-- Settles O35: an object that lies in reach is the one request of its formation, and each operation is read off there; YJOIN and
YLEAVE answer at once or owe their result. -/
theorem barrierObjectsAndYards : Obligations.BarrierObjectsAndYards := by
  refine ⟨fun o s t p g s₁ sup r lvl => ?_, fun o s t p g => ⟨fun hr => ?_, fun hr => ?_⟩⟩
  · refine ⟨fun hr => ?_, fun hr => ?_, fun hr => ?_, fun hr => ?_⟩
    · rintro c ⟨hl, hf, hclear⟩
      obtain ⟨-, h⟩ := objectAt_of_ready hr hl hf hclear
      exact binit_spec hr h
    · rintro c ⟨hl, hf, hclear⟩ hrel
      obtain ⟨rfl, h⟩ := objectAt_of_ready hr hl hf hclear
      exact barv_spec hr h hrel
    · rintro c was ⟨hl, hf, hclear⟩ hp
      obtain ⟨-, h⟩ := objectAt_of_ready hr hl hf hclear
      have he := bwait_spec hr h hp
      by_cases hq : s.rd r.space (r.objectAddr + 8) 4 % 2 ≠ was.getD 1 0 % 2
      · rw [if_pos hq] at he
        refine ⟨finish s c (.done ((issueState (.bwait o) s t p).splitAcquires t.id p.uid lvl.scope)), ?_⟩
        exact (if_pos hq).symm ▸ ⟨he, frame_completes (frame_splitAcquires _ p hr.1.2.1 lvl.scope)⟩
      · rw [if_neg hq] at he
        refine ⟨finish s c (c.blocked (issueState (.bwait o) s t p) was), ?_⟩
        exact (if_neg hq).symm ▸ blocks_of_blocked (g := g) he
    · rintro c ⟨hl, hf, hclear⟩
      obtain ⟨-, h⟩ := objectAt_of_ready hr hl hf hclear
      exact bstat_spec hr h
  · exact ⟨yjoin_refused hr, yjoin_waits hr⟩
  · exact ⟨yleave_outside hr, fun y m => yleave_marks hr⟩

end Sys2Proof.Machine
end

section
/-!
PROOFS. The obligation on yard membership, grids and tokens.
-/
namespace Sys2Proof.Machine

variable {s u : State} {t : Team} {p : Split} {g : Group} {tid uid : Nat}

/-! ### Results that a team waits for -/

/-- An answer is about the teams alone. -/
theorem State.Answers.of_teams {v : State} {team tok x : Nat} (h : State.Answers u v team tok x) (hu : u.teams = s.teams)
    {w : State} (hv : w.teams = v.teams) : s.Answers w team tok x := by
  intro t a ht ha hn
  have hr := h t a (by rw [← ht]; unfold State.team?; rw [hu]) ha hn
  unfold State.reg State.team? at hr ⊢
  rwa [hv]

/-! ### Yard membership (R113) -/

/-- R113: the result of a join or a leave that succeeds. -/
theorem yardResult_ok (count idx : Nat) : yardResult 0 count idx = 8 * count + idx := by
  unfold yardResult
  omega

/-- Fewer than eight members leave one of the eight indexes free. -/
theorem exists_free_index {ms : List YMember} (h : ms.length < 8) :
    ∃ i, (List.range 8).find? (fun i => !(ms.any fun m => decide (m.idx = i))) = some i ∧ i < 8 ∧ ∀ m ∈ ms, m.idx ≠ i := by
  cases hf : (List.range 8).find? (fun i => !(ms.any fun m => decide (m.idx = i))) with
  | some i =>
    have hfree := List.find?_some hf
    refine ⟨i, rfl, List.mem_range.mp (List.mem_of_find?_eq_some hf), fun m hm he => ?_⟩
    simp only [Bool.not_eq_true', List.any_eq_false, decide_eq_true_eq] at hfree
    exact hfree m hm he
  | none =>
    have htaken : List.range 8 ⊆ ms.map YMember.idx := fun i hi => by
      have := List.find?_eq_none.mp hf i hi
      simpa using this
    have hlen := (List.nodup_range.subperm htaken).length_le
    simp at hlen
    omega

/-- The list of yards with those of one key replaced, and those left empty gone. -/
def replaceYard (y : Yard) (ys : List Yard) : List Yard :=
  (ys.map fun z => if z.asid = y.asid ∧ z.key = y.key then y else z).filter fun z => !(z.members.isEmpty && z.waiting.isEmpty)

theorem mem_replaceYard {y z : Yard} {ys : List Yard} (hz : z ∈ ys) (ha : z.asid = y.asid) (hk : z.key = y.key)
    (hm : y.members ≠ []) : y ∈ replaceYard y ys := by
  refine List.mem_filter.mpr ⟨List.mem_map.mpr ⟨z, hz, if_pos ⟨ha, hk⟩⟩, ?_⟩
  simp [hm]

/-- The yard once its first waiting group has joined at an index. -/
def Yard.joined (y : Yard) (i : Nat) (w : YWait) (ws : List YWait) : Yard :=
  { y with waiting := ws, members := y.members ++ [⟨i, w.group, false, 0⟩] }

/-- YJOIN_COMPLETE of a yard that takes its first waiting group. -/
theorem execYjoinComplete_joins {y : Yard} {w : YWait} {ws : List YWait} {i : Nat}
    (hy : s.yards.find? (fun z => decide (z.asid = y.asid ∧ z.key = y.key)) = some y) (hw : y.waiting = w :: ws)
    (hhome : s.yardHome y = true) (hout : s.yardOf w.group = none) (hg : s.group? w.group = some g)
    (hcore : ∀ m ∈ y.members, ∀ h, s.group? m.group = some h → h.core ≠ g.core) (hroom : y.members.length < 8)
    (hi : (List.range 8).find? (fun i => !(y.members.any fun m => decide (m.idx = i))) = some i) :
    execYjoinComplete ⟨y.asid, y.key⟩ s =
      .next ({ s with yards := replaceYard (y.joined i w ws) s.yards }.answer w.team w.tok (yardResult 0 (y.members.length + 1) i)) := by
  have hapart : (y.members.any fun m => match s.group? m.group with | some h => decide (h.core = g.core) | none => false) = false := by
    rw [List.any_eq_false]
    intro m hm
    cases hh : s.group? m.group with
    | none => exact Bool.false_ne_true
    | some h => simpa using hcore m hm h hh
  unfold execYjoinComplete
  simp only [hy, hw, hhome, hout, hg, Bool.not_true, Bool.false_eq_true, if_false]
  refine (if_neg fun h => Bool.false_ne_true (hapart.symm.trans h)).trans ((if_neg (Nat.not_le.mpr hroom)).trans ?_)
  rw [hi]
  rfl

theorem yjoinComplete_spec {y : Yard} {w : YWait} {ws : List YWait}
    (hy : s.yards.find? (fun z => decide (z.asid = y.asid ∧ z.key = y.key)) = some y) (hw : y.waiting = w :: ws)
    (hhome : s.yardHome y = true) (hout : s.yardOf w.group = none) (hg : s.group? w.group = some g)
    (hcore : ∀ m ∈ y.members, ∀ h, s.group? m.group = some h → h.core ≠ g.core) (hroom : y.members.length < 8) :
    ∃ u z m, exec (.yjoinComplete ⟨y.asid, y.key⟩) s = .next u ∧ z ∈ u.yards ∧ z.asid = y.asid ∧ z.key = y.key ∧ z.waiting = ws ∧
      m ∈ z.members ∧ m.group = w.group ∧ m.leaving = false ∧ (∀ k ∈ y.members, k.idx ≠ m.idx) ∧ m.idx < 8 ∧
      s.Answers u w.team w.tok (8 * (y.members.length + 1) + m.idx) := by
  obtain ⟨i, hi, hlt, hfree⟩ := exists_free_index hroom
  have hmem : y.joined i w ws ∈ replaceYard (y.joined i w ws) s.yards :=
    mem_replaceYard (List.mem_of_find?_eq_some hy) rfl rfl (by simp [Yard.joined])
  refine ⟨_, y.joined i w ws, ⟨i, w.group, false, 0⟩, execYjoinComplete_joins hy hw hhome hout hg hcore hroom hi, hmem, rfl, rfl, rfl,
    by simp [Yard.joined], rfl, rfl, hfree, hlt, ?_⟩
  rw [yardResult_ok]
  exact (State.answer_answers _ w.team w.tok _).of_teams rfl rfl

/-- A revoked group is a member of no yard. -/
theorem State.yardOf_revokeYard (s : State) (gid : Nat) : (s.revokeYard gid).yardOf gid = none := by
  refine List.findSome?_eq_none_iff.mpr fun z hz => ?_
  obtain ⟨y, -, rfl⟩ := List.mem_map.mp (List.mem_filter.mp hz).1
  rw [Option.map_eq_none_iff, List.find?_eq_none]
  intro m hm
  simpa using (List.mem_filter.mp hm).2

theorem yleaveComplete_spec {y : Yard} {m : YMember} {tok : Nat} (hg : s.group? g.id = some g) (hy : s.yardOf g.id = some (y, m))
    (hl : m.leaving = true) (hq : s.yardQuiet g y m.idx = true) (hw : g.leavingYard = [(tid, tok)]) :
    ∃ u h, exec (.yleaveComplete ⟨g.id⟩) s = .next u ∧ u.yardOf g.id = none ∧ u.group? g.id = some h ∧ h.leavingYard = [] ∧
      s.Answers u tid tok (8 * (y.members.length - 1) + m.idx) := by
  have he : exec (.yleaveComplete ⟨g.id⟩) s = .next
      (((s.revokeYard g.id).answer tid tok (yardResult 0 (y.members.length - 1) m.idx)).modGroup g.id fun g => { g with leavingYard := [] }) := by
    show execYleaveComplete ⟨g.id⟩ s = _
    unfold execYleaveComplete
    simp only [hg, hy, hl, hq, hw]
    rfl
  rw [yardResult_ok] at he
  refine ⟨_, { g with leavingYard := [] }, he, State.yardOf_revokeYard s g.id, ?_, rfl, ?_⟩
  · rw [State.modGroup_find _ _ _ (by intro; rfl)]
    exact congrArg (Option.map _) hg
  · exact (State.answer_answers (s.revokeYard g.id) tid tok _).of_teams rfl rfl

/-! ### Grids (R213) -/

/-- A waiting operation that completes goes on. -/
theorem State.complete_spec {b : Instr × List Nat} (ht : s.team? tid = some t) (hp : t.split? uid = some p) (hb : p.busy = some b) :
    (s.complete tid uid).team? tid = some (t.modSplit uid Split.proceed) ∧
      (t.modSplit uid Split.proceed).split? uid = some p.proceed ∧ s.sameData (s.complete tid uid) := by
  have hc : s.complete tid uid = s.modSplit tid uid Split.proceed := by
    unfold State.complete
    simp only [ht, hp, Option.bind_some, hb]
  rw [hc]
  refine ⟨?_, ?_, State.modSplit_sameData ..⟩
  · exact (State.modTeam_find s tid _ (by intro; rfl)).trans (congrArg (Option.map _) ht)
  · rw [Team.modSplit_find _ _ _ (by intro; rfl), hp]
    rfl

/-- The grid that a team holds is no data. -/
theorem State.setGrid_sameData (s : State) (tid : Nat) (q : Option GridSt) : s.sameData (s.modTeam tid fun t => { t with grid := q }) :=
  ⟨s.rdByte_modTeam tid _ (by intro; rfl) (by intro; rfl),
    fun _ _ _ _ => s.reg_modTeam tid (by intro; rfl) (.inr (by intros; rfl))⟩

theorem State.setGrid_team (ht : s.team? tid = some t) (q : Option GridSt) :
    (s.modTeam tid fun t => { t with grid := q }).team? tid = some { t with grid := q } :=
  (State.modTeam_find s tid _ (by intro; rfl)).trans (congrArg (Option.map _) ht)

theorem State.takeGrid_spec (ht : s.team? tid = some t) (shape home : Nat) :
    (s.takeGrid tid shape home).team? tid = some { t with grid := some { shape := shape, quads := gridQuads shape home } } ∧
      s.sameData (s.takeGrid tid shape home) := by
  unfold State.takeGrid
  refine ⟨State.setGrid_team ht _, State.sameData_trans (State.sameData_of_eq rfl rfl rfl rfl) (State.setGrid_sameData ..)⟩

theorem State.releaseGrid_spec (ht : s.team? tid = some t) :
    (s.releaseGrid tid).team? tid = some { t with grid := none } ∧ s.sameData (s.releaseGrid tid) := by
  unfold State.releaseGrid
  rw [ht, Option.bind_some]
  cases hq : t.grid with
  | none =>
    refine ⟨ht.trans (congrArg some ?_), State.sameData_of_eq rfl rfl rfl rfl⟩
    rw [← hq]
  | some q =>
    exact ⟨State.setGrid_team ht none, State.sameData_trans (State.setGrid_sameData s tid none) (State.sameData_of_eq rfl rfl rfl rfl)⟩

theorem gridTake_spec {o : FE} {vs : List Nat} (ht : s.team? t.id = some t) (hres : t.residence = .resident) (hq : t.grid = none)
    (hf : (t.handler.toList ++ t.splits).find? (fun p => match p.busy with | some (.grid _, _) => true | _ => false) = some p)
    (hp : t.split? p.uid = some p) (hb : p.busy = some (.grid o, vs)) (hfit : s.gridFits t.core (gridQuads o.d.toNat t.quad) = true) :
    ∃ u x q r, exec (.gridTake ⟨t.id⟩) s = .next u ∧ u.team? t.id = some x ∧ x.grid = some q ∧ q.shape = o.d.toNat ∧
      q.quads = gridQuads o.d.toNat t.quad ∧ x.split? p.uid = some r ∧ r.pc = p.pc + 4 ∧ r.st = .ready ∧ s.sameData u := by
  have he : exec (.gridTake ⟨t.id⟩) s = .next ((s.takeGrid t.id o.d.toNat t.quad).complete t.id p.uid) := by
    show execGridTake ⟨t.id⟩ s = _
    unfold execGridTake
    simp only [ht, hres, hq, ne_eq, not_true_eq_false, if_false]
    split
    · next p' hf' =>
      obtain rfl : p = p' := Option.some.inj (hf.symm.trans hf')
      rw [hb]
      exact if_pos hfit
    · next hf' => exact absurd (hf.symm.trans hf') (Option.some_ne_none p)
  obtain ⟨hteam, hdata⟩ := State.takeGrid_spec ht o.d.toNat t.quad
  obtain ⟨hteam', hsplit, hdata'⟩ := State.complete_spec (p := p) hteam hp hb
  exact ⟨_, _, _, _, he, hteam', rfl, rfl, rfl, hsplit, rfl, rfl, State.sameData_trans hdata hdata'⟩

theorem ungridComplete_spec {o : FE} {vs : List Nat} (ht : s.team? t.id = some t) (hres : t.residence ≠ .ended)
    (hf : (t.handler.toList ++ t.live).find? (fun p => match p.busy with | some (.ungrid _, _) => true | _ => false) = some p)
    (hp : t.split? p.uid = some p) (hb : p.busy = some (.ungrid o, vs)) (hh : s.gridHalt t = none) (hw : s.gridWork t = false) :
    ∃ u x r, exec (.ungridComplete ⟨t.id⟩) s = .next u ∧ u.team? t.id = some x ∧ x.grid = none ∧
      x.split? p.uid = some r ∧ r.pc = p.pc + 4 ∧ r.st = .ready ∧ s.sameData u := by
  have he : exec (.ungridComplete ⟨t.id⟩) s = .next ((s.releaseGrid t.id).complete t.id p.uid) := by
    show execUngridComplete ⟨t.id⟩ s = _
    unfold execUngridComplete
    simp only [ht, hres, if_false]
    split
    · next hf' => exact absurd (hf.symm.trans hf') (Option.some_ne_none p)
    · next p' hf' =>
      obtain rfl : p = p' := Option.some.inj (hf.symm.trans hf')
      simp only [hh, hw, Bool.false_eq_true, if_false]
  obtain ⟨hteam, hdata⟩ := State.releaseGrid_spec ht
  obtain ⟨hteam', hsplit, hdata'⟩ := State.complete_spec (p := p) hteam hp hb
  exact ⟨_, _, _, he, hteam', rfl, hsplit, rfl, rfl, State.sameData_trans hdata hdata'⟩

/-! ### Tokens (R228, R341) -/

theorem tokenGrant_spec {q : GridSt} {rest : List Nat} (hh : s.gov.queue = tid :: rest) (ht : s.team? tid = some t)
    (hq : t.grid = some q) (hr : q.retake = false) (h0 : q.tokens = 0) :
    (q.quads.length ≤ s.gov.free → ∃ u x, exec .tokenGrant s = .next u ∧ u.team? tid = some x ∧
      x.grid = some { q with tokens := q.quads.length, idle := 0 } ∧ u.gov.free = s.gov.free - q.quads.length ∧
      u.gov.queue = rest ∧ s.sameData u) ∧
    (s.gov.free < q.quads.length → exec .tokenGrant s = .next s) := by
  have he : s.grantHead = if q.quads.length ≤ s.gov.free then
      { s.modTeam tid (fun t => { t with grid := some { q with tokens := q.quads.length, idle := 0 } }) with
        gov := { s.gov with queue := rest, free := s.gov.free - q.quads.length } } else s := by
    unfold State.grantHead
    simp only [hh, ht, hq, hr, h0, Option.bind_some, ne_eq, not_true_eq_false, decide_false, Bool.or_self, Bool.false_eq_true, if_false]
  refine ⟨fun hroom => ?_, fun hfull => ?_⟩
  · rw [if_pos hroom] at he
    exact ⟨_, _, congrArg Host.Outcome.next he, State.setGrid_team ht _, rfl, rfl, rfl,
      State.sameData_trans (State.setGrid_sameData s tid _) (State.sameData_of_eq rfl rfl rfl rfl)⟩
  · rw [if_neg (Nat.not_le.mpr hfull)] at he
    exact congrArg Host.Outcome.next he

theorem tokenIdleRelease_spec {q : GridSt} (ht : s.team? t.id = some t) (hq : t.grid = some q) (h0 : q.tokens ≠ 0) (hi : 1024 ≤ q.idle)
    (hb : s.gridBusy t = false) :
    ∃ u x, exec (.tokenIdleRelease ⟨t.id⟩) s = .next u ∧ u.team? t.id = some x ∧ x.grid = some { q with tokens := 0, idle := 0 } ∧
      u.gov.free = min (s.gov.free + q.tokens) (s.gov.pool - u.tokensHeld) ∧ s.sameData u := by
  have he : exec (.tokenIdleRelease ⟨t.id⟩) s = .next
      (let v := s.modTeam t.id fun t => { t with grid := some { q with tokens := 0, idle := 0 } }
       { v with gov := v.gov.returnTokens q.tokens v.tokensHeld }) := by
    show execTokenIdleRelease ⟨t.id⟩ s = _
    unfold execTokenIdleRelease
    simp only [ht, hq]
    exact if_pos ⟨h0, hi, by rw [hb]; rfl⟩
  exact ⟨_, _, he, State.setGrid_team ht _, rfl, rfl,
    State.sameData_trans (State.setGrid_sameData s t.id _) (State.sameData_of_eq rfl rfl rfl rfl)⟩

/-! ### The obligation -/

/-- Settles O44: each event takes the branch its premises name, and the results it writes are answers to the teams that wait. -/
theorem yardGridTokenEvents : Obligations.YardGridTokenEvents := by
  intro s
  refine ⟨fun y w ws g hy hw hhome hout hg hcore hroom => ?_, fun g y m tid tok hg hy hl hq hw => ?_,
    fun t p g o vs ht hres hq _ => gridTake_spec ht hres hq, fun t p g o vs ht hres _ => ungridComplete_spec ht hres,
    fun tid rest t q => tokenGrant_spec, fun t q => tokenIdleRelease_spec⟩
  · obtain ⟨u, z, m, he, hz, ha, hk, hwait, hm, hgrp, hleave, hidx, hlt, hans⟩ := yjoinComplete_spec hy hw hhome hout hg hcore hroom
    exact ⟨u, z, m, he, hz, ha, hk, hwait, hm, hgrp, hleave, hidx,
      fun t a ht hta hn => (hans t a ht hta hn).trans (Nat.mod_eq_of_lt (by omega))⟩
  · obtain ⟨u, h, he, hyard, hgrp, hleave, hans⟩ := yleaveComplete_spec hg hy hl hq hw
    exact ⟨u, h, he, hyard, hgrp, hleave, hans⟩

end Sys2Proof.Machine
end

section
/-!
PROOFS. The obligation on the events of the copy engines' commands.
-/
namespace Sys2Proof.Machine

variable {s u : State} {g : Group} {cmd : EngCmd} {sel n gid k : Nat} {x : EngCtx} {f : EngCmd → EngCmd}

/-! ### Contexts and their commands -/

/-- What is known of a named context is known of the group's. -/
theorem State.eng?_eq (hg : s.group? g.id = some g) (sel : Nat) : s.eng? g.id sel = some (g.eng sel) := by
  rw [State.eng?, hg]
  rfl

theorem State.group_of_eng? (h : s.eng? k sel = some x) : ∃ q, s.group? k = some q ∧ q.eng sel = x := Option.map_eq_some_iff.1 h

/-- The engine contexts of a group hold no data. -/
theorem State.modEng_sameData (s : State) (gid sel : Nat) (f : EngCtx → EngCtx) : s.sameData (s.modEng gid sel f) :=
  ⟨s.rdByte_modGroup gid _ (by intro; rfl) (by intro; rfl), fun _ _ _ _ => rfl⟩

theorem State.eng?_modCmd (h : s.eng? k sel = some x) (n : Nat) (f : EngCmd → EngCmd) :
    (s.modCmd k sel n f).eng? k sel = some (x.modCmd n f) :=
  (s.eng?_modEng ..).trans (congrArg (Option.map _) h)

/-- A change that sets the state of the commands of a number. -/
theorem EngCtx.modCmd_st {st : CmdSt} (hs : ∀ c, (f c).st = st) :
    ∀ y ∈ (x.modCmd n f).cmds, y.n = n → y.st = st := by
  intro y hy he
  obtain ⟨c, -, rfl⟩ := List.mem_map.1 hy
  by_cases hc : c.n = n
  · rw [if_pos hc]
    exact hs c
  · rw [if_neg hc] at he
    exact absurd he hc

theorem EngCtx.modCmd_find (x : EngCtx) (n : Nat) (hn : ∀ c, (f c).n = c.n) : (x.modCmd n f).cmd? n = (x.cmd? n).map f :=
  find_map_id EngCmd.n n f hn x.cmds

/-- A command that is changed is found in its group as it became. -/
theorem State.modCmd_find (h : s.eng? k sel = some x) (hc : x.cmd? n = some cmd) (hn : ∀ c, (f c).n = c.n) :
    ∃ q, (s.modCmd k sel n f).group? k = some q ∧ (q.eng sel).cmd? n = some (f cmd) := by
  obtain ⟨q, hq, he⟩ := State.group_of_eng? (State.eng?_modCmd h n f)
  refine ⟨q, hq, ?_⟩
  rw [he, EngCtx.modCmd_find x n hn, hc]
  rfl

/-- The command that has ended. -/
def EngCmd.ended (c : EngCmd) : EngCmd := { c with st := .done }

theorem EngCmd.ended_st (c : EngCmd) : c.ended.st = .done := rfl

theorem EngCtx.mem_settleC {y : EngCmd} (h : y ∈ x.settleC.cmds) : y ∈ x.cmds := mem_of_mem_advanceC h

/-! ### Reports (R129) -/

/-- A report writes a barrier object and nothing of an engine. -/
@[simp] theorem State.eng?_report (s : State) (g : Group) (w : Word) (status e stamp k sel : Nat) :
    (s.report g w status e stamp).eng? k sel = s.eng? k sel := by
  unfold State.report
  split
  · rfl
  · split
    · rfl
    · exact State.eng?_localWrite ..

/-- A range that an engine reaches lies in a space that is there. -/
theorem State.engRange_has {lv off n stamp a : Nat} {b : Bool} {sp : Space} (hg : s.group? g.id = some g)
    (h : s.engRange g lv off n b stamp = .ok (sp, a)) : s.has sp := by
  unfold State.engRange at h
  split at h
  · split at h
    · cases h
    · split at h <;> cases h
      exact Option.ne_none_iff_exists'.2 ⟨g, hg⟩
  · split at h
    · cases h
    · split at h
      · cases h
      · split at h
        · cases h
        · split at h
          · cases h
          · next q hq =>
            split at h
            · cases h
            · split at h <;> cases h
              exact Option.ne_none_iff_exists'.2 ⟨q, by rw [State.group?_id hq]; exact hq⟩
  · split at h
    · cases h
    · split at h
      · cases h
      · split at h <;> cases h
        exact trivial
  · cases h

theorem State.engWord_has {w n align stamp a : Nat} {b : Bool} {sp : Space} (hg : s.group? g.id = some g)
    (h : s.engWord g w n align b stamp = .ok (sp, a)) : s.has sp := by
  unfold State.engWord at h
  split at h
  · cases h
  · split at h
    · cases h
    · exact State.engRange_has hg h

/-- R128: a report to an object whose last arrival it is not counts one arrival. -/
theorem State.report_arrives {w : Word} {status e stamp a : Nat} {sp : Space} (hg : s.group? g.id = some g) (hw : w ≠ 0)
    (ho : s.engWord g w.toNat 16 16 true stamp = .ok (sp, a)) (hlast : (s.rd sp (a + 4) 4 + 1) % 2 ^ 32 < s.rd sp a 4) :
    (s.report g w status e stamp).rd sp (a + 4) 4 = (s.rd sp (a + 4) 4 + 1) % 2 ^ 32 := by
  have harr : ∀ ph, (arriveWords (s.rd sp a 4) (s.rd sp (a + 4) 4) ph).1 = (s.rd sp (a + 4) 4 + 1) % 2 ^ 32 := fun ph =>
    congrArg Prod.fst (if_neg (Nat.not_le.mpr hlast))
  unfold State.report
  rw [if_neg hw]
  simp only [ho]
  rw [State.localWrite_rd (x := (s.rd sp (a + 4) 4 + 1) % 2 ^ 32) (State.engWord_has hg ho)]
  · omega
  · refine nodup_append_cellsOf _ _ _ (nodup_append_cellsOf _ _ _ (cellsOf_nodup ..) fun q hq => ?_) fun q hq => ?_
    · have := cellsOf_mem _ _ _ q hq
      omega
    · rcases List.mem_append.1 hq with hq | hq
      · have := cellsOf_mem _ _ _ q hq
        omega
      · have := cellsOf_mem _ _ _ q hq
        omega
  · rw [harr]
    exact fun q hq => List.mem_append_left _ (List.mem_append_left _ hq)

/-! ### Commands that end (R122, R129, R131) -/

theorem State.engDone_eq (hg : s.group? g.id = some g) (hc : (g.eng sel).cmd? n = some cmd)
    (hr : s.reportThere g cmd.bar cmd.before = true) (status : Nat) :
    s.engDone g.id sel n status = (s.report g cmd.bar (status + cmd.ceBit) (selEngine sel) cmd.before).modEng g.id sel fun x =>
      (x.modCmd n EngCmd.ended).settleC := by
  unfold State.engDone
  simp only [hg, hc, hr]
  rfl

theorem State.engDone_eng? (hg : s.group? g.id = some g) (hc : (g.eng sel).cmd? n = some cmd)
    (hr : s.reportThere g cmd.bar cmd.before = true) (status : Nat) :
    (s.engDone g.id sel n status).eng? g.id sel = some ((g.eng sel).modCmd n EngCmd.ended).settleC := by
  rw [State.engDone_eq hg hc hr, State.eng?_modEng, State.eng?_report, State.eng?_eq hg]
  rfl

theorem State.engFail_halts {loc : Option Nat} {inv : Bool} (hg : s.group? g.id = some g) (hc : (g.eng sel).cmd? n = some cmd)
    (hr : s.reportThere g cmd.bar cmd.before = true) :
    ∃ x, (s.engFail g.id sel n k loc inv).eng? g.id sel = some x ∧ x.halted = some (192 + 8 * (sel % 8) + k) := by
  unfold State.engFail
  simp only [hg, hc, hr, Bool.not_true, Bool.false_eq_true, if_false, State.eng?_report, State.eng?_localWrite, State.eng?_modEng,
    State.eng?_eq hg]
  exact ⟨_, rfl, rfl⟩

/-! ### ENGINE_COMMAND_START (R118, R124) -/

theorem execEngineCommandStart_copy (hs : sel % 8 ≤ 1) : exec (.engineCommandStart ⟨gid, sel⟩) s = .next (s.startCopy gid sel) := by
  show execEngineCommandStart ⟨gid, sel⟩ s = _
  unfold execEngineCommandStart selEngine
  have : sel % 8 = 0 ∨ sel % 8 = 1 := by omega
  rcases this with h | h <;> simp only [h]

theorem State.startCopy_pending (hg : s.group? g.id = some g) (hrun : s.groupRuns g = true) (hh : (g.eng sel).head = some cmd)
    (hr : g.ruling cmd = .pending) : s.startCopy g.id sel = s := by
  unfold State.startCopy
  simp only [hg, hrun, hh, hr]
  rfl

theorem State.startCopy_discards (hg : s.group? g.id = some g) (hrun : s.groupRuns g = true) (hh : (g.eng sel).head = some cmd)
    (hr : g.ruling cmd = .no) : s.startCopy g.id sel = s.engDone g.id sel cmd.n 8 := by
  unfold State.startCopy
  simp only [hg, hrun, hh, hr]
  rfl

/-- The command that starts with its index list. -/
def EngCmd.begun (idx : List Nat) (c : EngCmd) : EngCmd := { c with st := .started, idx := idx, ahead := [] }
theorem EngCmd.begun_st (idx : List Nat) (c : EngCmd) : (c.begun idx).st = .started := rfl

/-- The checks of a copy or collective command, and the index list they read. -/
def State.startChecks (s : State) (g : Group) (cmd : EngCmd) : Fails × List Nat :=
  if cmd.op = .coll then (s.checkColl g cmd, []) else s.checkCopy g cmd

theorem State.startChecks_fst (s : State) (g : Group) (cmd : EngCmd) :
    (s.startChecks g cmd).1 = if cmd.op = .coll then s.checkColl g cmd else (s.checkCopy g cmd).1 := apply_ite Prod.fst ..

section
variable (hg : s.group? g.id = some g) (hrun : s.groupRuns g = true) (hh : (g.eng sel).head = some cmd) (hr : g.ruling cmd = .yes)
  (hp : s.priorDone cmd (copyPaths cmd) = true) (hi : s.indexThere g cmd = true)
include hg hrun hh hr hp hi

theorem State.startCopy_starts (hf : firstFail (s.startChecks g cmd).1 = none) : s.startCopy g.id sel =
    s.modCmd g.id sel cmd.n (EngCmd.begun (s.startChecks g cmd).2) := by
  unfold State.startChecks at hf
  unfold State.startCopy
  simp only [hg, hrun, hh, hr, hp, hi, hf]
  rfl

theorem State.startCopy_fails {loc : Option Nat} (hf : firstFail (s.startChecks g cmd).1 = some (k, loc)) :
    s.startCopy g.id sel = s.engFail g.id sel cmd.n k loc false := by
  unfold State.startChecks at hf
  unfold State.startCopy
  simp only [hg, hrun, hh, hr, hp, hi, hf]
  rfl

end

/-! ### ENGINE_TRANSFER (R118, R120) -/

theorem here_of_groupRuns (h : s.groupRuns g = true) : g.here = true := by
  unfold State.groupRuns at h
  exact (Bool.and_eq_true_iff.1 (Bool.and_eq_true_iff.1 h).1).1

/-- What the notes of a missed write change: the accesses in flight. -/
theorem State.missed_eq (s : State) (sp : Space) (l : Nat) (w : Agent) : s.missed sp l w = { s with flights := (s.missed sp l w).flights } := by
  unfold State.missed
  split <;> rfl

theorem State.unclaim_eq (s : State) (who : Asker) : s.unclaim who = { s with slcQ := (s.unclaim who).slcQ } := by
  unfold State.unclaim
  split <;> rfl

/-- An access of a local level is performed where its bytes lie. -/
theorem State.prepare_win {core : Nat} {f : Flight} {r : LineReq} {who : Asker} (hf : f.kind ≠ .arm) (hr : r.space = .win k) :
    s.prepare core f r who = (s, true, .space (.win k)) := by
  unfold State.prepare
  rw [if_neg hf, hr]

/-- A unit of the group's own window is read where it lies. -/
theorem State.unitLocal_reads {off : Nat} (hg : s.group? g.id = some g) (hh : g.here = true) (hin : off + 4 ≤ g.ws)
    (hp : s.isPoisoned (.win g.id) (off / 64 * 64 + off % 64) 4 = false) :
    s.unitLocal g 1 off none = (s.unclaim .passing, .ok (.win g.id) (bytesAt off 4) (s.rd (.win g.id) off 4)) := by
  have hr : s.engRange g 1 off 4 false 0 = .ok (.win g.id, off) := by
    unfold State.engRange
    simp [hin, Nat.not_lt.mpr]
  unfold State.unitLocal
  simp only [Option.isSome_none, hr]
  rw [Nat.div_add_mod'] at hp
  unfold State.unitAt
  simp only [hg, hh]
  rw [State.prepare_win (k := g.id) AccKind.noConfusion rfl]
  unfold State.placeRd
  simp only [Nat.div_add_mod', hp]
  rfl

/-- A unit written to the group's own window. -/
def State.unitWritten (s : State) (g : Group) (off w : Nat) : State :=
  ((s.missed (.win g.id) (off / 64) (.engine g.core g.id)).localWrite (.win g.id) (cellsOf off 4 w) (.engine g.core g.id)).unclaim .passing

theorem State.unitLocal_writes {off w : Nat} (hg : s.group? g.id = some g) (hh : g.here = true) (hlo : 256 ≤ off) (hin : off + 4 ≤ g.ws) :
    s.unitLocal g 1 off (some w) = (s.unitWritten g off w, .ok (.win g.id) (bytesAt off 4) (s.rd (.win g.id) off 4)) := by
  have hr : s.engRange g 1 off 4 true 0 = .ok (.win g.id, off) := by
    unfold State.engRange
    simp [hin, hlo, Nat.not_lt.mpr]
  unfold State.unitLocal
  simp only [Option.isSome_some, hr]
  unfold State.unitAt
  simp only [hg, hh]
  rw [State.prepare_win (k := g.id) AccKind.noConfusion rfl]
  unfold State.placeRd State.placeWr State.noticeWrite State.unitWritten
  simp only [Nat.div_add_mod']
  rfl

theorem State.has_win (hg : s.group? g.id = some g) : s.has (.win g.id) := by
  unfold State.has
  simp [hg]

/-- A unit written holds what was written, and leaves every other byte. -/
theorem State.unitWritten_rd {off w : Nat} (hg : s.group? g.id = some g) :
    (s.unitWritten g off w).rd (.win g.id) off 4 = w % 256 ^ 4 := by
  have hhas : (s.missed (.win g.id) (off / 64) (.engine g.core g.id)).has (.win g.id) := by
    rw [State.missed_eq]
    exact State.has_win (s := s) hg
  unfold State.unitWritten
  rw [State.unclaim_eq]
  exact State.localWrite_rd hhas (cellsOf_nodup ..) fun q hq => hq

theorem State.unitWritten_other {off w a : Nat} {sp : Space} (h : sp ≠ .win g.id ∨ a < off ∨ off + 4 ≤ a) :
    (s.unitWritten g off w).rdByte sp a = s.rdByte sp a := by
  unfold State.unitWritten
  rw [State.unclaim_eq]
  have hb := State.localWrite_rdByte_other (s := s.missed (.win g.id) (off / 64) (.engine g.core g.id)) (cells := cellsOf off 4 w)
    (w := .engine g.core g.id) (sp := .win g.id) (sp' := sp) (a := a)
    (h.imp_right fun ho q hq => by have := cellsOf_mem _ _ _ q hq; omega)
  refine hb.trans ?_
  rw [State.missed_eq]
  rfl

theorem State.eng?_unitWritten (s : State) (g : Group) (off w k sel : Nat) : (s.unitWritten g off w).eng? k sel = s.eng? k sel := by
  unfold State.unitWritten
  rw [State.unclaim_eq]
  refine (State.eng?_localWrite _ _ _ _ k sel).trans ?_
  rw [State.missed_eq]
  rfl

/-- ENGINE_TRANSFER of a started copy command takes its next step. -/
theorem execEngineTransfer_copy (hs : sel % 8 ≤ 1) (hg : s.group? g.id = some g) (hrun : s.groupRuns g = true)
    (hc : (g.eng sel).cmd? cmd.n = some cmd) (hst : cmd.st = .started) (hop : cmd.op ≠ .coll) :
    exec (.engineTransfer ⟨g.id, sel, cmd.n⟩) s = .next (s.copyStep g sel cmd) := by
  refine (if_pos hs : execEngineTransfer ⟨g.id, sel, cmd.n⟩ s = _).trans (congrArg Host.Outcome.next ?_)
  unfold State.transferUnit
  simp only [hg, hc, hrun, hst]
  exact if_neg hop

/-- The command once it has read a unit of its source. -/
def EngCmd.holding (d x : Nat) (sp : Space) (as : List Nat) (c : EngCmd) : EngCmd :=
  { c with pend := [(0, d, BitVec.ofNat 32 x)], ahead := dropAhead c.ahead sp as }

theorem State.copyStep_reads (hg : s.group? g.id = some g) (hh : g.here = true) (hpend : cmd.pend = [])
    (hmore : cmd.progress < copyTotal cmd) (hlvl : lvlOf (bw cmd.block 0) = 1) (hin : (copyUnit cmd cmd.progress).1 + 4 ≤ g.ws)
    (hp : s.isPoisoned (.win g.id) ((copyUnit cmd cmd.progress).1 / 64 * 64 + (copyUnit cmd cmd.progress).1 % 64) 4 = false)
    (hbuf : cmd.buf = []) (hahead : cmd.ahead = []) :
    s.copyStep g sel cmd = (s.unclaim .passing).modCmd g.id sel cmd.n (EngCmd.holding (copyUnit cmd cmd.progress).2
      (s.rd (.win g.id) (copyUnit cmd cmd.progress).1 4) (.win g.id) (bytesAt (copyUnit cmd cmd.progress).1 4)) := by
  unfold State.copyStep
  simp only [hpend, if_neg (Nat.not_le.mpr hmore)]
  unfold State.unitSide
  rw [if_neg (by omega), hlvl, State.unitLocal_reads hg hh hin hp]
  simp only [EngCmd.before?, overlayAhead, hbuf, hahead, if_true]
  rfl

/-- The command once it has written the unit that it held. -/
def EngCmd.wrote (rest : List (Nat × Nat × Word)) (buf : List (Space × Nat × Byte) → List (Space × Nat × Byte)) (c : EngCmd) : EngCmd :=
  { c with pend := rest, progress := c.progress + 1, moved := c.moved + 4, buf := buf c.buf }

theorem State.copyStep_writes {j off : Nat} {w : Word} {rest : List (Nat × Nat × Word)} (hg : s.group? g.id = some g)
    (hh : g.here = true) (hpend : cmd.pend = (j, off, w) :: rest) (hlvl : lvlOf (bw cmd.block 2) = 1) (hlo : 256 ≤ off)
    (hin : off + 4 ≤ g.ws) (hfree : ∀ i < 4, (g.eng sel).laterWrote cmd.n (.win g.id) (off + i) = false) :
    s.copyStep g sel cmd = (s.unitWritten g off w.toNat).modCmd g.id sel cmd.n (EngCmd.wrote rest
      ((g.eng sel).wrote cmd.n (.win g.id) (bytesAt off 4) (s.rd (.win g.id) off 4))) := by
  have hany : ((bytesAt off 4).any fun a => (g.eng sel).laterWrote cmd.n (.win g.id) a) = false := by
    refine List.any_eq_false.2 fun a ha => ?_
    obtain ⟨i, hi, rfl⟩ := List.mem_map.1 ha
    rw [hfree i (List.mem_range.1 hi)]
    exact Bool.false_ne_true
  have hall : ((bytesAt off 4).all fun a => (g.eng sel).laterWrote cmd.n (.win g.id) a) = false := by
    refine List.all_eq_false.2 ⟨off, List.mem_map.2 ⟨0, by simp, rfl⟩, ?_⟩
    exact fun h => Bool.false_ne_true ((hfree 0 (by omega)).symm.trans h)
  unfold State.copyStep State.engWrite State.writeOver State.unitSide
  simp only [hpend, hlvl, State.unitLocal_writes hg hh hlo hin, Nat.one_ne_zero, if_false, hany, hall, Bool.false_eq_true]
  rfl

section
variable (hs : sel % 8 ≤ 1) (hg : s.group? g.id = some g) (hrun : s.groupRuns g = true) (hc : (g.eng sel).cmd? cmd.n = some cmd)
  (hst : cmd.st = .started) (hop : cmd.op ≠ .coll)
include hs hg hrun hc hst hop

theorem transfer_reads (hpend : cmd.pend = []) (hmore : cmd.progress < copyTotal cmd) (hlvl : lvlOf (bw cmd.block 0) = 1)
    (hin : (copyUnit cmd cmd.progress).1 + 4 ≤ g.ws)
    (hpois : s.isPoisoned (.win g.id) ((copyUnit cmd cmd.progress).1 / 64 * 64 + (copyUnit cmd cmd.progress).1 % 64) 4 = false)
    (hbuf : cmd.buf = []) (hahead : cmd.ahead = []) :
    ∃ u h x, exec (.engineTransfer ⟨g.id, sel, cmd.n⟩) s = .next u ∧ u.group? g.id = some h ∧ (h.eng sel).cmd? cmd.n = some x ∧
      x.pend = [(0, (copyUnit cmd cmd.progress).2, BitVec.ofNat 32 (s.rd (.win g.id) (copyUnit cmd cmd.progress).1 4))] ∧
      s.sameData u := by
  have hh := here_of_groupRuns hrun
  rw [execEngineTransfer_copy hs hg hrun hc hst hop, State.copyStep_reads hg hh hpend hmore hlvl hin hpois hbuf hahead]
  have he : (s.unclaim .passing).eng? g.id sel = some (g.eng sel) := by
    rw [State.unclaim_eq]
    exact State.eng?_eq hg sel
  obtain ⟨h, hu, hx⟩ := State.modCmd_find (f := EngCmd.holding (copyUnit cmd cmd.progress).2
    (s.rd (.win g.id) (copyUnit cmd cmd.progress).1 4) (.win g.id) (bytesAt (copyUnit cmd cmd.progress).1 4)) he hc fun _ => rfl
  refine ⟨_, h, _, rfl, hu, hx, rfl, State.sameData_trans ?_ (State.modEng_sameData ..)⟩
  rw [State.unclaim_eq]
  exact State.sameData_of_eq rfl rfl rfl rfl

theorem transfer_writes {k off : Nat} {w : Word} {rest : List (Nat × Nat × Word)} (hpend : cmd.pend = (k, off, w) :: rest)
    (hlvl : lvlOf (bw cmd.block 2) = 1) (hlo : 256 ≤ off) (hin : off + 4 ≤ g.ws)
    (hfree : ∀ i < 4, (g.eng sel).laterWrote cmd.n (.win g.id) (off + i) = false) :
    ∃ u h x, exec (.engineTransfer ⟨g.id, sel, cmd.n⟩) s = .next u ∧ u.group? g.id = some h ∧ (h.eng sel).cmd? cmd.n = some x ∧
      x.pend = rest ∧ x.progress = cmd.progress + 1 ∧ x.moved = cmd.moved + 4 ∧ u.rd (.win g.id) off 4 = w.toNat ∧
      ∀ sp a, (sp ≠ .win g.id ∨ a < off ∨ off + 4 ≤ a) → u.rdByte sp a = s.rdByte sp a := by
  have hh := here_of_groupRuns hrun
  rw [execEngineTransfer_copy hs hg hrun hc hst hop, State.copyStep_writes hg hh hpend hlvl hlo hin hfree]
  obtain ⟨h, hu, hx⟩ := State.modCmd_find (f := EngCmd.wrote rest ((g.eng sel).wrote cmd.n (.win g.id) (bytesAt off 4)
    (s.rd (.win g.id) off 4))) ((s.eng?_unitWritten g off w.toNat g.id sel).trans (State.eng?_eq hg sel)) hc fun _ => rfl
  have hsame := (s.unitWritten g off w.toNat).modEng_sameData g.id sel fun x => x.modCmd cmd.n (EngCmd.wrote rest
    ((g.eng sel).wrote cmd.n (.win g.id) (bytesAt off 4) (s.rd (.win g.id) off 4)))
  refine ⟨_, h, _, rfl, hu, hx, rfl, rfl, rfl, ?_, fun sp a ha => (hsame.1 sp a).trans (State.unitWritten_other ha)⟩
  exact (State.sameData_rd hsame _ off 4).trans ((State.unitWritten_rd hg).trans (Nat.mod_eq_of_lt w.isLt))

end

/-! ### ENGINE_COMMAND_COMPLETE (R122) -/

theorem execEngineCommandComplete_copy (hs : sel % 8 ≤ 1) (hg : s.group? g.id = some g) (hrun : s.groupRuns g = true)
    (hc : (g.eng sel).cmd? cmd.n = some cmd) (hm : cmd.moved? = true) :
    exec (.engineCommandComplete ⟨g.id, sel, cmd.n⟩) s = .next (s.engDone g.id sel cmd.n 0) := by
  have hdone : g.cmdDone sel cmd = true := by
    unfold Group.cmdDone selEngine
    have : sel % 8 = 0 ∨ sel % 8 = 1 := by omega
    rcases this with h | h <;> simp only [h, hm]
  show execEngineCommandComplete ⟨g.id, sel, cmd.n⟩ s = _
  unfold execEngineCommandComplete
  simp only [hg, hc, hrun, hdone]
  rfl

/-- The only command of a context, once done, moves C on to its number. -/
theorem EngCtx.settleC_single (hx : x.cmds = [cmd]) (hn : cmd.n = x.c + 1) :
    ((x.modCmd cmd.n EngCmd.ended).settleC).c = cmd.n ∧
      ((x.modCmd cmd.n EngCmd.ended).settleC).cmds = [] := by
  have hcmds : (x.modCmd cmd.n EngCmd.ended).cmds = [cmd.ended] := by
    unfold EngCtx.modCmd
    rw [hx, List.map_singleton, if_pos rfl]
  have hadv : advanceC x.c [cmd.ended] = (x.c + 1, []) := by
    unfold advanceC
    rw [if_pos ⟨hn, rfl⟩]
    rfl
  unfold EngCtx.settleC
  rw [hcmds, show (x.modCmd cmd.n EngCmd.ended).c = x.c from rfl, hadv]
  exact ⟨hn.symm, rfl⟩

theorem complete_spec (hs : sel % 8 ≤ 1) (hg : s.group? g.id = some g) (hrun : s.groupRuns g = true) (hm : cmd.moved? = true)
    (hx : (g.eng sel).cmds = [cmd]) (hn : cmd.n = (g.eng sel).c + 1) (hthere : s.reportThere g cmd.bar cmd.before = true) :
    ∃ u h, exec (.engineCommandComplete ⟨g.id, sel, cmd.n⟩) s = .next u ∧ u.group? g.id = some h ∧
      (h.eng sel).c = cmd.n ∧ (h.eng sel).cmds = [] ∧ (cmd.bar = 0 → s.sameData u) ∧
      ∀ sp a, cmd.bar ≠ 0 → s.engWord g cmd.bar.toNat 16 16 true cmd.before = .ok (sp, a) →
        (s.rd sp (a + 4) 4 + 1) % 2 ^ 32 < s.rd sp a 4 → u.rd sp (a + 4) 4 = (s.rd sp (a + 4) 4 + 1) % 2 ^ 32 := by
  have hc : (g.eng sel).cmd? cmd.n = some cmd := by
    unfold EngCtx.cmd?
    rw [hx, List.find?_cons_of_pos (by simp)]
  obtain ⟨h, hu, he⟩ := State.group_of_eng? (State.engDone_eng? hg hc hthere 0)
  obtain ⟨hcount, hnone⟩ := EngCtx.settleC_single hx hn
  refine ⟨_, h, execEngineCommandComplete_copy hs hg hrun hc hm, hu, by rw [he]; exact hcount, by rw [he]; exact hnone,
    fun hbar => ?_, fun sp a hbar hobj hlast => ?_⟩
  · rw [State.engDone_eq hg hc hthere, State.report, if_pos hbar]
    exact State.modEng_sameData ..
  · rw [State.engDone_eq hg hc hthere]
    exact (State.sameData_rd (State.modEng_sameData ..) sp (a + 4) 4).trans (State.report_arrives hg hbar hobj hlast)

/-! ### The obligation -/

/-- Settles O43: each event takes the branch its premises name; what it leaves of the context is read off there, and a report or a
unit written beside it changes no context. -/
theorem engineCommandEvents : Obligations.EngineCommandEvents := by
  intro s g sel cmd hg hrun hs
  refine ⟨fun hhead => ⟨fun hr => ?_, fun hr hc hthere => ?_, fun hr hp hi => ?_⟩, fun hc hst hop => ⟨?_, ?_⟩, fun hm hx hn hthere => ?_⟩
  · rw [execEngineCommandStart_copy hs, State.startCopy_pending hg hrun hhead hr]
  · rw [execEngineCommandStart_copy hs, State.startCopy_discards hg hrun hhead hr]
    obtain ⟨h, hu, he⟩ := State.group_of_eng? (State.engDone_eng? hg hc hthere 8)
    refine ⟨_, h, rfl, hu, fun y hy => ?_, by rw [he]; rfl⟩
    rw [he] at hy
    exact EngCtx.modCmd_st EngCmd.ended_st y (EngCtx.mem_settleC hy)
  · rw [execEngineCommandStart_copy hs, ← State.startChecks_fst]
    refine ⟨fun hf => ?_, fun k loc hf hc hthere => ?_⟩
    · rw [State.startCopy_starts hg hrun hhead hr hp hi hf]
      obtain ⟨h, hu, he⟩ := State.group_of_eng? (State.eng?_modCmd (State.eng?_eq hg sel) cmd.n (EngCmd.begun (s.startChecks g cmd).2))
      refine ⟨_, h, rfl, hu, fun y hy => ?_, State.modEng_sameData ..⟩
      rw [he] at hy
      exact EngCtx.modCmd_st (EngCmd.begun_st _) y hy
    · rw [State.startCopy_fails hg hrun hhead hr hp hi hf]
      obtain ⟨x, hx, hhalt⟩ := State.engFail_halts (k := k) (loc := loc) (inv := false) hg hc hthere
      obtain ⟨h, hu, rfl⟩ := State.group_of_eng? hx
      exact ⟨_, h, rfl, hu, hhalt⟩
  · exact transfer_reads hs hg hrun hc hst hop
  · exact fun k off w rest => transfer_writes hs hg hrun hc hst hop
  · exact complete_spec hs hg hrun hm hx hn hthere

end Sys2Proof.Machine
end

section
/-!
PROOFS. The obligation on accesses that are performed fails at one point: nothing in its premises says that a lane's bytes lie in the
line of its request (R78). A request whose one lane has offset 64 needs sector 4 of its line. No line has that sector, so a line that
is whole in the SLC does not serve the request: it waits for a fill from its bank, and the bank may be busy.
-/
namespace Sys2Proof.Machine

/-! ### A store beyond its line -/

/-- A request for line 0 whose lane lies at the first byte past the line. -/
def beyondReq : LineReq := { space := .glob, line := 0, lanes := [{ lane := 0, off := 64 }] }
/-- A store of four bytes with that request. -/
def beyondStore : Flight := { id := 0, team := 0, split := 0, path := 0, kind := .store, n := 4, reqs := [beyondReq] }
/-- The bank of line 0 while it writes a slot back. -/
def busyBank : Bank := { running := some (.demoteWb 0 0 0) }
/-- The fill that the store asks of it: sector 4 of line 0. -/
def fifthSector : BankReq := .access 0 false (some (⟨0, 0⟩, 0, [4]))
/-- The store in flight, its line whole in the SLC, and the bank busy. -/
def beyondState : State :=
  { teams := [{ id := 0, group := 0 }], flights := [beyondStore], slc := [{ line := 0, valid := BitVec.allOnes 4 }], banks := [(0, busyBank)] }

/-- The state once the bank has been asked for that sector. -/
def beyondAsked : State := { beyondState with banks := [(0, { busyBank with queue := [fifthSector] })] }
/-- The state once the store waits at its line. -/
def beyondWaits : State := { beyondAsked with slcQ := [(0, .flight 0)] }

theorem beyondState_locate : beyondState.locate (0 * 64) = some (0, 0, 0) := by
  unfold State.locate State.backing
  rw [if_pos (by decide)]
  rfl

theorem beyondState_cellOf : beyondState.cellOf (0 * 64) = ⟨0, 0⟩ := by
  unfold State.cellOf State.backing
  rw [if_pos (by decide)]
  rfl

/-- R64: the busy bank queues the fill. -/
theorem beyondState_bankAsk : beyondState.bankAsk 0 [4] false = (beyondAsked, false) := by
  unfold State.bankAsk
  rw [beyondState_locate]
  simp only [beyondState_cellOf]
  rfl

/-- R14: a line with its four sectors has no sector 4. -/
theorem beyondState_slcFill : beyondState.slcFill 0 [4] = (beyondAsked, false) := by
  have hroom : beyondState.slcRoom 0 = (beyondState, true) := rfl
  have hneed : [4].filter (fun k => !(((beyondState.slcFind 0).getD { line := 0 }).valid.getLsbD k)) = [4] := by decide
  unfold State.slcFill
  rw [hroom]
  simp only [hneed, beyondState_bankAsk]

/-- R101: the store takes its place at the line. -/
theorem beyondState_prepare : beyondState.prepare 0 beyondStore beyondReq (.flight 0) = (beyondWaits, false, .slc (some 0)) := by
  have hdir : beyondState.slcDir 0 true (some 0) = (beyondState, true) := rfl
  have hfills : beyondReq.fills beyondStore = [4] := by decide
  unfold State.prepare State.slcAsk
  simp only [hfills, show beyondReq.line = 0 from rfl, hdir, beyondState_slcFill]
  rfl

theorem beyondState_mayPerform : beyondState.mayPerform beyondStore beyondReq = true := rfl

/-- The store's only request is not performed. -/
theorem beyondState_performReq : beyondState.performReq 0 0 = beyondWaits := by
  unfold State.performReq
  simp only [show beyondState.flight? 0 = some beyondStore from rfl, show beyondStore.reqs[0]? = some beyondReq from rfl,
    beyondState_mayPerform]
  simp only [show beyondStore.core = 0 from rfl, beyondState_prepare]
  rfl

/-- SLC_REQUEST of an access of one request, for that request's line. -/
theorem execSlcRequest_one {s : State} {f : Flight} {r : LineReq} (hf : s.flight? f.id = some f) (hr : f.reqs = [r]) :
    exec (.slcRequest ⟨f.id, r.line⟩) s = .next (s.performReq f.id 0) := by
  show execSlcRequest ⟨f.id, r.line⟩ s = _
  unfold execSlcRequest
  simp [hf, hr]

/-! ### The obligation -/

/-- Refutes O38: the clause on SLC_REQUEST, at a store whose lane lies past the end of its line, is not performed. -/
theorem not_accessesPerform : ¬ Obligations.AccessesPerform := by
  intro h
  have hone : ∀ e ∈ beyondState.flights, e.id = beyondStore.id → e = beyondStore := fun e he _ => List.mem_singleton.1 he
  obtain ⟨-, -, -, -, hslc, -⟩ := h beyondState beyondStore beyondReq { id := 0, group := 0 } rfl hone rfl rfl beyondState_mayPerform rfl rfl
  have hunread : beyondState.unread .glob 0 := by
    intro t ht p hp
    rw [List.mem_singleton.1 ht] at hp
    exact absurd hp (List.not_mem_nil)
  obtain ⟨u, f', he, hf, hperformed, -⟩ := hslc _ rfl rfl rfl rfl rfl rfl rfl ⟨_, rfl, rfl⟩ rfl hunread
  obtain rfl := Host.Outcome.next.inj ((execSlcRequest_one (f := beyondStore) rfl rfl).symm.trans he)
  rw [show beyondStore.id = 0 from rfl, beyondState_performReq] at hf
  obtain rfl : beyondStore = f' := Option.some.inj hf
  exact absurd hperformed (by decide)

end Sys2Proof.Machine
end
